-- ==== Sys2Proof/Word.lean ====
section
/-! DEFINITION. The word types of the YM32 model (spec 00_scope.md, R1 and R2): everything the manual numbers as
bits is a bit vector; indexes, counts and byte offsets are plain numbers. -/

namespace Sys2Proof

/-- One byte. -/
abbrev Byte := BitVec 8

/-- One 32-bit word of a register page, a descriptor or a record (R2). -/
abbrev Word := BitVec 32

/-- One 64-bit field. -/
abbrev W64 := BitVec 64

end Sys2Proof
end

