-- ==== Sys2Proof/Syntax.lean ====
section
/-! DEFINITION. The commands of the YM32: one constructor of Instr for each row of spec/opcode_table.json. The table
gives its rows no bits and no operand fields, so the operands are this model's: they say which source, page, channel,
queue or port the event concerns and what the outside world supplied with it (assumption log 1). -/

namespace Sys2Proof

abbrev Tower := Fin 32
/-- A physical channel of a tower; 32 is the spare. -/
abbrev Chan := Fin 33
abbrev Deck := Fin 16
/-- A bank of a channel, b of R28: 16 × bank within the deck + deck. -/
abbrev Bank := Fin 64
abbrev Port := Fin 4
abbrev Pair := Fin 4
abbrev Stall := Fin 4
/-- A PCI Express requester ID. -/
abbrev Rid := BitVec 16
/-- A BAR0 offset. -/
abbrev BarOff := BitVec 26
/-- The number of a register page: BAR0 offset / 4 KiB. -/
abbrev PageNo := BitVec 14
/-- A BAR2 offset. -/
abbrev Ap := BitVec 38
/-- A device address field of 64 bits (R20). -/
abbrev Da := BitVec 64
/-- A 64 B descriptor or record: word i is bits 32i to 32i + 31 (R2). -/
abbrev Desc := BitVec 512
/-- Symbols of a stored 36 B codeword that arrive altered: index 0 to 31 data byte, 32 to 35 check byte, and the bits
that differ. -/
abbrev Errs := List (Fin 36 × Byte)
/-- A temperature in units of 0.5 °C. -/
abbrev HalfDeg := Fin 4096
/-- An end of a hawser route: 0 to 31 a tower, 32 gate die 0, 33 gate die 1. -/
abbrev Node := Fin 34

/-- The hawser ports of a base die (R13). -/
inductive Dir where
  | n | e | s | w
deriving DecidableEq, Repr

/-- Who sends a register write: a port with a requester ID, or the management bus with the source EID, the source's
physical address, and whether the message came inside an SPDM secured session. -/
inductive Src where
  | port (p : Port) (rid : Rid)
  | mgmt (eid : Byte) (addr : BitVec 7) (secured : Bool)
deriving DecidableEq, Repr

/-- The formats of an atomic add (R78). -/
inductive AddFmt where
  | int32 | int64 | fp32 | bf16
deriving DecidableEq, Repr

/-- What a parity check covered (R84). -/
inductive ParKind where
  | command | writeData | readData
deriving DecidableEq, Repr

/-- Bits altered on the interface of a channel: what they belong to, and the bits of the beat and of its parity (R65). -/
structure ParErr where
  kind : ParKind
  flips : Errs
  par : BitVec 9
deriving DecidableEq, Repr

/-- A BAR0 read: who sends it, its offset and its size in bytes (R32). -/
structure RegRead where
  src : Src
  addr : BarOff
  size : Nat
deriving DecidableEq, Repr

/-- A write of an entry of the vector table in BAR4: its number, address, data and mask bit (R31). -/
structure VecEntry where
  v : Byte
  addr : W64
  data : Word
  mask : Bool
deriving DecidableEq, Repr

/-- A core of a tower: aisle and index within the aisle (R23). -/
structure CoreId where
  t : Tower
  a : Fin 20
  c : Fin 16
deriving DecidableEq, Repr

/-- The queues of R268. -/
inductive QKind where
  | mx | vx | mv | sy | bn
deriving DecidableEq, Repr

/-- A queue: for BN only the tower counts. -/
structure QueueId where
  core : CoreId
  k : QKind
deriving DecidableEq, Repr

/-- A scheduled resource of R312. -/
inductive Resource where
  | aisle (t : Tower) (a : Fin 20)
  | bench (t : Tower)
deriving DecidableEq, Repr

/-- What the host memory answered when one intake ring was sampled: the producer word (none: the read failed with the
completion status), and the records read from the consumer index on (none: that read failed). -/
structure Sample where
  p : Port
  n : Pair
  prod : Option Word
  status : BitVec 3
  recs : List (Option Desc)
deriving DecidableEq, Repr

/-- What the layers of a step produced for one session: the tokens sampled at positions LEN, LEN + 1, …, the drafts of
the prediction heads, and whether the sampled records or the attention output were poisoned. -/
structure RowOut where
  ctx : Byte
  sid : Word
  toks : List Word
  heads : List Word
  poison : Bool
deriving DecidableEq, Repr

/-- The consumer word read for one result ring; none: the read failed. -/
structure RingRead where
  p : Port
  n : Pair
  rcons : Option Word
deriving DecidableEq, Repr

/-- The requests of R360. -/
inductive UrKind where
  | io (wr : Bool) | atomicOp | prefixed | outOfBar (wr : Bool) | ep (wr : Bool) | ecrc (wr : Bool)
deriving DecidableEq, Repr

/-- The media that carry MCTP: the I3C and SMBus bus, and PCI Express VDM on each port (R369). -/
inductive Medium where
  | bus
  | vdm (p : Port)
deriving DecidableEq, Repr

/-- The source of a management message: physical address, EID, message tag and tag owner bit. -/
structure MsgSrc where
  phys : Byte
  eid : Byte
  tag : BitVec 3
  owner : Bool
deriving DecidableEq, Repr

/-- The key of a message assembly (R369). -/
structure AsmKey where
  m : Medium
  src : MsgSrc
deriving DecidableEq, Repr

/-- The levels of the strap pins (R397). -/
structure Straps where
  slotId : BitVec 3
  bootSel : BitVec 2
  clkMode : BitVec 2
deriving DecidableEq, Repr

/-- The fatal errors of R437. -/
inductive FatalKind where
  | refclk | gateMem (g : Fin 2) | tallyman | reconfTwice (st : Stall) | unconfined
deriving DecidableEq, Repr


/-- The commands and events of the part: one constructor for each row of spec/opcode_table.json, in its order. -/
inductive Instr where
  /-- R15. A hawser packet travels by dimension order from its source port to its destination port, 12 ns per hop. -/
  | hawserPacket (src : Node) (dst : Node) (id : Nat) (replays : Nat)
  /-- R17. The receiver acknowledges packets, and the sending port releases them; after a reroute, further sends for the affected pairs resume. -/
  | hawserAck (src : Node) (dst : Node) (n : Nat)
  /-- R17. A link fails its replay limit, so it is marked down and its pairs are rerouted row first with a resend of unacknowledged packets. -/
  | linkDown (t : Tower) (d : Dir)
  /-- R5. A register write with no row of its own takes effect by class, or is shadowed, staged or refused. -/
  | regWrite (src : Src) (addr : BarOff) (size : Nat) (val : W64)
  /-- R63. A read of DEV.TIME_LO returns device time [31:0] and latches TIME_HI for the reading source. -/
  | timeLoRead (r : RegRead)
  /-- R33. A BAR2 read is translated through its window, checked in order and completed, with EP set on poisoned data. -/
  | bar2Read (p : Port) (rid : Rid) (off : Ap) (len : Nat)
  /-- R33. A BAR2 write is translated, checked in order and written, or dropped and recorded. -/
  | bar2Write (p : Port) (rid : Rid) (off : Ap) (data : List Byte) (ep : Bool)
  /-- R34. A write to PRT.WIN_BASEw is held until the next write of PRT.WIN_CTLw. -/
  | winBaseWrite (src : Src) (p : Port) (w : Fin 8) (val : Word)
  /-- R34. A write to PRT.WIN_CTLw applies the control word and the held base for later requests. -/
  | winCtlWrite (src : Src) (p : Port) (w : Fin 8) (val : Word)
  /-- R36. A write to PRT.ACW_BASEa or ACW_LIMITa is held until the next write of ACW_CTLa. -/
  | acwHeldWrite (src : Src) (p : Port) (a : Fin 16) (limit : Bool) (val : Word)
  /-- R36. A write to PRT.ACW_CTLa is judged against the range it would hold and is accepted or refused. -/
  | acwCtlWrite (src : Src) (p : Port) (a : Fin 16) (val : Word)
  /-- R25. A write of TWR.MEMMAP is ignored whole if it carries a reserved value, and otherwise takes effect by class S. -/
  | memmapWrite (src : Src) (t : Tower) (val : Word)
  /-- R52. BLK_TXN BEGIN opens a page transaction, or a group member, and records its opener. -/
  | txnBegin (src : Src) (page : PageNo) (group : Byte)
  /-- R54. BLK_TXN COMMIT arms the staged writes for the page's safe point. -/
  | txnCommit (src : Src) (page : PageNo)
  /-- R55. BLK_TXN ROLLBACK discards the staged writes; on a group member it aborts the group. -/
  | txnRollback (src : Src) (page : PageNo)
  /-- R57. DEV.TXG_CMD OPEN opens a transaction group and sets its owner. -/
  | txgOpen (src : Src) (g : Byte)
  /-- R59. DEV.TXG_CMD COMMIT arms the group, or refuses it and sets it to FAILED. -/
  | txgCommit (src : Src) (g : Byte)
  /-- R58. DEV.TXG_CMD ABORT sets every member to ROLLED and the group to ABORTED. -/
  | txgAbort (src : Src) (g : Byte)
  /-- R59. 10 ms after the first hold with not every member ready, nothing is applied, the group fails and the stalls are released. -/
  | txgTimeout (g : Byte)
  /-- R57. A DONE, ABORTED or FAILED group returns to FREE 1 s after it reached that state. -/
  | txgRelease (g : Byte)
  /-- R60. A write to DEV.IFVER_REQ is answered in DEV.IFVER_ACK with accepted or refused. -/
  | ifverReqWrite (p : Port) (rid : Rid) (val : Word)
  /-- R398. A write of 1 to DEV.SWRST.GO requests a software device reset. -/
  | swrstGo (src : Src)
  /-- R398. 100 µs after the SWRST write is performed, D1–D6 are cleared. -/
  | softwareDeviceReset
  /-- R51. At a step boundary, latched writes, committed transactions and every other action due at the boundary are applied. -/
  | stepBoundary (st : Stall)
  /-- R68. Each CK_M cycle, the channel controller issues at most one command, chosen by the arbitration rules. -/
  | channelCommandIssue (t : Tower) (c : Chan)
  /-- R67. A read of a 256 B line or of whole ECC units enters the channel read queue. -/
  | memReadRequest (da : Da) (units : Fin 9) (tag : Nat)
  /-- R75. A write enters the write queue, or the write-combining buffer when it is partial. -/
  | memWriteRequest (da : Da) (data : List Byte) (poison : Bool)
  /-- R74. A 32 B narrow read is queued and served with activate, one beat and auto-precharge. -/
  | narrowRead (da : Da) (tag : Nat)
  /-- R78. An atomic add of one 32 B unit is combined in the atomic queue. -/
  | atomicAdd (da : Da) (af : AddFmt) (addend : BitVec 256) (mask : BitVec 16)
  /-- R81. Read data returns from a deck and is decoded, corrected, or found poisoned or uncorrectable. -/
  | readDataReturn (t : Tower) (c : Chan) (errs : Errs)
  /-- R428. A mirror unit arrives and replaces the bad unit, then repair of the bad unit begins. -/
  | mirrorReadReturn (t : Tower) (errs : Errs)
  /-- R429. The read-back of a repaired unit completes and is recorded as clean or failed. -/
  | mirrorRepairReadback (t : Tower) (errs : Errs)
  /-- R76. 2 µs after its first write, a write-combining entry is flushed. -/
  | wcbTimeoutFlush (t : Tower) (c : Chan)
  /-- R79. An atomic-queue entry idle for 1 µs is written to memory by read-modify-write. -/
  | atomicIdleWriteback (t : Tower) (c : Chan)
  /-- R71. A bank's per-bank refresh falls due at tREFI. -/
  | refreshDue (t : Tower) (c : Chan) (b : Bank)
  /-- R83. The patrol scrubber reads a unit, writes back a correction or poisons in place. -/
  | patrolScrubRead (t : Tower) (c : Chan) (b : Bank) (row : Fin 32768) (unit : Fin 64) (errs : Errs)
  /-- R84. An interface parity error causes a reissue of the command or read. -/
  | parityError (t : Tower) (c : Chan) (e : ParErr)
  /-- R88. A forced retrain begins at the next bench-command boundary and extends the step bound. -/
  | forcedRetrainStart (t : Tower) (c : Chan)
  /-- R86. A training slice of at most 2.5 µs ends, and the refreshes due are issued. -/
  | retrainSliceEnd (t : Tower) (c : Chan)
  /-- R86. A retrain attempt ends: it converges to NORMAL, another attempt follows, or after three the channel is FAILED. -/
  | retrainAttemptEnd (t : Tower) (c : Chan) (converged : Bool)
  /-- R87. MEM.TRAIN.REQ schedules a retrain. -/
  | trainReq (src : Src) (t : Tower) (c : Chan)
  /-- R96. A deck temperature report sets the throttle step and hot refresh, and may schedule a retrain. -/
  | deckTempReport (t : Tower) (deck : Deck) (half : HalfDeg)
  /-- R90. MEM.CH_REPAIR START begins copying a logical channel into the spare. -/
  | repairStart (src : Src) (t : Tower) (c : Chan)
  /-- R94. MEM.CH_REPAIR ABORT during the copy stops the repair and frees the spare. -/
  | repairAbort (src : Src) (t : Tower) (c : Chan)
  /-- R91. The repair engine copies one row of the channel into the spare. -/
  | repairRowCopy (t : Tower)
  /-- R95. MEM.TG_CTL GO starts the traffic generator when allowed, and is otherwise ignored. -/
  | tgGo (src : Src) (t : Tower) (c : Chan) (val : Word)
  /-- R95. MEM.TG_CTL STOP stops the generator after the transfer in progress. -/
  | tgStop (src : Src) (t : Tower) (c : Chan) (val : Word)
  /-- R95. A traffic generator run finishes and sets DONE, TG_ERR and TG_CYC. -/
  | tgRunDone (t : Tower) (c : Chan) (cycles : Nat)
  /-- R97. A write of MEM BLK_CTL.EN = 0 is accepted only for a spare, retired or failed channel, or a tower out of service. -/
  | memEnWrite (src : Src) (t : Tower) (c : Chan) (en : Bool)
  /-- R116. A BN RUN opens its set and runs its micro-operation loop, or waits for EFF_BANKS. -/
  | bnRun (t : Tower) (d : Desc)
  /-- R110. SETLOAD loads and checks a bench set list. -/
  | bnSetload (t : Tower) (d : Desc)
  /-- R110. BLOAD copies data into the broadcast buffer. -/
  | bnBload (t : Tower) (d : Desc)
  /-- R121. A RUN ends with a chained or catch-up boundary. -/
  | bnRunComplete (t : Tower)
  /-- R102. Stethar micro-operation NOP. -/
  | unitNop (t : Tower) (u : Word)
  /-- R101. Stethar MAC: D += A × B lane-wise. -/
  | unitMac (t : Tower) (u : Word)
  /-- R102. Stethar MUL: D = A × B. -/
  | unitMul (t : Tower) (u : Word)
  /-- R102. Stethar FMA: D = D + A × B with one rounding. -/
  | unitFma (t : Tower) (u : Word)
  /-- R102. Stethar ADD. -/
  | unitAdd (t : Tower) (u : Word)
  /-- R102. Stethar SUB. -/
  | unitSub (t : Tower) (u : Word)
  /-- R102. Stethar MAX. -/
  | unitMax (t : Tower) (u : Word)
  /-- R102. Stethar MIN. -/
  | unitMin (t : Tower) (u : Word)
  /-- R101. Stethar CMPGT writes a mask register. -/
  | unitCmpgt (t : Tower) (u : Word)
  /-- R101. Stethar CMPGE writes a mask register. -/
  | unitCmpge (t : Tower) (u : Word)
  /-- R101. Stethar CMPEQ writes a mask register. -/
  | unitCmpeq (t : Tower) (u : Word)
  /-- R125. Stethar SEL selects lanes by mask K. -/
  | unitSel (t : Tower) (u : Word)
  /-- R104. Stethar EXP2 by table interpolation. -/
  | unitExp2 (t : Tower) (u : Word)
  /-- R104. Stethar LOG2 by table interpolation. -/
  | unitLog2 (t : Tower) (u : Word)
  /-- R115. Stethar HSUM sums the 16 lanes by a pairwise tree into one lane. -/
  | unitHsum (t : Tower) (u : Word)
  /-- R102. Stethar HMAX takes the lane maximum into one lane. -/
  | unitHmax (t : Tower) (u : Word)
  /-- R114. Stethar RSUM reduces register A along the rope over a span. -/
  | unitRsum (t : Tower) (u : Word)
  /-- R114. Stethar RMAX takes a rope maximum over a span. -/
  | unitRmax (t : Tower) (u : Word)
  /-- R102. Stethar MOV. -/
  | unitMov (t : Tower) (u : Word)
  /-- R126. Stethar ST writes an ECC unit of the row with new check bits or poison. -/
  | unitSt (t : Tower) (u : Word)
  /-- R102. Stethar CLR zeroes a register and clears its poison. -/
  | unitClr (t : Tower) (u : Word)
  /-- R111. Stethar OUT sends register A as 64 B records to DST. -/
  | unitOut (t : Tower) (u : Word)
  /-- R156. A change of ISOLATE is ignored while any frame is ALLOC. -/
  | kvIsolateWrite (src : Src) (t : Tower) (val : Word)
  /-- R155. The Tallyman issues a scrub program for DIRTY frames as BE work when the sequencer allows. -/
  | scrubProgramIssue (t : Tower)
  /-- R154. A scrub ends, and its frames become CLEAN with SCRUB 0. -/
  | scrubComplete (t : Tower)
  /-- R209. An MX descriptor at the head of its queue is checked and executes its product and epilogue. -/
  | mxCommand (q : CoreId) (d : Desc)
  /-- R221. VX NOP. -/
  | vxNop (q : CoreId) (d : Desc)
  /-- R221. VX ADD over the tile range. -/
  | vxAdd (q : CoreId) (d : Desc)
  /-- R221. VX SUB. -/
  | vxSub (q : CoreId) (d : Desc)
  /-- R221. VX MUL. -/
  | vxMul (q : CoreId) (d : Desc)
  /-- R221. VX FMA rounded once. -/
  | vxFma (q : CoreId) (d : Desc)
  /-- R222. VX MAX. -/
  | vxMax (q : CoreId) (d : Desc)
  /-- R222. VX MIN. -/
  | vxMin (q : CoreId) (d : Desc)
  /-- R220. VX SEL by mask QM. -/
  | vxSel (q : CoreId) (d : Desc)
  /-- R222. VX CMPGT writes mask QD. -/
  | vxCmpgt (q : CoreId) (d : Desc)
  /-- R222. VX CMPGE writes mask QD. -/
  | vxCmpge (q : CoreId) (d : Desc)
  /-- R222. VX CMPEQ writes mask QD. -/
  | vxCmpeq (q : CoreId) (d : Desc)
  /-- R221. VX MAND combines two masks. -/
  | vxMand (q : CoreId) (d : Desc)
  /-- R221. VX MOR combines two masks. -/
  | vxMor (q : CoreId) (d : Desc)
  /-- R221. VX MNOT inverts a mask. -/
  | vxMnot (q : CoreId) (d : Desc)
  /-- R223. VX EXP2. -/
  | vxExp2 (q : CoreId) (d : Desc)
  /-- R223. VX LOG2. -/
  | vxLog2 (q : CoreId) (d : Desc)
  /-- R223. VX RSQRT. -/
  | vxRsqrt (q : CoreId) (d : Desc)
  /-- R223. VX RCP. -/
  | vxRcp (q : CoreId) (d : Desc)
  /-- R221. VX CVT converts tiles to FP32 or INT32. -/
  | vxCvt (q : CoreId) (d : Desc)
  /-- R221. VX LDT loads tile images. -/
  | vxLdt (q : CoreId) (d : Desc)
  /-- R221. VX STT stores tiles to DST. -/
  | vxStt (q : CoreId) (d : Desc)
  /-- R233. VX ACC adds N images in fixed order. -/
  | vxAcc (q : CoreId) (d : Desc)
  /-- R234. VX SCL applies rescale and row scale by R172. -/
  | vxScl (q : CoreId) (d : Desc)
  /-- R226. VX RSUM row sum through the knot tree with FIN. -/
  | vxRsum (q : CoreId) (d : Desc)
  /-- R226. VX RMAX row maximum through the knot tree. -/
  | vxRmax (q : CoreId) (d : Desc)
  /-- R227. VX RARGMAX writes the first-ranked record of each row. -/
  | vxRargmax (q : CoreId) (d : Desc)
  /-- R229. VX TOPK selects the first k per row, optionally after a floor. -/
  | vxTopk (q : CoreId) (d : Desc)
  /-- R231. VX SAMPLE draws a Gumbel-max sample per row. -/
  | vxSample (q : CoreId) (d : Desc)
  /-- R230. VX MERGE ranks N candidate records per row. -/
  | vxMerge (q : CoreId) (d : Desc)
  /-- R235. VX QNT quantises rows at a scale point and stores the codes. -/
  | vxQnt (q : CoreId) (d : Desc)
  /-- R282. MV COPY copies rows, gathering by narrow read when rows are 32 B. -/
  | mvCopy (q : CoreId) (d : Desc)
  /-- R282. MV CONVERT converts elements between formats. -/
  | mvConvert (q : CoreId) (d : Desc)
  /-- R282. MV FILL writes FILLV. -/
  | mvFill (q : CoreId) (d : Desc)
  /-- R282. MV ATOMIC adds a vector per row into memory. -/
  | mvAtomic (q : CoreId) (d : Desc)
  /-- R282. MV HOSTRD reads host memory across the context's port. -/
  | mvHostrd (q : CoreId) (d : Desc)
  /-- R282. MV HOSTWR writes host memory across the context's port. -/
  | mvHostwr (q : CoreId) (d : Desc)
  /-- R247. MV PACK quantises rows, chooses a block mode and writes blocks to the destinations. -/
  | pack (q : CoreId) (d : Desc)
  /-- R275. SY FENCE completes when earlier descriptors, and with MEM their memory writes, are complete. -/
  | syFence (q : QueueId) (d : Desc)
  /-- R277. SY WAIT waits for a semaphore to reach COUNT and subtracts it. -/
  | syWait (q : QueueId) (d : Desc)
  /-- R276. SY POST adds COUNT to a semaphore of a tower. -/
  | syPost (q : QueueId) (d : Desc)
  /-- R278. SY STAMP writes device time to DST. -/
  | syStamp (q : QueueId) (d : Desc)
  /-- R286. An ST descriptor of the Tallyman's step machinery runs; in a host list it is refused. -/
  | stDescriptor (q : QueueId) (d : Desc)
  /-- R277. TMO_US passes before a WAIT is satisfied, and the submission fails. -/
  | waitTimeout (q : QueueId)
  /-- R267. A word-0 wait exceeds STL.QCFG.TMO_US, and the submission fails. -/
  | word0WaitTimeout (q : QueueId)
  /-- R267. A descriptor completes, posts its semaphore and lets the queue start its next descriptor. -/
  | descriptorComplete (q : QueueId)
  /-- R313. A submission's slice ends while another waits, so the resource switches at the next switch point. -/
  | sliceExpiry (r : Resource)
  /-- R289. A RING_CTL write enables or disables a ring pair and resets its indices when EN rises. -/
  | ringCtlWrite (src : Src) (p : Port) (n : Pair) (val : Word)
  /-- R292. Part 1 of a step samples the intake rings of the stall in rotating port order. -/
  | stepIntake (st : Stall) (samples : List Sample)
  /-- R292. IDLE_US passes with no step, so the rings are sampled. -/
  | idleSampleTimer (st : Stall) (samples : List Sample)
  /-- R282. A device read of host memory completes, successfully or with error and poison. -/
  | hostReadCompletion (p : Port) (tag : Nat) (ok : Bool) (ep : Bool) (data : List Byte)
  /-- R282. A device read times out under Device Control 2 and is treated as failed. -/
  | cplTimeout (p : Port) (tag : Nat)
  /-- R336. An OPEN_SESSION record opens a session that waits in admission. -/
  | openSession (p : Port) (n : Pair) (r : Desc)
  /-- R335. A SUBMIT adds prompt tokens and generation as a request. -/
  | submit (p : Port) (n : Pair) (r : Desc)
  /-- R327. An APPEND adds tokens as a request. -/
  | append (p : Port) (n : Pair) (r : Desc)
  /-- R348. A DRAFT supplies draft tokens for a position. -/
  | draft (p : Port) (n : Pair) (r : Desc)
  /-- R344. A CANCEL ends the active or oldest pending request, with optional truncation. -/
  | cancel (p : Port) (n : Pair) (r : Desc)
  /-- R347. A CLOSE cancels every request and ends the session. -/
  | close (p : Port) (n : Pair) (r : Desc)
  /-- R303. An EXPERT_LIST record's bundle is checked and launched as one submission. -/
  | expertList (p : Port) (n : Pair) (r : Desc)
  /-- R335. Part 2 applies cancels, closes and drafts, then admissions and splices in ring order. -/
  | stepAdmission (st : Stall)
  /-- R333. Part 3 allocates frames and zeroes unit B of the scale entries. -/
  | stepAllocate (st : Stall)
  /-- R333. Part 4 runs the layers, output projection and sampling. -/
  | stepLayers (st : Stall) (rows : List RowOut)
  /-- R182. After the fence, the miss word is read and the layer is re-run in BF16 for the missing rows. -/
  | layerCheck (st : Stall) (layer : Byte)
  /-- R349. Part 5 verifies drafts and counts accepted tokens. -/
  | stepVerify (st : Stall)
  /-- R151. Part 6 advances LEN and writes digests and scale entries. -/
  | stepCommit (st : Stall)
  /-- R294. Part 7 writes one result batch per ring pair, then the producer index. -/
  | stepEmit (st : Stall) (rooms : List RingRead)
  /-- R333. Part 8 frees the frames of ending sessions to DIRTY. -/
  | stepFree (st : Stall)
  /-- R295. IDLE_US passes while records are held, so RCONS is read and held records are written. -/
  | resultHoldRetry (p : Port) (n : Pair) (rcons : Option Word)
  /-- R297. MOD_US passes since the oldest unsignalled record, and the vector is raised. -/
  | msixModeration (p : Port) (n : Pair)
  /-- R297. A masked vector with its pending bit set is delivered when unmasked. -/
  | msixVectorUnmask (p : Port) (e : VecEntry)
  /-- R336. A session waiting 16 × ADMIT_TMO steps ends with NO_FRAMES. -/
  | admissionTimeout (st : Stall) (ctx : Byte) (sid : Word)
  /-- R339. After LC_PARK steps the LC session is still short, so BE sessions are evicted in order. -/
  | lcParkExpiry (st : Stall)
  /-- R340. Every active BE session of a tower has been parked for PARK_MAX steps, so the newest is evicted. -/
  | parkMaxExpiry (t : Tower)
  /-- R354. An idle record whose STEP falls 2³⁰ behind is rewritten to the counter. -/
  | stepRecordRefresh (t : Tower) (r : Fin 16384)
  /-- R248. A step whose counter is a multiple of TEPOCH is a histogram step. -/
  | histogramStep (st : Stall)
  /-- R253. PKR.TAB_CMD LOAD loads a table image entry into every tower at the next boundary. -/
  | tabLoad (src : Src) (t : Tower) (tid : Byte)
  /-- R305. A write changing DEV.STALL_CFG.NSTALL starts a reconfiguration of every stall. -/
  | partitionChange (src : Src) (val : Word)
  /-- R306. PRT.STALL_CLAIM CLAIM makes the port the pending owner if the stall has none. -/
  | claim (src : Src) (p : Port) (st : Stall)
  /-- R306. PRT.STALL_CLAIM RELEASE gives up pending ownership. -/
  | release (src : Src) (p : Port) (st : Stall)
  /-- R306. STL.OWNER SET from the management bus makes PORT the owner. -/
  | ownerSet (src : Src) (st : Stall) (port : Fin 8)
  /-- R307. STL.RECONF GO requests a reconfiguration, refused as BUSY without FORCE when work remains. -/
  | reconfGo (src : Src) (st : Stall) (force : Bool)
  /-- R308. At a step boundary, the stall runs the six phases of reconfiguration. -/
  | reconfiguration (st : Stall)
  /-- R309. STL.CTX_CFGk EN = 1 opens a context with a new key, or is refused. -/
  | contextOpen (src : Src) (st : Stall) (k : Fin 64) (val : Word)
  /-- R310. STL.CTX_CFGk EN = 0 puts the context in DRAIN for closing at the next boundary. -/
  | contextClose (src : Src) (st : Stall) (k : Fin 64)
  /-- R323. The stall reset completes, and contexts resume at their last committed step. -/
  | stallResetDone (st : Stall)
  /-- R407. BLK_CTL.BRST requests a block-level reset, accepted or refused by page. -/
  | brstWrite (src : Src) (page : PageNo)
  /-- R407. A block-level reset completes and READY returns. -/
  | brstDone (page : PageNo)
  /-- R363. Assertion of PERSTp_N resets port p with all the effects of a port event. -/
  | perst (p : Port)
  /-- R363. A hot reset of port p has all the effects of a port event. -/
  | hotReset (p : Port)
  /-- R363. Link down of port p has all the effects of a port event. -/
  | portLinkDown (p : Port)
  /-- R363. An FLR, or a return from D3hot with No_Soft_Reset = 0, has all the effects of a port event. -/
  | flr (p : Port)
  /-- R365. The isolation wrapper finishes retiring host transfers within 100 µs. -/
  | isolationComplete (p : Port)
  /-- R365. FLR ends within 10 ms, and the port answers normally. -/
  | flrComplete (p : Port)
  /-- R358. A port trains its link to the highest shared rate and width. -/
  | linkUp (p : Port) (rate : Fin 16) (width : Fin 32) (flit : Bool) (reversed : Bool)
  /-- R361. A configuration request is answered, or gets Retry Status before the port is ready. -/
  | configRequest (p : Port) (wr : Bool) (off : BitVec 12) (val : Word)
  /-- R360. An I/O, AtomicOp, prefixed or out-of-BAR request receives Unsupported Request. -/
  | unsupportedRequest (p : Port) (rid : Rid) (kind : UrKind) (addr : W64)
  /-- R369. An MCTP packet is checked and assembled into a message, or discarded. -/
  | mctpPacket (m : Medium) (phys : Byte) (bytes : List Byte) (pecOk : Bool)
  /-- R369. 100 ms without a packet discards an assembly. -/
  | assemblyTimeout (key : AsmKey)
  /-- R367. SETDASA assigns a dynamic address and enters I3C mode. -/
  | setdasa (static : BitVec 7) (dyn : BitVec 7)
  /-- R367. ENTDAA assigns a dynamic address after arbitration on the provisional ID. -/
  | entdaa (won : Bool) (dyn : BitVec 7)
  /-- R367. RSTDAA, or the target reset pattern, returns the target to SMBus mode. -/
  | rstdaa
  /-- R367. An HDR entry makes the target ignore traffic until the HDR exit pattern. -/
  | hdrEntry
  /-- R368. A parity error makes the target ignore the rest of the transfer. -/
  | i3cParityError
  /-- R368. SCL held low for 25 ms makes the target release the bus and go idle. -/
  | busTimeout
  /-- R370. Set Endpoint ID assigns the target EID and records the bus owner. -/
  | setEndpointId (m : Medium) (w : MsgSrc) (op : Byte) (eid : Byte)
  /-- R370. Another MCTP control message is answered. -/
  | mctpControl (m : Medium) (w : MsgSrc) (cmd : Byte) (body : List Byte)
  /-- R373. A register access READ message reads words for a permitted source. -/
  | registerAccessRead (m : Medium) (w : MsgSrc) (body : List Byte)
  /-- R374. A register access WRITE message writes words as the management bus, with session and permission checks. -/
  | registerAccessWrite (m : Medium) (w : MsgSrc) (secured : Bool) (body : List Byte)
  /-- R371. The target attempts to send a response or event, and fails on arbitration loss or NACK. -/
  | responseAttempt (m : Medium) (lost : Bool) (nack : Bool)
  /-- R371. A backoff ends, and the target retries or drops the message after four attempts. -/
  | backoffExpiry (m : Medium)
  /-- R370. A PLDM Type 0 base request is answered. -/
  | pldmBase (m : Medium) (w : MsgSrc) (body : List Byte)
  /-- R453. PLDM GetSensorReading returns a numeric sensor value. -/
  | getSensorReading (m : Medium) (w : MsgSrc) (body : List Byte)
  /-- R453. Effecter 1 sets MODULE_W under R443, or is refused. -/
  | setNumericEffecterValue (m : Medium) (w : MsgSrc) (body : List Byte)
  /-- R453. SetEventReceiver sets the PlatformEventMessage receiver. -/
  | setEventReceiver (m : Medium) (w : MsgSrc) (body : List Byte)
  /-- R412. PLDM Type 5 carries an image component to the checks and the inactive slot. -/
  | pldmFirmwareUpdate (m : Medium) (w : MsgSrc) (body : List Byte)
  /-- R375. SPDM GET_VERSION, which resets the source's connection. -/
  | getVersion (m : Medium) (w : MsgSrc) (body : List Byte)
  /-- R375. SPDM GET_CAPABILITIES. -/
  | getCapabilities (m : Medium) (w : MsgSrc) (body : List Byte)
  /-- R375. SPDM NEGOTIATE_ALGORITHMS. -/
  | negotiateAlgorithms (m : Medium) (w : MsgSrc) (body : List Byte)
  /-- R375. SPDM GET_DIGESTS. -/
  | getDigests (m : Medium) (w : MsgSrc) (body : List Byte)
  /-- R381. SPDM GET_CERTIFICATE returns the slot 0 chain. -/
  | getCertificate (m : Medium) (w : MsgSrc) (body : List Byte)
  /-- R375. SPDM CHALLENGE, signed with the Alias key. -/
  | challenge (m : Medium) (w : MsgSrc) (body : List Byte)
  /-- R382. SPDM GET_MEASUREMENTS reports the measurement blocks. -/
  | getMeasurements (m : Medium) (w : MsgSrc) (body : List Byte)
  /-- R375. SPDM KEY_EXCHANGE. -/
  | keyExchange (m : Medium) (w : MsgSrc) (body : List Byte)
  /-- R375. SPDM FINISH establishes a session. -/
  | finish (m : Medium) (w : MsgSrc) (ok : Bool) (body : List Byte)
  /-- R375. SPDM HEARTBEAT. -/
  | heartbeat (m : Medium) (w : MsgSrc) (body : List Byte)
  /-- R375. SPDM KEY_UPDATE. -/
  | keyUpdate (m : Medium) (w : MsgSrc) (body : List Byte)
  /-- R375. SPDM END_SESSION. -/
  | endSession (m : Medium) (w : MsgSrc) (body : List Byte)
  /-- R375. SPDM CHUNK_SEND. -/
  | chunkSend (m : Medium) (w : MsgSrc) (body : List Byte)
  /-- R375. SPDM CHUNK_GET. -/
  | chunkGet (m : Medium) (w : MsgSrc) (body : List Byte)
  /-- R370. A secured message using SPDM is decrypted and handled. -/
  | securedMessage (m : Medium) (w : MsgSrc) (session : Word) (ok : Bool) (body : List Byte)
  /-- R379. SEC.ARB_CMD COMMIT raises the anti-rollback counter to the running image's SVN. -/
  | arbCommit (src : Src) (type : Fin 8)
  /-- R380. SEC.KEYREV REVOKE fuses a vendor key revocation, or is refused. -/
  | revoke (src : Src) (idx : Fin 4)
  /-- R391. SEC.MODEL_CFGs NEWKEY generates a model key held until reconfiguration. -/
  | newkey (src : Src) (st : Stall)
  /-- R391. SEC.MODEL_CFGs IMPORT copies and clears KIMPORT as the held model key. -/
  | importKey (src : Src) (st : Stall)
  /-- R391. A KIMPORTi write is accepted only from a secured management session. -/
  | kimportWrite (src : Src) (k : Fin 16) (val : Word)
  /-- R383. After 2²⁰ requests the generator reseeds. -/
  | drbgReseed
  /-- R383. The entropy source fails its health test, and key and seed issue stop. -/
  | entropyFail
  /-- R392. Unlock of the test access port erases every key and sets measurement 7. -/
  | tapUnlock
  /-- R398. VSB rises, clearing D0–D6. -/
  | powerOn
  /-- R400. RESET_N goes low, and the filter starts. -/
  | resetNAssert
  /-- R400. RESET_N low for 1 µs makes a device reset. -/
  | resetNFilterExpiry
  /-- R405. RESET_N is released with PWR_GOOD high, and the domain release begins; a short pulse is counted. -/
  | resetNRelease (lowNs : Nat) (straps : Straps)
  /-- R457. PWR_GOOD reads low, and the device is held in reset. -/
  | pwrGoodLow
  /-- R395. The selected reference stops for 10 µs, and the PLLs hold frequency. -/
  | refclkStop
  /-- R395. The reference has not returned within 100 µs, and a fatal error is raised. -/
  | refclkLossTimeout
  /-- R401. TLY.HEARTBEAT unchanged for WDT_MS resets the device. -/
  | watchdogExpiry
  /-- R401. The Tallyman increments HEARTBEAT; the first one sets PHASE to READY. -/
  | tallymanHeartbeat (clerks : Byte)
  /-- R413. PHASE not READY within START_TMO fails the start and resets. -/
  | startTimeout
  /-- R413. READY for CONFIRM_S confirms the start and clears CONSEC_FAIL. -/
  | startConfirm
  /-- R403. A parity error in critical state resets the device at once. -/
  | criticalStateError (crit : Fin 16) (tower : Tower)
  /-- R404. A fatal error starts up to 10 ms of handling to record it. -/
  | fatalError (kind : FatalKind)
  /-- R404. Handling ends, or 10 ms run out, and the device resets. -/
  | fatalHandlingEnd
  /-- R405. A counted REFCLK event of the release order releases the next domain. -/
  | domainReleaseEvent (locked : Bool)
  /-- R406. Memory initialisation finishes training and zeroing every channel. -/
  | memoryInitDone (failed : List (Nat × Nat))
  /-- R417. The boot ROM reads the persistent record, chooses the bank and slot, and supplies MGT.PORTCFG. -/
  | bootRecordRead
  /-- R410. An image read from flash completes and is checked. -/
  | imageReadDone (slot : Fin 2) (type : Fin 8) (ok : Bool)
  /-- R412. FLS.LOAD_CMD BEGIN opens an image load and sets its owner. -/
  | loadBegin (src : Src)
  /-- R412. FLS.LOAD_CMD CHUNK takes LEN bytes from the load buffer. -/
  | loadChunk (src : Src) (len : BitVec 17)
  /-- R412. A chunk is taken and STATE leaves BUSY. -/
  | loadChunkDone
  /-- R412. FLS.LOAD_CMD END checks the image, giving ACCEPTED or REJECTED. -/
  | loadEnd (src : Src)
  /-- R412. FLS.LOAD_CMD ABORT ends the load. -/
  | loadAbort (src : Src)
  /-- R412. 10 s without a command ends load ownership. -/
  | loadOwnerTimeout
  /-- R415. RSC.BOOT RETRY leaves recovery with a device reset. -/
  | bootRetry (src : Src)
  /-- R418. FLS.SLOT SWAP makes the other valid slot preferred in the record. -/
  | slotSwap (src : Src)
  /-- R418. A persistent record write is read back and checked, retried once or failed. -/
  | recordWriteDone (ok : Bool)
  /-- R425. A write to DEV.ERR_SEL latches PROD and one error record for the source. -/
  | errSelWrite (src : Src) (val : Word)
  /-- R439. Hourly, the growth of SEV_CNT is added into HIST_CNT of the record. -/
  | sevHistoryFlush
  /-- R432. STL.INTEG RESUME checks both copies of the lost data. -/
  | integResume (src : Src) (st : Stall)
  /-- R432. The resume check ends CLEAN, clearing HALT, or DIRTY. -/
  | integrityCheckDone (st : Stall)
  /-- R455. An error in clerk-core, security-core or fabric memory is counted, or is fatal. -/
  | gateMemoryError (g : Fin 2) (correctable : Bool)
  /-- R445. A 100 µs grant epoch begins, and the new grants, soft cap and thermal extensions apply. -/
  | epochStart
  /-- R445. By 90 µs, each tower reports its demand for the next epoch. -/
  | demandReport (t : Tower) (tsv : Fin 65536) (banks : Fin 17) (core : Fin 65536)
  /-- R446. By 95 µs, the weighhouse computes grants and substitutes floors for missing reports. -/
  | grantCompute
  /-- R448. 5 µs after the epoch start, towers with raised grants raise voltage then frequency. -/
  | grantRise (t : Tower)
  /-- R447. Measured draw above the grant makes the tower skip issue cycles. -/
  | issueThrottle (t : Tower) (measured : Fin 65536)
  /-- R450. A base die reads its temperatures and sets its stretch step. -/
  | baseTempRead (t : Tower) (half : HalfDeg)
  /-- R455. Every 100 µs, a gate die reads its junction temperature. -/
  | gateTempRead (g : Fin 2) (half : HalfDeg)
  /-- R443. A write of MODULE_W is refused if the floors would not fit. -/
  | moduleWWrite (src : Src) (val : Word)
  /-- R464. PWR_EN rises, and the VMAIN converters soft-start. -/
  | pwrEnRise
  /-- R464. Soft start ends and PWR_GOOD is released. -/
  | softStartDone (straps : Straps)
  /-- R465. PWR_EN falls: PWR_GOOD goes low, the device resets and the rails fall. -/
  | pwrEnFall
  /-- R465. 100 ms after PWR_EN fell, a held rise takes effect. -/
  | pwrEnHoldoffExpiry
  /-- R462. VMAIN below 44 V for 10 µs trips the monitor and resets. -/
  | vmainUndervoltage
  /-- R462. VMAIN above 60 V for 1 µs trips the monitor and resets. -/
  | vmainOvervoltage
  /-- R462. A supply fault clears, and the converters restart if PWR_EN is high. -/
  | supplyFaultClear
  /-- R462. VSB falls below 2.9 V; its return is power-on. -/
  | vsbLoss
  /-- R361. Deassertion of PERSTp_N lets port p start link training once D6 is released, and starts its 100 ms limit for answering configuration requests. -/
  | perstDeassert (p : Port)
  /-- R367. The HDR exit pattern on the bus ends the target's ignoring of HDR traffic and returns it to SDR. -/
  | hdrExit
  /-- R395. The selected reference returns within 100 µs of stopping, so the PLLs leave their hold and the fatal timeout is cancelled. -/
  | refclkReturn
  /-- R397. PWR_GOOD, held low by the platform, rises while RESET_N is high, so the straps are latched and the domain release begins. -/
  | pwrGoodRelease (straps : Straps)
  /-- R308. The phases of a reconfiguration end after t_rc: SSTATE becomes CONFIGURED, RESULT becomes DONE, and sampling resumes. -/
  | reconfigurationDone (st : Stall)
deriving DecidableEq, Repr

end Sys2Proof
end

