-- ==== Sys2Proof/Decode.lean ====
section
/-! DEFINITION. The words of the opcode table: no row of spec/opcode_table.json gives bits, so no word spells a
command. Commands enter through the queue. -/

namespace Sys2Proof

/-- The command that a word of nbits bits spells by the table's bits: none, since the table gives its rows none. -/
def decodeTableWord (_nbits _w : Nat) : Option Instr := none

end Sys2Proof
end

