-- ==== Sys2Proof/Config.lean ====
section
/-! DEFINITION. What an implementation fixes and what the manual leaves open: free values with no body, so that no
proof can see what they are. Each is named in the assumption log. -/

namespace Sys2Proof

/-- R223: the FP32 code that the vector engine's EXP2 returns for an input, free inside the error bound (log 12). -/
opaque Config.vxExp2 : BitVec 32 → BitVec 32
/-- R223: LOG2 of the vector engine (log 12). -/
opaque Config.vxLog2 : BitVec 32 → BitVec 32
/-- R223: RSQRT of the vector engine (log 12). -/
opaque Config.vxRsqrt : BitVec 32 → BitVec 32
/-- R223: RCP of the vector engine (log 12). -/
opaque Config.vxRcp : BitVec 32 → BitVec 32
/-- A free number, fresh at each value of the state's counter State.free: a choice the manual leaves open (log 13). -/
opaque Config.freeNat : Nat → Nat
/-- A free 64 B key of the random bit generator of R383 (log 14). -/
opaque Config.freeKey : Nat → BitVec 512
/-- A free 64-bit seed of the random bit generator of R383 (log 14). -/
opaque Config.freeSeed : Nat → BitVec 64
/-- R378 step 5: whether an ML-DSA-44 signature (FIPS 204) verifies: public key, message digest, signature (log 15). -/
opaque Config.mlDsaVerify : List (BitVec 8) → List (BitVec 8) → List (BitVec 8) → Bool
/-- R378 step 3: the vendor key hashes fused at manufacture, by key index (log 16). -/
opaque Config.vendorKeyHash : Nat → List (BitVec 8)
/-- R381 and R375: the bytes of a certificate chain, a public key share or a signature that the security core forms:
a free byte string of the counter and a length (log 17). -/
opaque Config.freeBytes : Nat → Nat → List (BitVec 8)
/-- R320: the quantities of the step bound that only the Tallyman's lists fix, by number: of the free counter and the rows of
the step (log 18). -/
opaque Config.plan : Nat → Nat → Nat → Nat
/-- R320: the BF16 bound, in us, of one full-batch layer of a step with that many rows (log 18). -/
opaque Config.bf16Layer : Nat → Nat
/-- R332: the time, in us, that the copy of a host prefix of that many bytes adds to the step bound (log 18). -/
opaque Config.copyBound : Nat → Nat
/-- R381: the length of the certificate chain of slot 0, and its bytes: of the digests that the Alias key derives from and
an index (log 17). -/
opaque Config.certLen : Nat
opaque Config.certByte : List (BitVec 8) → Nat → BitVec 8
/-- R382 block 1: the SHA3-256 digest of the boot ROM (log 17). -/
opaque Config.bootRomDigest : List (BitVec 8)
/-- R40: the value an aligned unit holds where two writes have no defined order (log 13). -/
opaque Config.freeByte : Nat → BitVec 8

/-- R95: the data that the traffic generator expects in a unit: of its seed, the DATA code and the unit index (log 35). -/
opaque Config.tgData : Nat → Nat → Nat → BitVec 256
/-- R95: the unit that the traffic generator visits i-th with random addresses from a seed (log 35). -/
opaque Config.tgAddr : Nat → Nat → Nat
/-- R95: the first place of the walking one of the traffic generator, from a seed (log 35). -/
opaque Config.tgWalk : Nat → Nat
/-- R210: the output channels of a C4 tensor, which its codebook index array gives by an extent that no field states: of the
words of its format descriptor (log 46). -/
opaque Config.channels : List (BitVec 32) → Nat
/-- R318: the experts of a token of a layer, each by the device address of its weights' primary copy: of a free number
(log 134). -/
opaque Config.experts : Nat → List Nat
/-- R145: the BF16 code of an element of the pre-scaled query of a head: of the pass's number, the head and the element
(log 129). -/
opaque Config.query : Nat → Nat → Nat → BitVec 16

end Sys2Proof
end

