-- ==== Sys2Proof/Machine/Bits.lean ====
section
/-! DEFINITION. Bit fields, little-endian bytes, serial comparison and sparse maps: the helpers every chapter uses.
Rules R1, R2 and R9 of spec/00_scope.md. -/

namespace Sys2Proof.Machine

/-- Bits [hi:lo] of a number, both ends included (00_scope.md, Notation). -/
def bitsOf (x hi lo : Nat) : Nat := (x >>> lo) % 2 ^ (hi + 1 - lo)

/-- Bit i of a number as a truth value. -/
def bitOf (x i : Nat) : Bool := (x >>> i) % 2 == 1

/-- Bits [hi:lo] of a 32-bit word. -/
def fget (w : Word) (hi lo : Nat) : Nat := bitsOf w.toNat hi lo

/-- Bit i of a 32-bit word. -/
def fbit (w : Word) (i : Nat) : Bool := bitOf w.toNat i

/-- The word with bits [hi:lo] replaced by v. -/
def fset (w : Word) (hi lo v : Nat) : Word :=
  let n := 2 ^ (hi + 1 - lo)
  BitVec.ofNat 32 (w.toNat - (w.toNat >>> lo) % n * 2 ^ lo + v % n * 2 ^ lo)

/-- A truth value as one bit. -/
def b2n (b : Bool) : Nat := if b then 1 else 0

/-- A two's-complement number of n bits, read from the low n bits of x. -/
def sext (n x : Nat) : Int :=
  let y := x % 2 ^ n
  if y < 2 ^ (n - 1) then (y : Int) else (y : Int) - (2 ^ n : Nat)

/-- The low n bits of an integer, in two's complement. -/
def trunc (n : Nat) (i : Int) : Nat := (i % (2 ^ n : Nat)).toNat

/-- Clamp an integer to [lo, hi]. -/
def clampI (lo hi x : Int) : Int := if x < lo then lo else if hi < x then hi else x

/-- Ceiling division; 0 by 0. -/
def cdiv (a b : Nat) : Nat := (a + b - 1) / b

/-- R9: a is newer than b among n-bit values when (a - b) mod 2^n lies in 1 to 2^(n-1) - 1. -/
def newer (n a b : Nat) : Bool :=
  let d := (a + 2 ^ n - b % 2 ^ n) % 2 ^ n
  decide (1 ≤ d) && decide (d ≤ 2 ^ (n - 1) - 1)

/-- R9: the two n-bit values are unordered when their difference is 2^(n-1). -/
def unordered (n a b : Nat) : Bool := (a + 2 ^ n - b % 2 ^ n) % 2 ^ n == 2 ^ (n - 1)

/-- Saturating addition of a 32-bit counter. -/
def satAdd32 (a n : Nat) : Nat := min (a + n) 0xFFFFFFFF

/-- Bytes of a number, least significant first (R1). -/
def leBytes : Nat → Nat → List Byte
  | 0, _ => []
  | k + 1, x => BitVec.ofNat 8 x :: leBytes k (x / 256)

/-- The number whose bytes, least significant first, are the list's (R1). -/
def leNat : List Byte → Nat
  | [] => 0
  | b :: bs => b.toNat + 256 * leNat bs

/-- The 32-bit words of a byte list, word 0 at the lowest address (R2). -/
def wordsOf : Nat → List Byte → List Word
  | 0, _ => []
  | k + 1, bs => BitVec.ofNat 32 (leNat (bs.take 4)) :: wordsOf k (bs.drop 4)

/-- Word i of a descriptor or record; a word the list does not hold is 0. -/
def wd (ws : List Word) (i : Nat) : Word := ws.getD i 0

/-- The 64-bit field in words i (low) and i + 1 (high). -/
def wd64 (ws : List Word) (i : Nat) : Nat := (wd ws i).toNat + 2 ^ 32 * (wd ws (i + 1)).toNat

/-- Read a sparse map: the value at k, or d where nothing is listed. -/
def mget {α : Type} (d : α) : List (Nat × α) → Nat → α
  | [], _ => d
  | (k', v) :: t, k => if k' = k then v else mget d t k

/-- List v at k, keys rising. -/
def mput {α : Type} : List (Nat × α) → Nat → α → List (Nat × α)
  | [], k, v => [(k, v)]
  | (k', v') :: t, k, v =>
    if k < k' then (k, v) :: (k', v') :: t
    else if k' = k then (k, v) :: t
    else (k', v') :: mput t k v

/-- Write a sparse map. An entry equal to the default d is not kept, so equal maps are equal lists. -/
def mset {α : Type} [DecidableEq α] (d : α) (m : List (Nat × α)) (k : Nat) (v : α) : List (Nat × α) :=
  if v = d then m.filter (fun x => !(x.1 == k)) else mput m k v

/-- The canonical form of a sparse map: keys rise strictly from above lo, and no entry holds the default. -/
def mwfFrom {α : Type} [DecidableEq α] (d : α) : Option Nat → List (Nat × α) → Bool
  | _, [] => true
  | lo, (k, v) :: t => (match lo with | none => true | some l => decide (l < k)) && decide (v ≠ d) && mwfFrom d (some k) t

/-- The canonical form of a sparse map. -/
def mwf {α : Type} [DecidableEq α] (d : α) (m : List (Nat × α)) : Bool := mwfFrom d none m

/-- The members of a set of numbers, kept as a rising list: is k one of them? -/
def smem (l : List Nat) (k : Nat) : Bool := l.contains k

/-- Add k to a rising list of numbers. -/
def sadd : List Nat → Nat → List Nat
  | [], k => [k]
  | x :: t, k => if k < x then k :: x :: t else if x = k then x :: t else x :: sadd t k

/-- Take k out of a rising list of numbers. -/
def sdel (l : List Nat) (k : Nat) : List Nat := l.filter (fun x => !(x == k))

/-- Fold over 0, 1, …, n - 1. -/
def forN {σ : Type} (n : Nat) (init : σ) (f : σ → Nat → σ) : σ := (List.range n).foldl f init

/-- Replace the first element that satisfies p by f of it. -/
def mapFirst {α : Type} (p : α → Bool) (f : α → α) : List α → List α
  | [] => []
  | x :: t => if p x then f x :: t else x :: mapFirst p f t

/-- Remove the first element that satisfies p. -/
def dropFirst {α : Type} (p : α → Bool) : List α → List α
  | [] => []
  | x :: t => if p x then t else x :: dropFirst p t

/-- A list in rising order of a key; equal keys keep their order. -/
def sortOn {α : Type} (f : α → Nat) : List α → List α
  | [] => []
  | x :: t =>
    let r := sortOn f t
    r.takeWhile (fun y => decide (f y < f x)) ++ x :: r.dropWhile (fun y => decide (f y < f x))

/-- The largest of a list of numbers, 0 for none. -/
def maxL (l : List Nat) : Nat := l.foldl max 0

/-- The sum of a list of numbers. -/
def sumL (l : List Nat) : Nat := l.foldl (· + ·) 0

/-! ### Descriptors and records of 64 B (R2) -/

/-- Word i of a 64 B descriptor or record. -/
def dw (d : BitVec 512) (i : Nat) : Word := BitVec.ofNat 32 (d.toNat >>> (32 * i))

/-- Bits [hi:lo] of word i. -/
def dfld (d : BitVec 512) (i hi lo : Nat) : Nat := fget (dw d i) hi lo

/-- Bit k of word i. -/
def dbit (d : BitVec 512) (i k : Nat) : Bool := fbit (dw d i) k

/-- The 64-bit field in words i and i + 1. -/
def d64 (d : BitVec 512) (i : Nat) : Nat := (dw d i).toNat + 2 ^ 32 * (dw d (i + 1)).toNat

/-- Words i to j are zero. -/
def dzero (d : BitVec 512) (i j : Nat) : Bool := bitsOf d.toNat (32 * j + 31) (32 * i) == 0

def natOfWords : List Word → Nat
  | [] => 0
  | w :: ws => w.toNat + 2 ^ 32 * natOfWords ws

/-- The descriptor whose words are the list's, word 0 first. -/
def descOf (ws : List Word) : BitVec 512 := BitVec.ofNat 512 (natOfWords ws)

/-- Replace bits [hi:lo] of word i. -/
def dput (d : BitVec 512) (i hi lo v : Nat) : BitVec 512 :=
  descOf ((List.range 16).map (fun j => if j = i then fset (dw d j) hi lo v else dw d j))

/-- The 64 bytes of a descriptor. -/
def descBytes (d : BitVec 512) : List Byte := leBytes 64 d.toNat

/-- The descriptor in 64 bytes. -/
def descOfBytes (bs : List Byte) : BitVec 512 := BitVec.ofNat 512 (leNat bs)

/-- A word of a number. -/
def w32 (n : Nat) : Word := BitVec.ofNat 32 n

/-- The two words of a 64-bit number, low first. -/
def w64 (n : Nat) : List Word := [w32 n, w32 (n >>> 32)]

end Sys2Proof.Machine
end

