-- ==== Sys2Proof/Machine/RegTable.lean ====
section
/-! DEFINITION. The register tables: every register page of R43, every block register with its fields, their access
codes (R4), classes (R5), reset values (R8) and reserved encodings (R7, R49), as the register tables of the chapters
give them. A reset value the tables call per source, record, fuses, strap or per image stands as 0 here and is
supplied where that source is read. -/

namespace Sys2Proof.Machine

/-- R4. -/
inductive Acc where
  | ro | rw | w1c | wo
deriving DecidableEq, Repr

/-- R5: static, latched, dynamic. -/
inductive Cls where
  | s | l | d
deriving DecidableEq, Repr

/-- One field of a register: its bits, access, class, reset value and the reserved encodings as inclusive ranges. -/
structure Field where
  hi : Nat
  lo : Nat
  acc : Acc
  cls : Cls
  rst : Nat
  rsv : List (Nat × Nat)
deriving DecidableEq, Repr

/-- A register, or n registers a stride apart, at a page offset. -/
structure RegDef where
  off : Nat
  stride : Nat
  n : Nat
  fields : List Field
deriving DecidableEq, Repr

def ro (hi lo rst : Nat) : Field := ⟨hi, lo, .ro, .d, rst, []⟩
def w1 (hi lo : Nat) : Field := ⟨hi, lo, .w1c, .d, 0, []⟩
def wo (hi lo : Nat) (c : Cls) (rsv : List (Nat × Nat)) : Field := ⟨hi, lo, .wo, c, 0, rsv⟩
def rw (hi lo : Nat) (c : Cls) (rst : Nat) (rsv : List (Nat × Nat)) : Field := ⟨hi, lo, .rw, c, rst, rsv⟩

/-- The kinds of register page (R43). -/
inductive PKind where
  | dev | stl | twr | thm | bsq | pkr | hwp | mem | ais | gte | wgh | rsc | sec | mgt | fls | tly | prt
deriving DecidableEq, Repr

/-- BLK_ID.TYPE of a page (R43). -/
def PKind.type : PKind → Nat
  | .dev => 0x0001 | .stl => 0x0002 | .twr => 0x0010 | .thm => 0x0011 | .bsq => 0x0012 | .pkr => 0x0013
  | .hwp => 0x0014 | .mem => 0x0015 | .ais => 0x0016 | .gte => 0x0020 | .wgh => 0x0021 | .rsc => 0x0022
  | .sec => 0x0023 | .mgt => 0x0024 | .fls => 0x0025 | .prt => 0x0026 | .tly => 0x0027

/-- The bits of BLK_ERR that a page kind defines (R48 and the header tables of the chapters). Bit 3 is of PRT pages. -/
def PKind.errMask : PKind → Nat
  | .stl => 0xFFFF0076 | .thm => 0x00070076 | .bsq => 0x003F0076 | .pkr => 0x007F0076 | .mem => 0x03FF0076
  | .ais => 0xFFCF0076 | .gte => 0x00030076 | .wgh => 0x00070076 | .rsc => 0x00070076 | .sec => 0x001F0076
  | .mgt => 0x001F0076 | .fls => 0x001F0076 | .prt => 0x01FF007E | .dev | .twr | .hwp | .tly => 0x00000076

/-- Block registers of a DEV page. -/
def regsDev : List RegDef := [
  ⟨0x080, 0, 1, [ro 31 16 50, ro 15 8 160]⟩,  -- IDENT.PART IDENT.STEP
  ⟨0x084, 0, 1, [ro 31 24 32, ro 23 16 8, ro 15 8 4, ro 7 0 48]⟩,  -- TOPO.TOWERS TOPO.COLS TOPO.ROWS TOPO.DA_BITS
  ⟨0x088, 0, 1, [ro 31 16 320, ro 15 8 20, ro 7 0 4]⟩,  -- CORES.PER_TOWER CORES.AISLES CORES.PORTS
  ⟨0x08C, 0, 1, [ro 2 0 0]⟩,  -- SELF.SRC
  ⟨0x090, 0, 1, [rw 31 28 .d 0 [], rw 23 16 .d 0 [], rw 15 8 .d 0 []]⟩,  -- IFVER_REQ.GEN IFVER_REQ.MAJOR IFVER_REQ.MINOR
  ⟨0x094, 0, 1, [ro 31 28 0, ro 23 16 0, ro 15 8 0, ro 1 0 0]⟩,  -- IFVER_ACK.GEN IFVER_ACK.MAJOR IFVER_ACK.MINOR IFVER_ACK.STATUS
  ⟨0x098, 0, 1, [ro 3 0 0]⟩,  -- STATE.PHASE
  ⟨0x0A0, 0, 1, [ro 31 0 0]⟩,  -- TIME_LO
  ⟨0x0A4, 0, 1, [ro 31 0 0]⟩,  -- TIME_HI
  ⟨0x0A8, 0, 1, [ro 31 0 0]⟩,  -- SERIAL_LO
  ⟨0x0AC, 0, 1, [ro 31 0 0]⟩,  -- SERIAL_HI
  ⟨0x0B0, 0, 1, [wo 31 30 .d [], wo 7 0 .d []]⟩,  -- TXG_CMD.CMD TXG_CMD.GROUP
  ⟨0x0B4, 4, 2, [ro 31 0 0]⟩,  -- TXG_STAT0 TXG_STAT1
  ⟨0x0C0, 0, 1, [wo 0 0 .d []]⟩,  -- SWRST.GO
  ⟨0x0D0, 0, 1, [ro 5 4 0, wo 2 2 .d [], rw 1 0 .d 0 [(3, 3)]]⟩,  -- STALL_CFG.RESULT STALL_CFG.FORCE STALL_CFG.NSTALL
  ⟨0x100, 0, 1, [rw 31 18 .d 0 [], rw 5 0 .d 0 []]⟩,  -- ERR_SEL.PAGE ERR_SEL.IDX
  ⟨0x104, 0, 1, [ro 31 0 0]⟩,  -- ERR_PROD
  ⟨0x110, 4, 8, [ro 31 0 0]⟩,  -- ERR_DATAj
  ⟨0x140, 4, 4, [ro 31 0 0]⟩  -- SEV_CNTk
]

/-- Block registers of a STL page. -/
def regsStl : List RegDef := [
  ⟨0x080, 0, 1, [wo 31 31 .d [], rw 2 0 .d 7 []]⟩,  -- OWNER.SET OWNER.PORT
  ⟨0x084, 0, 1, [wo 31 31 .d [], wo 30 30 .d [], ro 25 24 0]⟩,  -- RECONF.GO RECONF.FORCE RECONF.RESULT
  ⟨0x088, 0, 1, [rw 31 24 .l 50 [(0, 0)], rw 23 16 .l 25 [(0, 0)], rw 15 11 .s 8 [(17, 31)], rw 10 8 .l 4 [(0, 0)], rw 1 1 .l 0 []]⟩,  -- SCHED.SLICE_US SCHED.RUN_MAX_US SCHED.SHELF_LC SCHED.SRST_MAX SCHED.MIRROR_BAL
  ⟨0x08C, 0, 1, [rw 31 16 .l 8000 [(0, 0)], rw 15 0 .l 1000 []]⟩,  -- BUDGET.LC_BOUND_US BUDGET.EXT_RESV_US
  ⟨0x090, 0, 1, [rw 15 0 .l 6000 [(0, 0)]]⟩,  -- STEP_TGT.STEP_US
  ⟨0x098, 0, 1, [ro 31 0 0]⟩,  -- RECONF_US
  ⟨0x0C0, 0, 1, [ro 31 0 0]⟩,  -- STEP
  ⟨0x0C4, 0, 1, [ro 31 0 0]⟩,  -- LC_OVER_CNT
  ⟨0x0C8, 0, 1, [ro 31 0 0]⟩,  -- VOID_CNT
  ⟨0x0CC, 0, 1, [ro 31 0 0]⟩,  -- SRST_CNT
  ⟨0x0D0, 0, 1, [ro 31 0 0]⟩,  -- TEARDOWN_CNT
  ⟨0x0D4, 0, 1, [ro 31 0 0]⟩,  -- SWITCH_CNT
  ⟨0x0D8, 0, 1, [ro 31 0 0]⟩,  -- OVERRUN_US
  ⟨0x100, 0, 1, [rw 0 0 .s 0 []]⟩,  -- MODE.EXPERT
  ⟨0x104, 0, 1, [rw 31 16 .l 50 [(0, 0)], rw 15 0 .l 256 [(0, 0)]]⟩,  -- INTAKE.IDLE_US INTAKE.MAX_TAKE
  ⟨0x108, 0, 1, [rw 15 0 .l 1000 [(0, 0)]]⟩,  -- QCFG.TMO_US
  ⟨0x200, 0, 1, [rw 31 5 .s 0 []]⟩,  -- FMT_BASE.BASE_LO
  ⟨0x204, 0, 1, [rw 15 0 .s 0 []]⟩,  -- FMT_BASE.BASE_HI
  ⟨0x208, 0, 1, [rw 16 16 .l 0 [], rw 15 0 .s 0 []]⟩,  -- FMT_CFG.VQ_ENC FMT_CFG.COUNT
  ⟨0x20C, 0, 1, [rw 18 16 .s 0 [], rw 7 0 .s 0 []]⟩,  -- SCALE_CFG.SPL_M1 SCALE_CFG.LAYERS
  ⟨0x210, 0, 1, [rw 31 5 .s 0 []]⟩,  -- CALW_BASE.BASE_LO
  ⟨0x214, 0, 1, [rw 15 0 .s 0 []]⟩,  -- CALW_BASE.BASE_HI
  ⟨0x218, 0, 1, [rw 31 31 .l 1 [], rw 23 16 .l 2 [], rw 15 8 .l 1 [], rw 5 4 .l 0 [], rw 2 0 .l 3 []]⟩,  -- CAL.CAL_EN CAL.RERUN_MAX CAL.CLIP_THR CAL.HEADROOM CAL.HIST_LEN_M1
  ⟨0x220, 0, 1, [ro 31 0 0]⟩,  -- CAL_MISS_CNT
  ⟨0x224, 0, 1, [ro 31 0 0]⟩,  -- CAL_RERUN_CNT
  ⟨0x228, 0, 1, [ro 31 0 0]⟩,  -- CAL_SKIP_CNT
  ⟨0x22C, 0, 1, [ro 31 0 0]⟩,  -- CLIP_CNT
  ⟨0x230, 0, 1, [ro 31 0 0]⟩,  -- NONFIN_CNT
  ⟨0x240, 0, 1, [rw 31 28 .l 1 [(0, 0)], rw 26 24 .l 7 [], rw 23 16 .l 64 [(0, 0)], rw 15 0 .l 1024 [(0, 0)]]⟩,  -- SERVE.PFX_TWR SERVE.DRAFT_MAX SERVE.ADMIT_TMO SERVE.CHUNK
  ⟨0x244, 0, 1, [rw 31 24 .l 2 [], rw 23 16 .l 16 [(0, 0)], rw 15 8 .l 1 [(129, 255)]]⟩,  -- ADMIT.LC_PARK ADMIT.PARK_MAX ADMIT.BE_HEAD
  ⟨0x248, 0, 1, [rw 17 0 .s 0 []]⟩,  -- VOCAB
  ⟨0x24C, 0, 1, [rw 31 0 .s 0 []]⟩,  -- MODEL_TAG
  ⟨0x250, 0, 1, [ro 31 16 0, ro 14 0 0]⟩,  -- LCWAIT LIVE
  ⟨0x254, 0, 1, [ro 14 0 0]⟩,  -- PARKED
  ⟨0x258, 0, 1, [ro 31 0 0]⟩,  -- FT_MAX_US
  ⟨0x260, 0, 1, [ro 31 0 0]⟩,  -- ADMIT_CNT
  ⟨0x264, 0, 1, [ro 31 0 0]⟩,  -- EVICT_CNT
  ⟨0x268, 0, 1, [ro 31 0 0]⟩,  -- PARK_CNT
  ⟨0x26C, 0, 1, [ro 31 0 0]⟩,  -- CANCEL_CNT
  ⟨0x270, 0, 1, [ro 31 0 0]⟩,  -- WITHHELD_CNT
  ⟨0x274, 0, 1, [ro 31 0 0]⟩,  -- DRAFT_OFF_CNT
  ⟨0x278, 0, 1, [ro 31 0 0]⟩,  -- DRAFT_ACC_CNT
  ⟨0x27C, 0, 1, [ro 31 0 0]⟩,  -- DRAFT_STALE_CNT
  ⟨0x280, 0, 1, [wo 31 31 .d [], ro 27 26 0, ro 25 25 0, ro 24 24 0, ro 6 0 0]⟩,  -- INTEG.RESUME INTEG.RESULT INTEG.OVF INTEG.HALT INTEG.LOST
  ⟨0x284, 0, 1, [ro 31 0 0]⟩,  -- LOST.DA_LO
  ⟨0x288, 0, 1, [ro 15 0 0]⟩,  -- LOST.DA_HI
  ⟨0x290, 0, 1, [rw 31 4 .s 0 []]⟩,  -- MIR_BASE.BASE_LO
  ⟨0x294, 0, 1, [rw 15 0 .s 0 []]⟩,  -- MIR_BASE.BASE_HI
  ⟨0x298, 0, 1, [rw 10 0 .s 0 [(1025, 2047)]]⟩,  -- MIR_CFG.COUNT
  ⟨0x2A0, 0, 1, [ro 31 0 0]⟩,  -- MIR_SUB_CNT
  ⟨0x2A4, 0, 1, [ro 31 0 0]⟩,  -- MIR_REPAIR_CNT
  ⟨0x2A8, 0, 1, [ro 31 0 0]⟩,  -- MIR_FAIL_CNT
  ⟨0x2AC, 0, 1, [ro 31 0 0]⟩,  -- POISON_SEQ_CNT
  ⟨0x400, 8, 64, [rw 31 31 .d 0 [], rw 30 30 .d 0 [], rw 29 29 .d 1 [], rw 23 22 .d 0 [], rw 21 20 .d 0 [], rw 15 8 .d 0 [], rw 7 0 .d 1 [(0, 0)]]⟩,  -- CTX_CFGk.EN CTX_CFGk.LC_OK CTX_CFGk.XCLASS CTX_CFGk.PORT CTX_CFGk.PAIR CTX_CFGk.MIN_SHARE CTX_CFGk.WEIGHT
  ⟨0x404, 8, 64, [ro 31 28 0, ro 14 0 0]⟩  -- CTX_STATk.STATE CTX_STATk.LIVE
]

/-- Block registers of a TWR page. -/
def regsTwr : List RegDef := [
  ⟨0x080, 0, 1, [rw 15 8 .s 0 [(129, 255)], rw 2 0 .s 0 [(5, 7)]]⟩,  -- MEMMAP.BENCH_GIB MEMMAP.GRAN
  ⟨0x084, 0, 1, [ro 31 24 16, ro 23 16 32, ro 15 8 64, ro 7 0 15]⟩,  -- MEMGEO.DECKS MEMGEO.CHANNELS MEMGEO.BANKS_PER_CH MEMGEO.ROWS_LOG2
  ⟨0x088, 0, 1, [rw 12 8 .l 8 [(0, 0), (17, 31)], rw 4 0 .l 16 [(0, 0), (17, 31)]]⟩,  -- BENCH_WIN.ACT_WIN BENCH_WIN.MAX_BANKS
  ⟨0x0A0, 0, 1, [rw 26 16 .l 64 [(0, 15), (1025, 2047)], rw 1 1 .l 1 [], rw 0 0 .s 0 []]⟩,  -- KV_CFG.SEL_PAGES KV_CFG.DIGEST_EN KV_CFG.ISOLATE
  ⟨0x0A4, 0, 1, [rw 31 12 .s 0 []]⟩,  -- LDG_BASE.BASE_LO
  ⟨0x0A8, 0, 1, [rw 15 0 .s 0 []]⟩,  -- LDG_BASE.BASE_HI
  ⟨0x0AC, 0, 1, [rw 31 12 .s 0 []]⟩,  -- FRM_BASE.BASE_LO
  ⟨0x0B0, 0, 1, [rw 15 0 .s 0 []]⟩,  -- FRM_BASE.BASE_HI
  ⟨0x0B4, 0, 1, [rw 14 0 .s 0 [(16385, 32767)]]⟩,  -- LDG_CFG.SEQ_RECS
  ⟨0x0B8, 0, 1, [ro 22 0 0]⟩,  -- KV_STAT.CLEAN
  ⟨0x0BC, 0, 1, [ro 22 0 0]⟩,  -- KV_DIRTY.DIRTY
  ⟨0x0C0, 0, 1, [ro 31 0 0]⟩,  -- KV_SCRUB_CNT
  ⟨0x0C4, 0, 1, [ro 31 0 0]⟩,  -- KV_STALE_CNT
  ⟨0x0C8, 0, 1, [ro 31 0 0]⟩,  -- KV_DIGEST_CNT
  ⟨0x0CC, 0, 1, [ro 31 0 0]⟩,  -- KV_SUMMARY_CNT
  ⟨0x0E0, 0, 1, [rw 31 6 .s 0 []]⟩,  -- SCT_BASE.BASE_LO
  ⟨0x0E4, 0, 1, [rw 15 0 .s 0 []]⟩  -- SCT_BASE.BASE_HI
]

/-- Block registers of a THM page. -/
def regsThm : List RegDef := [
  ⟨0x080, 0, 1, [ro 31 20 0, ro 19 16 0, ro 15 4 0]⟩,  -- TEMP.TBASE TEMP.HOT_DECK TEMP.TDECK
  ⟨0x084, 0, 1, [ro 31 16 0, ro 15 13 0, ro 12 10 0, ro 9 7 0, ro 6 6 0, ro 5 3 7]⟩,  -- STAT.CKA_MHZ STAT.OP STAT.STRETCH STAT.DSTEP STAT.CLIPPING STAT.CEIL
  ⟨0x088, 0, 1, [ro 15 0 0]⟩,  -- GRANT
  ⟨0x08C, 0, 1, [ro 31 16 0, ro 15 0 0]⟩,  -- POWER.DEMAND POWER.MEASURED
  ⟨0x0A0, 0, 1, [ro 31 0 0]⟩,  -- CLIP_CNT
  ⟨0x0A4, 0, 1, [ro 31 0 0]⟩,  -- STRETCH_US
  ⟨0x0A8, 0, 1, [ro 31 0 0]⟩,  -- TEXT_US
  ⟨0x0AC, 0, 1, [ro 31 0 0]⟩  -- BNWAIT_US
]

/-- Block registers of a BSQ page. -/
def regsBsq : List RegDef := [
  ⟨0x080, 0, 1, [rw 15 8 .l 64 [(0, 0)], rw 0 0 .l 1 []]⟩,  -- CFG.PROG_MAX CFG.CHAIN_EN
  ⟨0x084, 0, 1, [ro 23 16 0, ro 8 8 0, ro 7 0 0]⟩,  -- PROG.CMDS PROG.OPEN PROG.CTX
  ⟨0x0A0, 0, 1, [ro 31 0 0]⟩,  -- CMD_CNT
  ⟨0x0A4, 0, 1, [ro 31 0 0]⟩,  -- POSTPONE_CNT
  ⟨0x0A8, 0, 1, [ro 31 0 0]⟩,  -- PAUSE_CNT
  ⟨0x0AC, 0, 1, [ro 31 0 0]⟩,  -- CHAIN_BREAK_CNT
  ⟨0x0B0, 0, 1, [ro 31 0 0]⟩,  -- CE_CNT
  ⟨0x0B4, 0, 1, [ro 31 0 0]⟩,  -- UE_CNT
  ⟨0x0B8, 0, 1, [ro 31 0 0]⟩,  -- POISON_OUT_CNT
  ⟨0x0BC, 0, 1, [ro 31 0 0]⟩,  -- SAT_CNT
  ⟨0x0C0, 0, 1, [ro 31 0 0]⟩  -- BUSY_US
]

/-- Block registers of a PKR page. -/
def regsPkr : List RegDef := [
  ⟨0x080, 0, 1, [rw 31 24 .l 20 [(0, 0)], rw 23 16 .l 64 [(0, 0)], rw 1 1 .l 1 [], rw 0 0 .l 1 []]⟩,  -- CFG.MAX_US CFG.TEPOCH CFG.AUTO CFG.ENT_EN
  ⟨0x084, 0, 1, [rw 31 10 .s 0 []]⟩,  -- HIST_BASE.BASE_LO
  ⟨0x088, 0, 1, [rw 15 0 .s 0 []]⟩,  -- HIST_BASE.BASE_HI
  ⟨0x08C, 0, 1, [rw 31 9 .s 0 []]⟩,  -- TAB_BASE.BASE_LO
  ⟨0x090, 0, 1, [rw 15 0 .s 0 []]⟩,  -- TAB_BASE.BASE_HI
  ⟨0x094, 0, 1, [wo 31 31 .d [], rw 7 0 .d 0 []]⟩,  -- TAB_CMD.LOAD TAB_CMD.TID
  ⟨0x0A0, 0, 1, [ro 31 0 0]⟩,  -- PACK_CNT
  ⟨0x0A4, 0, 1, [ro 31 0 0]⟩,  -- ENT_CNT
  ⟨0x0A8, 0, 1, [ro 31 0 0]⟩,  -- RAW_CNT
  ⟨0x0AC, 0, 1, [ro 31 0 0]⟩,  -- ZERO_CNT
  ⟨0x0B0, 0, 1, [ro 31 0 0]⟩,  -- VQ_CNT
  ⟨0x0B4, 0, 1, [ro 31 0 0]⟩,  -- RAW_FALLBACK_CNT
  ⟨0x0B8, 0, 1, [ro 31 0 0]⟩,  -- DAMAGED_CNT
  ⟨0x0BC, 0, 1, [ro 31 0 0]⟩,  -- STALE_CNT
  ⟨0x0C0, 0, 1, [ro 31 0 0]⟩,  -- UNP_STALL_CNT
  ⟨0x0C4, 0, 1, [ro 31 0 0]⟩,  -- TBUILD_CNT
  ⟨0x0C8, 0, 1, [ro 31 0 0]⟩,  -- GRAN_OUT
  ⟨0x0CC, 0, 1, [ro 31 0 0]⟩  -- GRAN_RAW
]

/-- Block registers of a HWP page. -/
def regsHwp : List RegDef := [
]

/-- Block registers of a MEM page. -/
def regsMem : List RegDef := [
  ⟨0x080, 0, 1, [rw 28 24 .l 12 [(0, 7)], rw 19 16 .l 10 [], rw 11 10 .d 1 [], rw 9 9 .l 1 [], rw 8 8 .l 1 [], rw 5 4 .l 3 [], rw 0 0 .s 1 []]⟩,  -- CFG.CE_LOG2 CFG.RETRAIN_DT CFG.MIG_SHARE CFG.PATROL_EN CFG.AUTO_REPAIR CFG.PATROL_PER CFG.WCB_EN
  ⟨0x084, 0, 1, [rw 23 16 .l 10 [(0, 0)], rw 15 8 .l 16 [(0, 0), (65, 255)], rw 1 0 .l 1 [(3, 3)]]⟩,  -- ARB.YIELD ARB.RUN ARB.NARROW
  ⟨0x090, 0, 1, [ro 31 28 0, ro 27 16 0, ro 15 0 0]⟩,  -- TEMP.HOT_DECK TEMP.TMAX TEMP.HOTREF_MASK
  ⟨0x094, 0, 1, [wo 31 31 .d [], ro 23 16 0, ro 15 0 0]⟩,  -- TRAIN.REQ TRAIN.LAST_TEMP TRAIN.COUNT
  ⟨0x098, 0, 1, [wo 31 30 .d [(3, 3)], ro 23 16 0, ro 15 8 0, ro 3 0 0]⟩,  -- CH_REPAIR.CMD CH_REPAIR.LOGICAL CH_REPAIR.PROGRESS CH_REPAIR.STATE
  ⟨0x0A0, 0, 1, [ro 31 0 0]⟩,  -- CE_CNT
  ⟨0x0A4, 0, 1, [ro 31 0 0]⟩,  -- UE_CNT
  ⟨0x0A8, 0, 1, [ro 31 0 0]⟩,  -- POISON_CNT
  ⟨0x0AC, 0, 1, [ro 31 0 0]⟩,  -- PAR_RETRY_CNT
  ⟨0x0B0, 0, 1, [ro 31 0 0]⟩,  -- RMW_CNT
  ⟨0x0B4, 0, 1, [ro 31 0 0]⟩,  -- ATOM_SAT_CNT
  ⟨0x0B8, 0, 1, [ro 31 0 0]⟩,  -- WCB_TIMEOUT_CNT
  ⟨0x0BC, 0, 1, [ro 31 0 0]⟩,  -- IDLE_SLOT_CNT
  ⟨0x100, 0, 1, [wo 31 31 .d [], wo 30 30 .d [], rw 29 28 .d 0 [(3, 3)], rw 27 26 .d 0 [(3, 3)], rw 25 24 .d 0 [], rw 23 20 .d 0 [], rw 19 18 .d 0 [], ro 1 1 0, ro 0 0 0]⟩,  -- TG_CTL.GO TG_CTL.STOP TG_CTL.OP TG_CTL.ADDR TG_CTL.DATA TG_CTL.DECK TG_CTL.BANK TG_CTL.DONE TG_CTL.BUSY
  ⟨0x104, 0, 1, [rw 31 0 .d 1 [(0, 0)]]⟩,  -- TG_SEED
  ⟨0x108, 0, 1, [rw 31 0 .d 0 []]⟩,  -- TG_LEN
  ⟨0x10C, 0, 1, [ro 31 0 0]⟩,  -- TG_ERR
  ⟨0x110, 0, 1, [ro 31 0 0]⟩,  -- TG_FIRST
  ⟨0x114, 0, 1, [ro 31 0 0]⟩  -- TG_CYC
]

/-- Block registers of a AIS page. -/
def regsAis : List RegDef := [
  ⟨0x100, 0, 1, [rw 23 16 .l 100 [(0, 0)], rw 0 0 .l 1 []]⟩,  -- MX_CFG.MAX_US MX_CFG.ZSKIP_EN
  ⟨0x104, 0, 1, [ro 15 0 0]⟩,  -- MX_STAT.BUSY
  ⟨0x110, 0, 1, [ro 31 0 0]⟩,  -- MX_CMD_CNT
  ⟨0x114, 0, 1, [ro 31 0 0]⟩,  -- MX_SAT_CNT
  ⟨0x118, 0, 1, [ro 31 0 0]⟩,  -- MX_POISON_CNT
  ⟨0x11C, 0, 1, [ro 31 0 0]⟩,  -- MX_WWAIT_CNT
  ⟨0x120, 0, 1, [ro 31 0 0]⟩,  -- MX_ZSKIP_CNT
  ⟨0x140, 4, 16, [ro 15 0 0]⟩,  -- TSATi.SAT
  ⟨0x200, 0, 1, [rw 23 16 .l 20 [(0, 0)]]⟩,  -- VX_CFG.MAX_US
  ⟨0x204, 0, 1, [ro 15 0 0]⟩,  -- VX_STAT.BUSY
  ⟨0x210, 0, 1, [ro 31 0 0]⟩,  -- VX_CMD_CNT
  ⟨0x214, 0, 1, [ro 31 0 0]⟩,  -- VX_SAT_CNT
  ⟨0x218, 0, 1, [ro 31 0 0]⟩,  -- VX_POISON_CNT
  ⟨0x21C, 0, 1, [ro 31 0 0]⟩,  -- VX_SAMPLE_CNT
  ⟨0x300, 4, 16, [ro 23 16 255, ro 7 6 0, ro 5 4 0, ro 3 2 0, ro 1 0 0]⟩  -- QSTATi.SLOT QSTATi.SY QSTATi.MV QSTATi.VX QSTATi.MX
]

/-- Block registers of a GTE page. -/
def regsGte : List RegDef := [
  ⟨0x080, 0, 1, [ro 31 20 0]⟩,  -- TEMP.TJ
  ⟨0x084, 0, 1, [ro 3 0 0]⟩,  -- CLERKS
  ⟨0x0A0, 0, 1, [ro 31 0 0]⟩,  -- CE_CNT
  ⟨0x0A4, 0, 1, [ro 31 0 0]⟩  -- HOT_US
]

/-- Block registers of a WGH page. -/
def regsWgh : List RegDef := [
  ⟨0x080, 0, 1, [rw 15 0 .d 3600 [(0, 2399), (3601, 65535)]]⟩,  -- LIMIT.MODULE_W
  ⟨0x084, 0, 1, [ro 31 16 0, ro 15 0 0]⟩,  -- STAT.POWER_W STAT.GRANTED_W
  ⟨0x088, 0, 1, [ro 31 16 0, ro 15 0 0]⟩,  -- INPUT.VMAIN INPUT.IMAIN
  ⟨0x090, 0, 1, [rw 7 0 .d 92 [(0, 69), (95, 255)]]⟩,  -- TCFG.SOFT_C
  ⟨0x0A0, 4, 4, [rw 31 24 .d 16 [(0, 0)], rw 20 16 .s 16 [(0, 0), (17, 31)], rw 10 8 .d 7 [], rw 2 0 .s 0 []]⟩,  -- STLs.SHARE STLs.FLOOR_BANKS STLs.CEIL_OP STLs.FLOOR_OP
  ⟨0x0C0, 4, 8, [ro 31 20 0, ro 19 10 0, ro 9 0 0]⟩,  -- OPk.FREQ_MHZ OPk.VOLT_MV OPk.PCORE
  ⟨0x100, 0, 1, [ro 31 0 0]⟩,  -- CLIP_CNT
  ⟨0x104, 0, 1, [ro 31 0 0]⟩,  -- SHORT_CNT
  ⟨0x108, 0, 1, [ro 31 0 0]⟩  -- RPT_MISS_CNT
]

/-- Block registers of a RSC page. -/
def regsRsc : List RegDef := [
  ⟨0x080, 0, 1, [ro 20 16 0, ro 15 12 0, ro 7 0 1]⟩,  -- LAST.TOWER LAST.CRIT LAST.CAUSE
  ⟨0x084, 0, 1, [wo 31 31 .d [], ro 13 12 0, ro 8 8 0, ro 3 0 0]⟩,  -- BOOT.RETRY BOOT.RECOV_WHY BOOT.SLOT BOOT.CONSEC_FAIL
  ⟨0x088, 0, 1, [rw 31 24 .d 20 [(0, 4)], rw 23 16 .d 10 [(0, 0)], rw 15 0 .d 100 [(1, 9)]]⟩,  -- CFG.START_TMO CFG.CONFIRM_S CFG.WDT_MS
  ⟨0x090, 0, 1, [ro 31 0 0]⟩,  -- LAST_TIME.TIME_LO
  ⟨0x094, 0, 1, [ro 31 0 0]⟩,  -- LAST_TIME.TIME_HI
  ⟨0x108, 4, 9, [ro 31 0 0]⟩,  -- SRC_CNTk
  ⟨0x12C, 0, 1, [ro 31 0 0]⟩,  -- FAILSTART_CNT
  ⟨0x130, 0, 1, [ro 31 0 0]⟩,  -- SHORT_CNT
  ⟨0x134, 0, 1, [ro 31 0 0]⟩,  -- GLITCH_CNT
  ⟨0x140, 16, 4, [ro 31 0 0]⟩,  -- PERST_CNTp
  ⟨0x144, 16, 4, [ro 31 0 0]⟩,  -- HOTRST_CNTp
  ⟨0x148, 16, 4, [ro 31 0 0]⟩,  -- LINKDN_CNTp
  ⟨0x14C, 16, 4, [ro 31 0 0]⟩  -- FLR_CNTp
]

/-- Block registers of a SEC page. -/
def regsSec : List RegDef := [
  ⟨0x080, 16, 4, [rw 31 4 .s 0 []]⟩,  -- KRT_BASEs.BASE_LO
  ⟨0x084, 16, 4, [rw 15 0 .s 0 []]⟩,  -- KRT_BASEs.BASE_HI
  ⟨0x088, 16, 4, [rw 8 0 .s 0 [(257, 511)]]⟩,  -- KRT_CFGs.COUNT
  ⟨0x08C, 16, 4, [wo 31 31 .s [], wo 30 30 .s [], ro 1 0 0]⟩,  -- MODEL_CFGs.NEWKEY MODEL_CFGs.IMPORT MODEL_CFGs.SRC
  ⟨0x0C0, 4, 16, [wo 31 0 .d []]⟩,  -- KIMPORTi
  ⟨0x104, 4, 4, [ro 6 0 0]⟩,  -- ARB_CTRt.CTR
  ⟨0x120, 0, 1, [wo 31 31 .d [], rw 2 0 .d 0 []]⟩,  -- ARB_CMD.COMMIT ARB_CMD.TYPE
  ⟨0x124, 0, 1, [wo 31 31 .d [], rw 9 8 .d 0 [], ro 3 0 0]⟩,  -- KEYREV.REVOKE KEYREV.IDX KEYREV.REVOKED
  ⟨0x128, 0, 1, [ro 19 16 0, ro 8 0 0]⟩,  -- KEYSTAT.MODEL KEYSTAT.CTX
  ⟨0x140, 0, 1, [ro 31 0 0]⟩,  -- KRT_DENY_CNT
  ⟨0x144, 0, 1, [ro 31 0 0]⟩,  -- XTS_RMW_CNT
  ⟨0x148, 0, 1, [ro 31 0 0]⟩,  -- KEY_ERASE_CNT
  ⟨0x14C, 0, 1, [ro 31 0 0]⟩,  -- SIGN_CNT
  ⟨0x150, 0, 1, [ro 31 0 0]⟩  -- IMG_REJ_CNT
]

/-- Block registers of a MGT page. -/
def regsMgt : List RegDef := [
  ⟨0x080, 0, 1, [rw 0 0 .d 1 []]⟩,  -- CFG.SEC_WR
  ⟨0x084, 0, 1, [rw 7 4 .s 0 [(0, 0), (8, 15)], rw 1 0 .s 0 [(3, 3)]]⟩,  -- PORTCFG.MAX_RATE PORTCFG.BIF
  ⟨0x088, 0, 1, [ro 22 16 0, ro 14 8 0]⟩,  -- ADDR.STATIC ADDR.DYN
  ⟨0x08C, 0, 1, [ro 31 31 0, ro 22 16 0, ro 15 8 0, ro 7 0 0]⟩,  -- EID.SET EID.OWNER_ADDR EID.OWNER_EID EID.EID
  ⟨0x0C0, 4, 8, [rw 31 31 .d 0 [], rw 7 0 .d 0 []]⟩,  -- ALLOWi.EN ALLOWi.EID
  ⟨0x100, 0, 1, [ro 31 0 0]⟩,  -- ARB_LOSS_CNT
  ⟨0x104, 0, 1, [ro 31 0 0]⟩,  -- RETRY_DROP_CNT
  ⟨0x108, 0, 1, [ro 31 0 0]⟩,  -- PAR_ERR_CNT
  ⟨0x10C, 0, 1, [ro 31 0 0]⟩,  -- PEC_ERR_CNT
  ⟨0x110, 0, 1, [ro 31 0 0]⟩,  -- BUS_TMO_CNT
  ⟨0x114, 0, 1, [ro 31 0 0]⟩,  -- REASM_DROP_CNT
  ⟨0x118, 0, 1, [ro 31 0 0]⟩,  -- UNK_EID_CNT
  ⟨0x11C, 0, 1, [ro 31 0 0]⟩,  -- UNK_MSG_CNT
  ⟨0x120, 0, 1, [ro 31 0 0]⟩,  -- RATE_DROP_CNT
  ⟨0x124, 0, 1, [ro 31 0 0]⟩  -- REG_DENY_CNT
]

/-- Block registers of a FLS page. -/
def regsFls : List RegDef := [
  ⟨0x080, 0, 1, [ro 5 5 0, ro 4 4 0, ro 0 0 0]⟩,  -- REC.VALID1 REC.VALID0 REC.BANK
  ⟨0x084, 0, 1, [ro 31 0 0]⟩,  -- REC_SEQ
  ⟨0x088, 0, 1, [wo 31 31 .d [], ro 8 8 0, ro 5 5 0, ro 4 4 0, ro 0 0 0]⟩,  -- SLOT.SWAP SLOT.ACTIVE SLOT.VALID_B SLOT.VALID_A SLOT.PREF
  ⟨0x090, 0, 1, [wo 31 28 .d [(5, 15)], rw 16 0 .d 0 []]⟩,  -- LOAD_CMD.OP LOAD_CMD.LEN
  ⟨0x094, 0, 1, [ro 31 30 0, ro 23 20 0, ro 3 0 0]⟩  -- LOAD_STAT.OWNER LOAD_STAT.TYPES LOAD_STAT.STATE
]

/-- Block registers of a TLY page. -/
def regsTly : List RegDef := [
  ⟨0x080, 0, 1, [ro 31 24 0, ro 23 16 0, ro 15 0 0]⟩,  -- FWVER.MAJOR FWVER.MINOR FWVER.BUILD
  ⟨0x084, 0, 1, [ro 7 0 0]⟩,  -- CLERKS
  ⟨0x088, 0, 1, [ro 31 0 0]⟩  -- HEARTBEAT
]

/-- Block registers of a PRT page. -/
def regsPrt : List RegDef := [
  ⟨0x080, 8, 8, [rw 1 1 .d 0 [], rw 0 0 .d 0 []]⟩,  -- WIN_CTLw.WRITE WIN_CTLw.EN
  ⟨0x084, 8, 8, [rw 21 0 .d 0 []]⟩,  -- WIN_BASEw.BASE
  ⟨0x100, 16, 16, [rw 2 2 .d 0 [], rw 1 1 .d 0 [], rw 0 0 .d 0 []]⟩,  -- ACW_CTLa.WRITE ACW_CTLa.READ ACW_CTLa.EN
  ⟨0x104, 16, 16, [rw 31 0 .d 0 []]⟩,  -- ACW_BASEa.BASE
  ⟨0x108, 16, 16, [rw 31 0 .d 0 []]⟩,  -- ACW_LIMITa.LIMIT
  ⟨0x200, 64, 4, [rw 31 31 .d 0 [], ro 30 30 0, rw 29 28 .d 0 [], rw 27 24 .d 0 [(11, 15)], rw 23 20 .d 0 [(11, 15)], rw 19 12 .d 0 [(0, 3)], rw 11 11 .d 1 []]⟩,  -- RING_CTL.EN RING_CTL.FAULT RING_CTL.STALL RING_CTL.ISIZE RING_CTL.RSIZE RING_CTL.VEC RING_CTL.IMM
  ⟨0x204, 64, 4, [rw 31 0 .d 0 []]⟩,  -- IBASE_LO
  ⟨0x208, 64, 4, [rw 31 0 .d 0 []]⟩,  -- IBASE_HI
  ⟨0x20C, 64, 4, [rw 31 0 .d 0 []]⟩,  -- IPROD_LO
  ⟨0x210, 64, 4, [rw 31 0 .d 0 []]⟩,  -- IPROD_HI
  ⟨0x214, 64, 4, [rw 31 0 .d 0 []]⟩,  -- ICONS_LO
  ⟨0x218, 64, 4, [rw 31 0 .d 0 []]⟩,  -- ICONS_HI
  ⟨0x21C, 64, 4, [rw 31 0 .d 0 []]⟩,  -- RBASE_LO
  ⟨0x220, 64, 4, [rw 31 0 .d 0 []]⟩,  -- RBASE_HI
  ⟨0x224, 64, 4, [rw 31 0 .d 0 []]⟩,  -- RPROD_LO
  ⟨0x228, 64, 4, [rw 31 0 .d 0 []]⟩,  -- RPROD_HI
  ⟨0x22C, 64, 4, [rw 31 0 .d 0 []]⟩,  -- RCONS_LO
  ⟨0x230, 64, 4, [rw 31 0 .d 0 []]⟩,  -- RCONS_HI
  ⟨0x234, 64, 4, [rw 31 16 .d 20 [], rw 7 0 .d 32 [(0, 0)]]⟩,  -- MOD.MOD_US MOD.MOD_CNT
  ⟨0x238, 64, 4, [ro 31 0 0]⟩,  -- ICONS
  ⟨0x23C, 64, 4, [ro 31 0 0]⟩,  -- RPROD
  ⟨0x300, 0, 1, [rw 15 0 .d 2000 [(0, 99)]]⟩,  -- HOSTLAT.NS
  ⟨0x304, 0, 1, [rw 0 0 .d 0 []]⟩,  -- IRQ_CTL.DEV_EN
  ⟨0x310, 0, 1, [ro 31 0 0]⟩,  -- LAT_OVR_CNT
  ⟨0x314, 0, 1, [ro 31 0 0]⟩,  -- RES_OVF_CNT
  ⟨0x318, 0, 1, [ro 31 0 0]⟩,  -- RES_LOST_CNT
  ⟨0x31C, 0, 1, [ro 31 0 0]⟩,  -- IREC_CNT
  ⟨0x320, 0, 1, [ro 31 0 0]⟩,  -- IRQ_CNT
  ⟨0x400, 0, 1, [wo 31 31 .d [], wo 30 30 .d [], ro 3 2 0, rw 1 0 .d 0 []]⟩,  -- STALL_CLAIM.CLAIM STALL_CLAIM.RELEASE STALL_CLAIM.RESULT STALL_CLAIM.STALL
  ⟨0x500, 0, 1, [ro 31 28 0, ro 20 16 0, ro 2 2 0, ro 1 1 0, ro 0 0 0]⟩,  -- LINK_STAT.RATE LINK_STAT.WIDTH LINK_STAT.REVERSED LINK_STAT.FLIT LINK_STAT.UP
  ⟨0x510, 0, 1, [ro 31 0 0]⟩,  -- PERST_CNT
  ⟨0x514, 0, 1, [ro 31 0 0]⟩,  -- HOTRST_CNT
  ⟨0x518, 0, 1, [ro 31 0 0]⟩,  -- LINKDN_CNT
  ⟨0x51C, 0, 1, [ro 31 0 0]⟩,  -- FLR_CNT
  ⟨0x520, 0, 1, [ro 31 0 0]⟩  -- CPL_TMO_CNT
]

/-- The block registers of a page kind. -/
def PKind.regs : PKind → List RegDef
  | .dev => regsDev | .stl => regsStl | .twr => regsTwr | .thm => regsThm | .bsq => regsBsq | .pkr => regsPkr
  | .hwp => regsHwp | .mem => regsMem | .ais => regsAis | .gte => regsGte | .wgh => regsWgh | .rsc => regsRsc
  | .sec => regsSec | .mgt => regsMgt | .fls => regsFls | .tly => regsTly | .prt => regsPrt

/-- The common header, but for BLK_IEN, whose bits follow BLK_ERR, and for the fields that are computed (R48). -/
def regsHeader (k : PKind) : List RegDef := [
  ⟨0x000, 0, 1, [ro 31 0 0]⟩,  -- BLK_ID
  ⟨0x004, 0, 1, [ro 31 28 1, ro 23 16 1, ro 15 8 0]⟩,  -- BLK_VER
  ⟨0x008, 4, 2, [ro 31 0 0]⟩,  -- BLK_CAP0 BLK_CAP1
  ⟨0x010, 0, 1, [wo 1 1 .d [], rw 0 0 .d (if k = .mem then 1 else 0) []]⟩,  -- BLK_CTL.BRST EN
  ⟨0x014, 0, 1, [ro 31 0 0]⟩,  -- BLK_STAT
  ⟨0x018, 0, 1, [w1 31 16, w1 6 1]⟩,  -- BLK_ERR
  ⟨0x01C, 0, 1, [rw 31 16 .d 0 [], rw 6 1 .d 0 []]⟩,  -- BLK_IEN
  ⟨0x020, 0, 1, [wo 31 30 .d [], rw 23 16 .d 0 [], ro 15 8 0, ro 6 4 7, ro 3 0 0]⟩,  -- BLK_TXN
  ⟨0x024, 0, 1, [rw 31 0 .d 0 []]⟩  -- BLK_TXTAG
]

/-- Does the register definition cover a page offset? -/
def RegDef.covers (r : RegDef) (o : Nat) : Bool :=
  if r.n = 1 then o == r.off
  else decide (r.off ≤ o) && (o - r.off) % r.stride == 0 && decide ((o - r.off) / r.stride < r.n)

/-- The index of the register of the array that a page offset names. -/
def RegDef.index (r : RegDef) (o : Nat) : Nat := if r.n = 1 then 0 else (o - r.off) / r.stride

/-- The register at a page offset; none where the offset is reserved (R6). -/
def PKind.regAt (k : PKind) (o : Nat) : Option RegDef :=
  if o < 0x80 then (regsHeader k).find? (fun r => r.covers o) else k.regs.find? (fun r => r.covers o)

/-- The value the fields' reset values make. -/
def Field.resetBits (f : Field) : Nat := f.rst * 2 ^ f.lo

/-- R8: the reset value of a register of the tables. -/
def RegDef.reset (r : RegDef) : Word := BitVec.ofNat 32 (sumL (r.fields.map Field.resetBits))

end Sys2Proof.Machine
end

