-- ==== Sys2Proof/Machine/State.lean ====
section
/-! DEFINITION. The state of the YM32 as plain data: registers, error rings, transactions, tower memory and SRAM,
channel queues, bench sequencers, cores, ledger and sessions, rings, ports, the management target, the root of
trust, reset and boot, power, and the queue of waiting commands. -/

namespace Sys2Proof.Machine

/-! ### Registers, error rings, transactions (02, 03, 17) -/

/-- An error record of R421. -/
structure ErrRec where
  code : Nat
  sev : Nat
  ctx : Option Nat
  stall : Option Nat
  blkid : Nat
  time : Nat
  addr : Nat
  repeats : Nat
  info : Nat
deriving DecidableEq, Repr

/-- The error ring of a page: PROD and the newest records, newest first, at most 64 (R421, R425). -/
structure ErrRing where
  prod : Nat
  recs : List ErrRec
deriving DecidableEq, Repr

/-- A write held in a shadow copy: the BAR0 address, the bits it takes and their value (R5). -/
structure Held where
  addr : Nat
  mask : Nat
  val : Nat
deriving DecidableEq, Repr

/-- A page transaction: BLK_TXN.STATE 0 IDLE to 5 FAILED, the opener, the group and the staged writes as
page offset and value, oldest first (R52 to R56). -/
structure Txn where
  st : Nat
  src : Option Src
  group : Nat
  staged : List (Nat × Word)
deriving DecidableEq, Repr

/-- A device transaction group: DEV.TXG_STAT code, owner (7 none), member pages in the order they joined, the time of the
first hold, and the time at which it ended (R57 to R59). -/
structure Grp where
  st : Nat
  owner : Nat
  members : List Nat
  since : Option Nat
  endAt : Nat
deriving DecidableEq, Repr

/-- The register fabric. -/
structure RegSt where
  /-- registers that differ from their reset value, by BAR0 address -/
  regs : List (Nat × Word)
  /-- error rings by page number -/
  rings : List (Nat × ErrRing)
  /-- latched writes in arrival order (R51) -/
  latched : List Held
  /-- S-class writes of pages that always run, held to their safe point (R54, R391, R454, R376) -/
  heldS : List Held
  /-- page transactions by page number -/
  txns : List (Nat × Txn)
  /-- pages whose COMMIT arrived, in order (R51) -/
  commits : List Nat
  /-- groups 1 to 16 -/
  groups : List (Nat × Grp)
  /-- per-source copies: source × 16 + k; k = 0 IFVER_REQ, 1 IFVER_ACK, 2 TIME_HI, 3 ERR_SEL, 4 ERR_PROD, 5 to 12
  ERR_DATA0 to 7 (R60, R63, R425) -/
  copies : List (Nat × Word)
  /-- held PRT.WIN_BASE, ACW_BASE and ACW_LIMIT writes (R34, R36) -/
  heldWin : List (Nat × Option Word)
  /-- pages in a block-level reset (R407) -/
  brst : List Nat
  /-- the MSI-X tables of BAR4: vectors that are unmasked, those whose pending bit is set, as port × 256 + vector, and the
  address and data of each entry (R31, R296) -/
  vecOpen : List Nat
  vecPend : List Nat
  msix : List (Nat × (Nat × Word))
deriving DecidableEq, Repr

/-! ### Memory channels (04) -/

/-- What the controller tracks of one bank: the open row, the cycles of the last activate, precharge, read, last
write beat and refresh, refreshes owed (P of R120), and whether a bench command engages it. -/
structure BankSt where
  row : Option Nat
  act : Nat
  pre : Nat
  rd : Nat
  wr : Nat
  ref : Nat
  owed : Nat
  due : Bool
  bench : Bool
deriving DecidableEq, Repr

/-- The kinds of queued request (R67). -/
inductive ReqKind where
  | read | write | narrow | atomic
deriving DecidableEq, Repr

/-- A request that a channel controller has received: the device address of its line or unit, its length in bytes, the
bytes of a write by offset, whether its units carry poison, its arrival cycle, its tag (of a write the poisoned units, a
bit each), its number in the order of arrival (R70), the attempts that failed their parity check (R85), whether the read of
its read-modify-write was issued, and the add of an atomic. -/
structure Req where
  kind : ReqKind
  da : Nat
  len : Nat
  data : List (Nat × Byte)
  poison : Bool
  at_ : Nat
  tag : Nat
  no : Nat
  tries : Nat
  rd : Bool
  add : Option (AddFmt × BitVec 256 × BitVec 16)
deriving DecidableEq, Repr

/-- A write-combining entry: its line, the bytes present, the units written poisoned, and the cycle of its first
write (R75). -/
structure Wcb where
  line : Nat
  data : List (Nat × Byte)
  poison : List Nat
  at_ : Nat
deriving DecidableEq, Repr

/-- An atomic-queue entry: unit, format, the adds in arrival order, the cycle of the last (R79), its number in the order of
arrival, whether it is to be written back, and its write-back's failed attempts and issued read, as of a request. -/
structure AtomE where
  da : Nat
  af : AddFmt
  adds : List (BitVec 256 × BitVec 16)
  at_ : Nat
  no : Nat
  due : Bool
  tries : Nat
  rd : Bool
deriving DecidableEq, Repr

/-- One channel controller: its cycle count, the number of the next request to arrive, the queues of R67, and the requests
whose queue was full when they came, in order of arrival. -/
structure Chn where
  now : Nat
  seq : Nat
  rq : List Req
  wq : List Req
  nq : List Req
  wait : List Req
  wcb : List Wcb
  aq : List AtomE
  banks : List (Nat × BankSt)
  dirW : Bool
  runCnt : Nat
  slots : List Nat
  lastRd : Nat
  lastWr : Nat
  flight : List Req
  /-- parity: failed attempts of a refresh, times of retries and forced retrains (R84, R85, R90), ns -/
  attempts : Nat
  retries : List Nat
  forcedAt : List Nat
  /-- times of the corrected symbols of the last second, ns, newest first (R90) -/
  ceAt : List Nat
  /-- retrain: scheduled, forced pending, in progress (attempt number), the state to return to (R86 to R89) -/
  sched : Bool
  forced : Bool
  attempt : Nat
  wasForced : Bool
  back : Nat
  slices : Nat
  /-- idle slots of R96 not yet counted in units of 1,024 -/
  idle : Nat
  /-- traffic generator run: stop requested (R95) -/
  tgStop : Bool
  /-- device time of the patrol scrubber's last read (R83) -/
  patrolAt : Nat
deriving DecidableEq, Repr

/-- The repair of a channel into the spare: logical channel, old controller, rows copied, the dirty log as
bank × 32768 + row (R90 to R94). -/
structure Repair where
  logical : Nat
  old : Nat
  rows : Nat
  dirty : List Nat
  /-- rows of the bench region still to be copied again after the log overflowed -/
  redo : Nat
  ready : Bool
  /-- the old channel's cycle from which its share permits the next row (R91) -/
  next : Nat
deriving DecidableEq, Repr

/-- A unit in mirror substitution or repair (R428, R429): the bad unit, its copy, the stall, whether the mirror read
is still out, whether the repair was cancelled by a write, and whether its write-back is done. -/
structure MirRep where
  bad : Nat
  copy : Nat
  stall : Nat
  reading : Bool
  cancelled : Bool
deriving DecidableEq, Repr

/-! ### The bench (05) -/

/-- One Stethar unit: 8 registers of 16 lanes, a poison bit per lane of a register, 4 masks with a poison bit per
lane, and the rope latch, all zero after clearing. Keyed lane by lane in sparse maps. -/
structure UnitSt where
  /-- register lane r × 16 + l -/
  v : List (Nat × Word)
  /-- poisoned lanes r × 16 + l -/
  vp : List Nat
  /-- masks: lane bits of mask k, all ones where not listed (R103) -/
  m : List (Nat × BitVec 16)
  mp : List (Nat × BitVec 16)
  /-- the rope latch, lane by lane -/
  rope : List (Nat × Word)
deriving DecidableEq, Repr

/-- A set-list entry of R105: channel group and row, and the decks of its set. -/
structure SetE where
  cg : Nat
  row : Nat
  decks : Nat
deriving DecidableEq, Repr

/-- The bench sequencer of a tower. -/
structure Bench where
  open_ : Bool
  ctx : Nat
  slot : Nat
  cmds : Nat
  /-- the set table: the sets loaded in this program, by index -/
  sets : List (Nat × List SetE)
  /-- the broadcast buffer: vectors of 32 B and which are poisoned -/
  bcast : List (Nat × Byte)
  bcastP : List Nat
  /-- the RUN in progress, the set it engages, and whether its rows stay open for it (R121) -/
  run : Option Desc
  rows : List SetE
  /-- iteration number of the loop -/
  iter : Nat
  /-- units: key (channel group × 16 + deck) × 16 + segment -/
  units : List (Nat × UnitSt)
  /-- rows written since they were opened, as (controller × 64 + b) × 32768 + row -/
  written : List Nat
  /-- units that SEG reads corrected or found uncorrectable, with the codeword that the close phase writes back (R124) -/
  fix : List (Nat × List Byte)
  /-- the CK_M cycle, plus 1, of the last bench activate (R107) -/
  actAt : Nat
  /-- OUT records sent in the program's current RUN -/
  outN : Nat
  /-- a RUN waits for EFF_BANKS since; the descriptor at the head has been counted in the program -/
  wait : Option Nat
  taken : Bool
  paused : Bool
  /-- owner slots whose descriptors are discarded up to their next END (R113) -/
  discard : List Nat
  /-- nanoseconds of BUSY_US not yet counted -/
  busy : Nat
deriving DecidableEq, Repr

/-! ### Cores (08, 09, 10, 11) -/

/-- A queue's state: 0 IDLE, 1 RUN, 2 WAIT, 3 STOPPED; the list's address, the number of its descriptors, the index
of the next descriptor, the descriptor at the head that began, its place among the waiters, whether it stands at a
switch point (R268 to R270), and go: of a WAIT queue that an SY WAIT waits rather than word 0, of a RUN queue that its
word-0 wait has been granted and its effect is still to come (R267, R277). -/
structure QSt where
  st : Nat
  list : Nat
  n : Nat
  idx : Nat
  cur : Option Desc
  since : Nat
  atSwitch : Bool
  go : Bool
  /-- device time at which the descriptor in hand began to wait or to execute, ns -/
  at_ : Nat
  /-- the descriptors of the list, as the launch of its submission read them (assumption log 131) -/
  descs : List Desc
  /-- the cause by R303 of a failure that waits for the end of the command in execution (R282, R288) -/
  bad : Option Nat
deriving DecidableEq, Repr

/-- One core: 16 tiles of 16 × 64 elements (tile × 1024 + row × 64 + column), their tags, the poison of elements, SAT
flags and per-row scales; masks; the queue states. -/
structure CoreSt where
  tile : List (Nat × Word)
  tileP : List Nat
  /-- tile tags: format and shape as the matrix and vector chapters give them, by tile -/
  tag : List (Nat × Nat)
  /-- per-row exponent and scale words of a tile: tile × 16 + row -/
  rowE : List (Nat × Nat)
  sat : BitVec 16
  /-- vector masks by mask × 16 + row: 64 lane bits; all ones at reset -/
  mask : List (Nat × BitVec 64)
  maskP : List (Nat × BitVec 64)
  q : List (Nat × QSt)
deriving DecidableEq, Repr

/-- A submission on a resource: owner slot, context, class, expert bundle entries outstanding. -/
structure Sub where
  stall : Nat
  slot : Nat
  ctx : Nat
  be : Bool
  expert : Bool
  /-- ring pair and USER for the DONE, expert only -/
  pair : Nat
  user : Nat
  /-- its lists by queue key, in bundle order, as the aisle last saved them (R270) -/
  lists : List (Nat × QSt)
  left : Nat
  exec : Nat
  failed : Option (Nat × Nat × Nat × Nat)
  start : Nat
  started : Bool
deriving DecidableEq, Repr

/-- A resource of R312: the submission served (its number), since when it serves, whether its slice has ended, service
in this step and charges by owner slot, ns. -/
structure AisleSt where
  cur : Option Nat
  since : Nat
  expired : Bool
  service : List (Nat × Nat)
  charge : List (Nat × Nat)
  /-- the owner slot of the LC submission that it served last in this step (R312) -/
  last : Option Nat
deriving DecidableEq, Repr

/-! ### Towers -/

/-- A coding table in use in a tower (R243, R251, R252): its TID, TGEN, whether the current and the previous tables are
valid, and their 128 B of code lengths. -/
structure Tab where
  tid : Nat
  gen : Nat
  curV : Bool
  prevV : Bool
  cur : List Byte
  prev : List Byte
deriving DecidableEq, Repr

/-- What a tower holds beside its registers and channels. -/
structure Tw where
  oos : Bool
  /-- the tower leaves service at the next step boundary of its stall (R93) -/
  oosDue : Bool
  /-- deck temperatures: half degrees plus 1, 0 where no report has come (R96) -/
  temp : List (Nat × Nat)
  /-- decks in hot refresh, a bit each (R71); the throttle step (R96); the stretch step of the base die (R450) -/
  hotref : Nat
  dstep : Nat
  stretch : Nat
  repair : Option Repair
  mir : List MirRep
  bench : Bench
  /-- the BN queue (R268) -/
  bnq : QSt
  /-- semaphores slot × 32 + index (R273) -/
  sem : List (Nat × Nat)
  /-- the frame table as the Tallyman knows it: frame to entry of R142; an unlisted frame is DIRTY with SCRUB 1 -/
  frm : List (Nat × Word)
  /-- frames in a scrub program now (R155) -/
  scrub : List Nat
  /-- TWR.MEMMAP or FRM_BASE changed since the frame table was built (R468) -/
  mapDirty : Bool
  built : Bool
  /-- the coding tables in use, by TID -/
  tabs : List (Nat × Tab)
  /-- granules written, and granules of the same blocks as RAW, not yet counted in units of 1,024 (10) -/
  granOut : Nat
  granRaw : Nat
  /-- the place after the MV queue whose PACK the packer ran last, by core of the tower (R261) -/
  packAt : Nat
  /-- power (18): the demand reported this epoch as TSV draw, banks and core draw, draws in 0.1 µW; the TSV draw and the banks
  of the demand that the grant in force answers; the grant whose rise is still to come; the operating point; EFF_BANKS;
  device time up to which STRETCH_US has counted; the tower clipped in this epoch -/
  demand : Option (Nat × Nat × Nat)
  cls : Nat × Nat
  rise : Option Nat
  op : Nat
  effBanks : Nat
  stretchAt : Nat
  clipped : Bool
deriving DecidableEq, Repr

/-! ### Serving (11, 12, 13) -/

/-- A request of a session: USER, APPEND or SUBMIT, token count, MAXNEW, source address (0 inline) and the tokens
read, 1/temperature, tokens delivered, LEN at its start, rows done, and the two times of R351. -/
structure Rq where
  user : Nat
  app : Bool
  ntok : Nat
  maxnew : Nat
  tokaddr : Nat
  /-- the tokens, each as soon as it is read -/
  toks : List (Option Word)
  invt : Word
  delivered : Nat
  len0 : Nat
  rows : Nat
  total : Nat
  tsamp : Nat
  tfirst : Nat
  /-- its place in the order in which the stall took records -/
  ord : Nat
deriving DecidableEq, Repr

/-- A record taken and not yet applied: ring pair key, index, record, time of the sample; and, once it is held for a
waiting session, its place in the order in which the stall took records. -/
structure Taken where
  pair : Nat
  idx : Nat
  r : Desc
  t : Nat
  ord : Nat
deriving DecidableEq, Repr

/-- The states of a session (R328). -/
inductive SesSt where
  | wait | idle | active | parked
deriving DecidableEq, Repr

/-- A session. -/
structure Ses where
  stall : Nat
  ctx : Nat
  sid : Word
  be : Bool
  spec : Bool
  maxlen : Nat
  seed : Nat
  invt : Word
  stop0 : Word
  stop1 : Word
  pfxlen : Nat
  pfx : Nat
  topk : Nat
  user : Nat
  tsamp : Nat
  tadm : Nat
  st : SesSt
  slot : Nat
  home : Nat
  ledg : Nat
  plist : Nat
  base : Nat
  pcap : Nat
  pages : Nat
  len : Nat
  pend : Option Word
  act : Option Rq
  queue : List Rq
  /-- records held while the session waits in admission, oldest first -/
  held : List Taken
  /-- its place in the order in which the stall took records -/
  ord : Nat
  delivered : Nat
  waited : Nat
  parkedFor : Nat
  admitStep : Nat
  /-- STEP of the last commit, as the sequence record holds it (R140) -/
  cstep : Word
  draft : Option (Nat × List Word)
  heads : List Word
  marks : List Nat
  /-- R334: whether the rows fixed in parts 7 and 8 for the coming step take it; none while nothing is fixed for it -/
  fixed : Option Bool
  /-- this step: in the batch, rows of the step, drafts, output tokens, poisoned, output dropped (R334) -/
  inStep : Bool
  rowsNow : Nat
  drafts : List Word
  outs : List Word
  poison : Bool
  drop : Bool
  accept : Nat
  /-- attention outputs of the step's query positions in the layer that ran last: 64 heads of 128 FP32 words (R149) -/
  attn : List (List (List Word))
  /-- the parameter entries of its sampled rows: SEED, INVT, CTR (R231, R232) -/
  params : List (Nat × Word × Nat)
  /-- requests ended in this step and not yet reported, with status and cause, oldest first -/
  fin : List (Rq × Nat × Nat)
  /-- the active request ends by a cancel in this step: status and cause; the LEN that TRUNC leaves (R344, R346) -/
  cancel : Option (Nat × Nat)
  trunc : Option Nat
  /-- digests to be recomputed at the commit, as layer × 65536 + page (R147) -/
  redig : List Nat
  /-- how the active request ends in this step: status and cause -/
  reqEnd : Option (Nat × Nat)
  /-- how the session ends in this step: status and cause (R351) -/
  ending : Option (Nat × Nat)
deriving DecidableEq, Repr

/-- A ring pair: the record whose SEQ mismatched and in how many samples, the consumer word last read, held records,
records lost, the batch being formed, records written and not yet signalled and the time of the oldest, and when the
consumer word was last read (R289 to R297). The consumer and producer indices are PRT.ICONS and PRT.RPROD. -/
structure RingSt where
  badSeq : Nat × Nat
  rcons : Nat
  held : List Desc
  lost : Nat
  batch : List Desc
  unsig : Nat
  unsigAt : Nat
  consAt : Nat
deriving DecidableEq, Repr

/-- A mirror-table entry in use (R427): first and last primary 2 MiB block, first mirror block. -/
structure MirE where
  base : Nat
  limit : Nat
  mbase : Nat
deriving DecidableEq, Repr

/-- A key-region entry (R385): first and last 2 MiB block, kind 1 MODEL or 2 CTX, context slot, RAWLOAD; ok is false
for an entry that R386 disables, which still names its range. -/
structure KeyE where
  base : Nat
  limit : Nat
  kind : Nat
  slot : Nat
  rawload : Bool
  ok : Bool
deriving DecidableEq, Repr

/-- A cached format descriptor (R168, R173): its 8 words, its codebook table, and whether either was read poisoned. -/
structure FmtC where
  ws : List Word
  /-- the codebook table, each byte with its poison -/
  cb : List (Byte × Bool)
  /-- the descriptor itself was poisoned -/
  bad : Bool
deriving DecidableEq, Repr

/-- A stall. -/
structure Stl where
  /-- pending owner changes in arrival order (R306) -/
  owners : List Nat
  /-- the part of the step in progress: 0 none (R333) -/
  part : Nat
  /-- records applied so far: the order of requests -/
  ordNo : Nat
  /-- a stall held by a group commit, and the device time since when (R59) -/
  held : Bool
  heldAt : Nat
  /-- records taken and not yet applied; every record applied in the running step (R323) -/
  taken : List Taken
  redo : List Taken
  /-- a reconfiguration requested (FORCE) and not begun; in progress; begun by a partition change; restarts -/
  reconf : Option Bool
  reconfOn : Bool
  again : Nat
  /-- rotating first port and first LC slot (R292, R312) -/
  rotP : Nat
  rotS : Nat
  resets : Nat
  resetOn : Bool
  /-- integrity stop raised during a stall reset; lost units; CLEAN waits for the boundary (R431, R432, R438) -/
  integ : Bool
  lost : List Nat
  clean : Bool
  checking : Bool
  mirror : List MirE
  keys : List KeyE
  /-- SHA3-256 of the key region table as loaded (R382) -/
  keyDigest : List Byte
  /-- format table cache (R168): each descriptor by index, with its codebook table -/
  fmts : List (Nat × FmtC)
  /-- the units of codebook index arrays and channel tables that the cache holds: address, what memory held, and the bytes
  with their poison (R168) -/
  tabs : List (Nat × List Byte × List (Byte × Bool))
  /-- step accounting, µs: bound, extension of the running step, fill target cut, step start ns -/
  bound : Nat
  ext : Nat
  /-- what the boundary added to the bound of the step that follows: retrains, holds, switches (R51, R59, R87, R92, R250) -/
  carry : Nat
  cut : Nat
  lcBlocked : Bool
  /-- the running step runs LC sequences (R321) -/
  lcRan : Bool
  startAt : Nat
  reruns : Nat
  layer : Nat
  /-- the step in progress is a histogram step; the step that follows a voided one is; a table build is due at the next
  boundary (R248, R250) -/
  hist : Bool
  histNext : Bool
  build : Bool
  /-- TIDs that received adds, and TIDs whose histograms the next allocation phase zeroes (R250, R252) -/
  tids : List Nat
  zeroTids : List Nat
  /-- TIDs whose LOAD is due, in arrival order, as tower × 256 + TID (R253) -/
  loads : List Nat
  /-- EXPERT_LIST records taken and not started -/
  experts : List Taken
  /-- end of the last step, ns (R292) -/
  idleAt : Nat
  /-- the sessions as the step began, which a voided step returns to (R323) -/
  snap : List Ses
  /-- contexts in DRAIN: slot, and 0 for a close, 1 for a teardown, 2 for a port event (R310, R364) -/
  drains : List (Nat × Nat)
  /-- what STL.OVERRUN_US has not yet counted of the overruns, ns -/
  overNs : Nat
  /-- the rows of the layer under way that each tower has been assigned (R318) -/
  assigned : List (Nat × Nat)
deriving DecidableEq, Repr

/-! ### Ports, management target, root of trust, reset, power (14, 15, 16, 18, 19) -/

/-- Where the bytes of a device read of host memory go. -/
inductive RdDst where
  /-- an MV HOSTRD of a queue: device address and length of each part, in order -/
  | mv (q : QueueId) (parts : List (Nat × Nat))
  /-- tokens of the active request of a session, from a byte offset -/
  | toks (ctx : Nat) (sid : Word) (off : Nat)
deriving DecidableEq, Repr

/-- A device read of host memory that is outstanding, and the device time of its issue. -/
structure HostRd where
  port : Nat
  tag : Nat
  len : Nat
  dst : RdDst
  at_ : Nat
deriving DecidableEq, Repr

/-- A port. -/
structure Prt where
  /-- PERSTp_N asserted; since when deasserted; ready to answer; event being isolated; FLR in progress -/
  perst : Bool
  perstAt : Nat
  isolating : Bool
  flr : Bool
  /-- configuration space words that differ from reset, by word index -/
  cfg : List (Nat × Word)
  aer : List Nat
  tags : Nat
deriving DecidableEq, Repr

/-- A message under assembly (R369): its key, the next packet sequence number, the bytes so far, and the device time of
its last packet. -/
structure Asm where
  key : AsmKey
  seq : Nat
  data : List Byte
  at_ : Nat
deriving DecidableEq, Repr

/-- A response or event waiting to be sent: medium, destination, the SPDM session that carries it, message, failed
attempts, and the device time at which its backoff ends (R371). -/
structure Rsp where
  m : Medium
  dst : MsgSrc
  ses : Option Nat
  data : List Byte
  tries : Nat
  backoff : Option Nat
deriving DecidableEq, Repr

/-- A token bucket: source key (phys × 256 + EID; 65536 the one that further sources share), class 0 all messages,
1 register writes, 2 signing requests, 3 signing requests of the module, tokens in thousandths, time of the last fill
(R372). -/
structure Bucket where
  src : Nat
  cls : Nat
  tok : Nat
  at_ : Nat
deriving DecidableEq, Repr

/-- An SPDM connection of a source (R375): how far negotiation came (0 VERSION, 1 CAPABILITIES, 2 ALGORITHMS), the
version byte, the session ID, whether the session is established, key updates, the large message being received with
its handle and next chunk, the large response being fetched with its handle, and the time of the last HEARTBEAT. -/
structure Spdm where
  m : Medium
  phys : Byte
  eid : Byte
  stage : Nat
  ver : Byte
  session : Option Nat
  up : Bool
  keyGen : Nat
  chunkIn : Option (Nat × Nat × List Byte)
  chunkOut : Option (Nat × Nat × List Byte)
  beat : Nat
deriving DecidableEq, Repr

/-- The firmware update of PLDM Type 5: state 0 IDLE, 1 LEARN COMPONENTS, 2 READY XFER, 3 DOWNLOAD; the component's
TYPE, its size, the bytes taken, and the largest transfer (R370, R412). -/
structure FwUpd where
  st : Nat
  type : Nat
  size : Nat
  data : List Byte
  max : Nat
deriving DecidableEq, Repr

/-- The management target. -/
structure Mgt where
  i3c : Bool
  hdr : Bool
  asm : List Asm
  out : List Rsp
  buckets : List Bucket
  spdm : List Spdm
  /-- EIDs on the VDM media, port to EID + 1 -/
  vdmEid : List (Nat × Nat)
  /-- PlatformEventMessage receiver; the thresholds that temperature sensors stand at or above, as sensor × 4 + level;
  the terminus ID (R453) -/
  receiver : Option (Medium × Byte)
  hot : List Nat
  tid : Nat
  fw : FwUpd
deriving DecidableEq, Repr

/-- The root of trust. -/
structure SecSt where
  /-- model key held for the next reconfiguration, by stall: source code and key; installed keys -/
  heldKey : List (Nat × Nat × BitVec 512)
  model : List (Nat × Nat × BitVec 512)
  ctxKey : List (Nat × BitVec 512)
  kimport : List (Nat × Word)
  /-- requests since the last reseed; entropy failed; seeds -/
  drbg : Nat
  entropyOk : Bool
  tap : Bool
  /-- measurement 5 as fixed when boot completed (R382) -/
  meas5 : Option (List Byte)
deriving DecidableEq, Repr

/-- The fuses. -/
structure Fuses where
  serial : W64
  /-- operating points: MHz, mV, P_core in 0.125 W -/
  ops : List (Nat × Nat × Nat)
  /-- anti-rollback counters by image type; vendor keys revoked (R379, R380) -/
  arb : List (Nat × Nat)
  revoked : BitVec 4
deriving DecidableEq, Repr

/-- The persistent record (R416). -/
structure Rec where
  seq : Nat
  pref : Nat
  validA : Bool
  validB : Bool
  portcfg : Word
  serial : W64
  /-- REPAIR bytes that differ from the identity map: 33 × tower + controller to the logical channel, 255 none -/
  repair : List (Nat × Nat)
  /-- HIST_CNT by severity -/
  hist : List (Nat × Nat)
  /-- HIST_FATAL, newest first -/
  histFatal : List ErrRec
deriving DecidableEq, Repr

/-- The module flash: the two record banks (none: not valid), the bytes of the images by slot × 8 + TYPE, and the
record write under way: the record and whether it is the second try (R416, R418). -/
structure Flash where
  bank0 : Option Rec
  bank1 : Option Rec
  slots : List (Nat × List Byte)
  writing : Option (Rec × Bool)
deriving DecidableEq, Repr

/-- An image accepted in this start: TYPE, SVN, KEYIDX and DIGEST (R377). -/
structure Img where
  type : Nat
  svn : Nat
  key : Nat
  digest : List Byte
deriving DecidableEq, Repr

/-- Reset, clocks and boot. -/
structure Rst where
  /-- supplies: VSB up, a VMAIN monitor tripped, the level of PWR_EN, soft start running (R462, R464) -/
  vsb : Bool
  vmainFault : Bool
  pwrEn : Bool
  soft : Bool
  /-- the module releases PWR_GOOD; the platform holds it low (R457) -/
  modGood : Bool
  platLow : Bool
  /-- the 100 ms after a fall of PWR_EN run; a rise is held (R465) -/
  holdoff : Bool
  holdRise : Bool
  /-- RESET_N is low; it has been low for 1 µs (R400) -/
  resetN : Bool
  filter : Bool
  /-- THERM_TRIP_N is asserted (R402) -/
  trip : Bool
  /-- the straps latched (R397) -/
  straps : Straps
  /-- the last event of the release order done, 0 to 10 (R405); the device time of event 1 -/
  ev : Nat
  startAt : Nat
  /-- a start is under way and neither confirmed nor failed (R413); the last start failed (R414) -/
  starting : Bool
  lastFailed : Bool
  /-- the reference stopped and the PLLs hold (R395); a software device reset waits its 100 µs (R398) -/
  refStop : Bool
  swrst : Bool
  /-- the boot ROM has read the record (R410 step 1); the images accepted in this start -/
  booted : Bool
  images : List Img
  /-- slots that failed in this start -/
  tried : List Nat
  /-- a fatal error is being handled (R404) -/
  fatal : Bool
  /-- memory initialisation has ended; the channels that did not train, as tower and controller (R406) -/
  memInit : Bool
  failedCh : List (Nat × Nat)
  /-- training was judged and BASEFW loaded (R410 step 5) -/
  judged : Bool
  /-- the copy of the persistent record in use -/
  prec : Rec
  /-- DEV.SEV_CNT as last added into HIST_CNT, and when (R439) -/
  histAt : List (Nat × Nat)
  histTime : Nat
  /-- the load buffer of gate die 0, and the chunks taken of the image under way (R411, R412) -/
  loadBuf : List Byte
  loadData : List Byte
  /-- LEN of the chunk being taken -/
  loadLen : Nat
  /-- device time of the last load command (R412) -/
  loadAt : Nat
  /-- device times at which TLY.HEARTBEAT last changed and PHASE became READY (R401, R413) -/
  beatAt : Nat
  readyAt : Nat
deriving DecidableEq, Repr

/-- The weighhouse (18): device time of the last epoch start, corr of R448 in W, the grants in force and those
computed for the next epoch, by tower, in 0.1 µW. -/
structure Wgh where
  epochAt : Nat
  corr : Nat
  grants : List (Nat × Nat)
  next : List (Nat × Nat)
deriving DecidableEq, Repr

/-- A BAR2 request that has passed its checks and waits for a channel: port, requester, device address, length, and of a
write the data and EP. -/
structure Bar2Req where
  port : Nat
  rid : Nat
  da : Nat
  len : Nat
  wr : Option (List Byte × Bool)
deriving DecidableEq, Repr

/-- What the block sends outward: PCI Express completions and writes, device reads, interrupts, error messages, pin
levels, management messages, hawser deliveries, memory read results (assumption log 3). -/
inductive Out where
  /-- a completion to port p, request rid: status 0 SC, 1 UR, 4 CA, 2 CRS; data; EP -/
  | cpl (p : Nat) (status : Nat) (data : List Byte) (ep : Bool)
  | hostWrite (p : Nat) (addr : Nat) (data : List Byte) (ep : Bool)
  | hostRead (p : Nat) (tag : Nat) (addr : Nat) (len : Nat)
  | msix (p : Nat) (vec : Nat) (addr : Nat) (data : Word)
  | aer (p : Nat)
  | pin (name : String) (level : Bool)
  /-- a management message; inside an SPDM session, its plain text and the session -/
  | mgmt (m : Medium) (dst : MsgSrc) (ses : Option Nat) (data : List Byte)
  | hawser (src dst : Nat) (id : Nat) (hops : Nat)
  | data (tag : Nat) (bytes : List Byte) (poison : Bool)
  | config (p : Nat) (status : Nat) (val : Word)
  | regs (vals : List Word)
deriving DecidableEq, Repr

/-- The hawser: links down as tower × 4 + direction, and the packets sent and not acknowledged, by pair. -/
structure Hwp where
  down : List Nat
  unacked : List (Nat × List Nat)
  /-- pairs rerouted row first; pairs whose resend is not yet acknowledged, with the packets that wait -/
  rowFirst : List Nat
  hold : List (Nat × List Nat)
  noRoute : List Nat
deriving DecidableEq, Repr

/-- Why the machine stops with a fault. No command of the table ends so: every error of the part is recorded in its
state (assumption log 2). -/
inductive Fault where
  /-- raised by no command; kept so that the type has a value (safe) -/
  | unreachable
deriving DecidableEq, Repr

/-- Why a command is refused. -/
inductive Refusal where
  /-- raised only by an arm of exec whose command has no meaning yet: none in this model (safe) -/
  | notModelled (mnemonic : String)
deriving DecidableEq, Repr

/-- The whole part. -/
structure State where
  /-- commands waiting, first in, first out -/
  pending : List Instr
  /-- what the part has sent outward, oldest first -/
  sent : List Out
  /-- the model's own counter of free values; it advances with every draw (assumption log 13) -/
  free : Nat
  /-- device time in ns (R63) -/
  time : Nat
  rf : RegSt
  hw : Hwp
  /-- tower memory: data bytes and check bytes by physical location (R28, R29, R80) -/
  mem : List Host.Cell
  chk : List Host.Cell
  /-- on-die SRAM of region 1 by device address; units written; units poisoned (R271) -/
  sram : List Host.Cell
  marks : List Nat
  sramP : List Nat
  /-- channels by tower × 33 + channel -/
  chn : List (Nat × Chn)
  tw : List (Nat × Tw)
  cores : List (Nat × CoreSt)
  aisles : List (Nat × AisleSt)
  subs : List (Nat × Sub)
  ses : List Ses
  rings : List (Nat × RingSt)
  stl : List (Nat × Stl)
  hostRds : List HostRd
  /-- BAR2 requests that wait for a channel, oldest first -/
  bar2 : List Bar2Req
  /-- the model's own mark: an access of the command in hand met a channel or bank that takes no request now (R69, R89) -/
  hit : Bool
  prt : List (Nat × Prt)
  mgt : Mgt
  sec : SecSt
  fuses : Fuses
  flash : Flash
  rst : Rst
  wgh : Wgh
  /-- a partition change under way: the new NSTALL and FORCE; whether its phases have begun (R305, R308) -/
  partn : Option (Nat × Bool)
  partnOn : Bool
deriving DecidableEq, Repr

/-! ### Reset values -/

def Txn.reset : Txn := ⟨0, none, 0, []⟩
def Grp.reset : Grp := ⟨0, 7, [], none, 0⟩
def ErrRing.reset : ErrRing := ⟨0, []⟩
def RegSt.reset : RegSt := ⟨[], [], [], [], [], [], [], [], [], [], [], [], []⟩
def BankSt.reset : BankSt := ⟨none, 0, 0, 0, 0, 0, 0, false, false⟩
def Chn.reset : Chn :=
  { now := 0, seq := 0, rq := [], wq := [], nq := [], wait := [], wcb := [], aq := [], banks := [], dirW := false, runCnt := 0, slots := [],
    lastRd := 0, lastWr := 0, flight := [], attempts := 0, retries := [], forcedAt := [], ceAt := [],
    sched := false, forced := false, attempt := 0, wasForced := false, back := 0, slices := 0, idle := 0, tgStop := false, patrolAt := 0 }
def UnitSt.reset : UnitSt := ⟨[], [], [], [], []⟩
def Bench.reset : Bench :=
  { open_ := false, ctx := 0, slot := 0, cmds := 0, sets := [], bcast := [], bcastP := [], run := none, rows := [],
    iter := 0, units := [], written := [], fix := [], actAt := 0, outN := 0, wait := none, taken := false, paused := false,
    discard := [], busy := 0 }
def QSt.reset : QSt := ⟨0, 0, 0, 0, none, 0, true, false, 0, [], none⟩
def CoreSt.reset : CoreSt := ⟨[], [], [], [], 0, [], [], []⟩
def AisleSt.reset : AisleSt := ⟨none, 0, false, [], [], none⟩
def Tw.reset : Tw :=
  { oos := false, oosDue := false, temp := [], hotref := 0, dstep := 0, stretch := 0, repair := none, mir := [], bench := Bench.reset, bnq := QSt.reset, sem := [], frm := [], scrub := [],
    mapDirty := false, built := false, tabs := [], granOut := 0, granRaw := 0, packAt := 0, demand := none, cls := (0, 0), rise := none, op := 0,
    effBanks := 16, stretchAt := 0, clipped := false }
def RingSt.reset : RingSt := ⟨(0, 0), 0, [], 0, [], 0, 0, 0⟩
def Stl.reset : Stl :=
  { owners := [], part := 0, ordNo := 0, held := false, heldAt := 0, taken := [], redo := [], reconf := none, reconfOn := false, again := 0,
    rotP := 0, rotS := 0, resets := 0, resetOn := false, integ := false, lost := [], clean := false,
    checking := false, mirror := [], keys := [], keyDigest := [], fmts := [], tabs := [], bound := 0, ext := 0, carry := 0, cut := 0,
    lcBlocked := false, lcRan := false, startAt := 0, reruns := 0, layer := 0, hist := false, histNext := false, build := false,
    tids := [], zeroTids := [], loads := [],
    experts := [], idleAt := 0, snap := [], drains := [], overNs := 0, assigned := [] }
def Prt.reset : Prt := ⟨true, 0, false, false, [], [], 0⟩
def FwUpd.reset : FwUpd := ⟨0, 0, 0, [], 0⟩
def Mgt.reset : Mgt :=
  { i3c := false, hdr := false, asm := [], out := [], buckets := [], spdm := [], vdmEid := [], receiver := none,
    hot := [], tid := 0, fw := FwUpd.reset }
def SecSt.reset : SecSt :=
  { heldKey := [], model := [], ctxKey := [], kimport := [], drbg := 0, entropyOk := true, tap := false, meas5 := none }
/-- The default record of R417. -/
def Rec.reset : Rec := ⟨0, 0, true, true, 0x00000070#32, 0, [], [], []⟩
def Flash.reset : Flash := ⟨none, none, [], none⟩
/-- The operating points are the typical values of R442 to the nearest 0.125 W (assumption log 32). -/
def Fuses.reset : Fuses :=
  ⟨0, [(1200, 650, 148), (1300, 679, 174), (1400, 707, 204), (1500, 736, 237), (1600, 764, 272), (1700, 793, 311),
       (1800, 821, 354), (1900, 850, 400)], [], 0⟩
def Rst.reset : Rst :=
  { vsb := true, vmainFault := false, pwrEn := false, soft := false, modGood := false, platLow := false,
    holdoff := false, holdRise := false, resetN := false, filter := false, trip := false, straps := ⟨0, 0, 0⟩, ev := 0,
    startAt := 0, starting := false, lastFailed := false, refStop := false, swrst := false, booted := false,
    images := [], tried := [], fatal := false, memInit := false, failedCh := [], judged := false, prec := Rec.reset,
    histAt := [], histTime := 0, loadBuf := [], loadData := [], loadLen := 0, loadAt := 0, beatAt := 0, readyAt := 0 }
def Wgh.reset : Wgh := ⟨0, 0, [], []⟩
def Hwp.reset : Hwp := ⟨[], [], [], [], []⟩

/-- The part right after power-on: the standby supply is up, no domain but D0 is released, every register holds its
reset value, memory lists nothing (R8, R398, R406; assumption log 4). -/
def State.reset : State :=
  { pending := [], sent := [], free := 0, time := 0, rf := RegSt.reset, hw := Hwp.reset, mem := [], chk := [],
    sram := [], marks := [], sramP := [], chn := [], tw := [], cores := [], aisles := [], subs := [], ses := [],
    rings := [], stl := [], hostRds := [], bar2 := [], hit := false, prt := [], mgt := Mgt.reset, sec := SecSt.reset, fuses := Fuses.reset,
    flash := Flash.reset, rst := Rst.reset, wgh := Wgh.reset,
    partn := none, partnOn := false }

end Sys2Proof.Machine
end

