-- ==== Sys2Proof/Machine/Ops.lean ====
section
/-! DEFINITION. The named operations over registers: the page map of R43, raw reads and writes of a register, error
records and rings (R421 to R424), the interrupts of BLK_IEN and the MSI-X vectors (R296), stalls and owners (R22,
R304, R306), free values, and what is sent outward. -/

namespace Sys2Proof.Machine

/-! ### Sub-states by key -/

def State.chan (s : State) (t c : Nat) : Chn := mget Chn.reset s.chn (t * 33 + c)
def State.setChan (s : State) (t c : Nat) (x : Chn) : State := { s with chn := mset Chn.reset s.chn (t * 33 + c) x }
def State.modChan (s : State) (t c : Nat) (f : Chn → Chn) : State := s.setChan t c (f (s.chan t c))
def State.tower (s : State) (t : Nat) : Tw := mget Tw.reset s.tw t
def State.setTower (s : State) (t : Nat) (x : Tw) : State := { s with tw := mset Tw.reset s.tw t x }
def State.modTower (s : State) (t : Nat) (f : Tw → Tw) : State := s.setTower t (f (s.tower t))
def State.modBench (s : State) (t : Nat) (f : Bench → Bench) : State :=
  s.modTower t (fun x => { x with bench := f x.bench })
def State.stall (s : State) (i : Nat) : Stl := mget Stl.reset s.stl i
def State.setStall (s : State) (i : Nat) (x : Stl) : State := { s with stl := mset Stl.reset s.stl i x }
def State.modStall (s : State) (i : Nat) (f : Stl → Stl) : State := s.setStall i (f (s.stall i))
def State.port (s : State) (p : Nat) : Prt := mget Prt.reset s.prt p
def State.setPort (s : State) (p : Nat) (x : Prt) : State := { s with prt := mset Prt.reset s.prt p x }
def State.modPort (s : State) (p : Nat) (f : Prt → Prt) : State := s.setPort p (f (s.port p))
def State.ring (s : State) (k : Nat) : RingSt := mget RingSt.reset s.rings k
def State.setRing (s : State) (k : Nat) (x : RingSt) : State := { s with rings := mset RingSt.reset s.rings k x }
def State.modRing (s : State) (k : Nat) (f : RingSt → RingSt) : State := s.setRing k (f (s.ring k))
/-- The key of core i of aisle a of tower t. -/
def coreKey (t a c : Nat) : Nat := (t * 20 + a) * 16 + c
def State.core (s : State) (k : Nat) : CoreSt := mget CoreSt.reset s.cores k
def State.setCore (s : State) (k : Nat) (x : CoreSt) : State := { s with cores := mset CoreSt.reset s.cores k x }
def State.modCore (s : State) (k : Nat) (f : CoreSt → CoreSt) : State := s.setCore k (f (s.core k))
/-- Aisle key: tower × 32 + aisle; 31 is the tower's bench queue. -/
def State.aisle (s : State) (k : Nat) : AisleSt := mget AisleSt.reset s.aisles k
def State.setAisle (s : State) (k : Nat) (x : AisleSt) : State := { s with aisles := mset AisleSt.reset s.aisles k x }
def State.modAisle (s : State) (k : Nat) (f : AisleSt → AisleSt) : State := s.setAisle k (f (s.aisle k))

/-- Send a message outward. -/
def State.emit (s : State) (o : Out) : State := { s with sent := s.sent ++ [o] }

/-- A free number below n (assumption log 13); the counter advances. -/
def State.draw (s : State) (n : Nat) : Nat × State :=
  (Config.freeNat s.free % n, { s with free := s.free + 1 })

/-! ### The page map of R43 -/

/-- A register page. -/
inductive Pg where
  | dev
  | stl (i : Nat)
  | twr (t : Nat)
  | thm (t : Nat)
  | bsq (t : Nat)
  | pkr (t : Nat)
  | hwp (t d : Nat)
  | mem (t c : Nat)
  | ais (t a : Nat)
  | gte (g : Nat)
  | wgh | rsc | sec | mgt | fls | tly
  | prt (p : Nat)
deriving DecidableEq, Repr

def Pg.kind : Pg → PKind
  | .dev => .dev | .stl _ => .stl | .twr _ => .twr | .thm _ => .thm | .bsq _ => .bsq | .pkr _ => .pkr
  | .hwp .. => .hwp | .mem .. => .mem | .ais .. => .ais | .gte _ => .gte | .wgh => .wgh | .rsc => .rsc
  | .sec => .sec | .mgt => .mgt | .fls => .fls | .tly => .tly | .prt _ => .prt

/-- The BAR0 offset of a page (R43). -/
def Pg.base : Pg → Nat
  | .dev => 0
  | .stl i => 0x10000 + i * 0x1000
  | .twr t => 0x1000000 + t * 0x100000
  | .thm t => 0x1000000 + t * 0x100000 + 0x1000
  | .bsq t => 0x1000000 + t * 0x100000 + 0x2000
  | .pkr t => 0x1000000 + t * 0x100000 + 0x3000
  | .hwp t d => 0x1000000 + t * 0x100000 + 0x4000 + d * 0x1000
  | .mem t c => 0x1000000 + t * 0x100000 + 0x10000 + c * 0x1000
  | .ais t a => 0x1000000 + t * 0x100000 + 0x40000 + a * 0x1000
  | .gte g => 0x3000000 + g * 0x1000
  | .wgh => 0x3002000 | .rsc => 0x3003000 | .sec => 0x3004000 | .mgt => 0x3005000 | .fls => 0x3006000
  | .tly => 0x3007000
  | .prt p => 0x3010000 + p * 0x1000

/-- The page with a page number (BAR0 offset / 4 KiB); none where the map assigns nothing (R43). -/
def pageNo (n : Nat) : Option Pg :=
  if n = 0 then some .dev
  else if n < 0x10 then none
  else if n < 0x14 then some (.stl (n - 0x10))
  else if n < 0x1000 then none
  else if n < 0x3000 then
    let t := (n - 0x1000) / 0x100
    let l := (n - 0x1000) % 0x100
    if l = 0 then some (.twr t) else if l = 1 then some (.thm t) else if l = 2 then some (.bsq t)
    else if l = 3 then some (.pkr t) else if l < 8 then some (.hwp t (l - 4))
    else if l < 0x10 then none else if l < 0x31 then some (.mem t (l - 0x10))
    else if l < 0x40 then none else if l < 0x54 then some (.ais t (l - 0x40)) else none
  else if n < 0x3002 then some (.gte (n - 0x3000))
  else if n = 0x3002 then some .wgh else if n = 0x3003 then some .rsc else if n = 0x3004 then some .sec
  else if n = 0x3005 then some .mgt else if n = 0x3006 then some .fls else if n = 0x3007 then some .tly
  else if n < 0x3010 then none
  else if n < 0x3014 then some (.prt (n - 0x3010))
  else none

/-- The tower of a tower page. -/
def Pg.tower? : Pg → Option Nat
  | .twr t | .thm t | .bsq t | .pkr t | .hwp t _ | .mem t _ | .ais t _ => some t
  | _ => none

/-- BLK_ID of a page (R48). -/
def Pg.id (p : Pg) : Nat :=
  let inst := match p with
    | .stl i | .gte i | .prt i => i
    | .twr t | .thm t | .bsq t | .pkr t => t * 256
    | .hwp t d => t * 256 + d
    | .mem t c => t * 256 + c
    | .ais t a => t * 256 + a
    | _ => 0
  p.kind.type * 65536 + inst

def devR (o : Nat) : Nat := o
def stlR (i o : Nat) : Nat := (Pg.stl i).base + o
def twrR (t o : Nat) : Nat := (Pg.twr t).base + o
def thmR (t o : Nat) : Nat := (Pg.thm t).base + o
def bsqR (t o : Nat) : Nat := (Pg.bsq t).base + o
def pkrR (t o : Nat) : Nat := (Pg.pkr t).base + o
def memR (t c o : Nat) : Nat := (Pg.mem t c).base + o
def aisR (t a o : Nat) : Nat := (Pg.ais t a).base + o
def gteR (g o : Nat) : Nat := (Pg.gte g).base + o
def wghR (o : Nat) : Nat := 0x3002000 + o
def rscR (o : Nat) : Nat := 0x3003000 + o
def secR (o : Nat) : Nat := 0x3004000 + o
def mgtR (o : Nat) : Nat := 0x3005000 + o
def flsR (o : Nat) : Nat := 0x3006000 + o
def tlyR (o : Nat) : Nat := 0x3007000 + o
def prtR (p o : Nat) : Nat := (Pg.prt p).base + o

/-! ### Raw register values -/

/-- The reset value of the register at a BAR0 address: of the tables, but RING_CTL.VEC of pair n resets to 4 + n,
CH_REPAIR.LOGICAL to the identity map and CHSTATE of the spare to SPARE, which the record changes (R94, R97). -/
def regReset (addr : Nat) : Word :=
  match pageNo (addr / 4096) with
  | none => 0
  | some p =>
    let o := addr % 4096
    match p.kind.regAt o with
    | none => 0
    | some r =>
      match p with
      | .prt _ => if r.off = 0x200 then fset r.reset 19 12 (4 + r.index o) else r.reset
      | .mem _ c =>
        if o = 0x98 then fset r.reset 23 16 (if c < 32 then c else 255)
        else if o = 0x14 then fset r.reset 31 28 (if c < 32 then 0 else 5)
        else r.reset
      | .bsq _ => if o = 0x14 then fset r.reset 31 27 16 else r.reset
      | _ => r.reset

/-- The stored value at k of a map whose default depends on the key. -/
def rget (l : List (Nat × Word)) (k : Nat) : Word := mget (regReset k) l k

/-- The stored value of the register at a BAR0 address. -/
def State.reg (s : State) (addr : Nat) : Word := rget s.rf.regs addr

/-- Store a register value. -/
def State.setReg (s : State) (addr : Nat) (w : Word) : State :=
  { s with rf := { s.rf with regs := mset (regReset addr) s.rf.regs addr w } }

/-- Bits [hi:lo] of the register. -/
def State.fld (s : State) (addr hi lo : Nat) : Nat := fget (s.reg addr) hi lo

def State.bit (s : State) (addr i : Nat) : Bool := fbit (s.reg addr) i

/-- Replace bits [hi:lo] of the register. -/
def State.setFld (s : State) (addr hi lo v : Nat) : State := s.setReg addr (fset (s.reg addr) hi lo v)

def State.setBit (s : State) (addr i : Nat) (b : Bool) : State := s.setFld addr i i (b2n b)

/-- Advance a 32-bit saturating counter. -/
def State.bump (s : State) (addr n : Nat) : State :=
  s.setReg addr (BitVec.ofNat 32 (satAdd32 (s.reg addr).toNat n))

/-- The 64-bit value of a register pair, low word first. -/
def State.reg64 (s : State) (addr : Nat) : Nat := (s.reg addr).toNat + 2 ^ 32 * (s.reg (addr + 4)).toNat

def State.setReg64 (s : State) (addr v : Nat) : State :=
  (s.setReg addr (BitVec.ofNat 32 v)).setReg (addr + 4) (BitVec.ofNat 32 (v >>> 32))

/-- A register copy of one source. -/
def State.copy (s : State) (src k : Nat) : Word := mget 0 s.rf.copies (src * 16 + k)
def State.setCopy (s : State) (src k : Nat) (w : Word) : State :=
  { s with rf := { s.rf with copies := mset 0 s.rf.copies (src * 16 + k) w } }

/-! ### Stalls and owners -/

/-- DEV.STALL_CFG.NSTALL. -/
def State.nstall (s : State) : Nat := s.fld (devR 0xD0) 1 0

/-- The number of stalls of the present configuration (R304). -/
def State.stalls (s : State) : Nat := 2 ^ s.nstall

/-- Towers per stall. -/
def State.perStall (s : State) : Nat := 32 / s.stalls

/-- The stall that holds a tower (R22). -/
def State.stallOf (s : State) (t : Nat) : Nat := t / s.perStall

/-- The towers of a stall, in ascending order; none where the configuration does not hold the stall. -/
def State.towersOf (s : State) (st : Nat) : List Nat :=
  if st < s.stalls then (List.range s.perStall).map (fun i => st * s.perStall + i) else []

/-- STL.OWNER.PORT: the owner in effect; 7 none. -/
def State.owner (s : State) (st : Nat) : Nat := s.fld (stlR st 0x80) 2 0

/-- STL.BLK_STAT.SSTATE: 0 UNCONFIGURED, 1 RECONF, 2 CONFIGURED, 3 RESET, 4 STOPPED. -/
def State.sstate (s : State) (st : Nat) : Nat := s.fld (stlR st 0x14) 31 28
def State.setSstate (s : State) (st v : Nat) : State := s.setFld (stlR st 0x14) 31 28 v

/-- The stall of a page, where it has one. -/
def State.pageStall (s : State) : Pg → Option Nat
  | .stl i => some i
  | p => p.tower?.map s.stallOf

/-- The context number and stall of context k of a stall (R304). -/
def ctxNo (st k : Nat) : Nat := 64 * st + k

/-! ### Interrupts -/

/-- MSI-X Enable is 1 and Function Mask 0 in configuration word 20 of the port (R296: masking follows PCI Express). -/
def State.msixOn (s : State) (p : Nat) : Bool := fget (mget 0x00FF7011#32 (s.port p).cfg 20) 31 30 == 2

/-- The vector may be sent: it is unmasked, and so is the function. -/
def State.vecLive (s : State) (p v : Nat) : Bool := s.msixOn p && smem s.rf.vecOpen (p * 256 + v)

/-- The message of a vector: its entry's data written to its entry's address. -/
def State.sendVec (s : State) (p v : Nat) : State :=
  let e := mget (0, 0) s.rf.msix (p * 256 + v)
  s.emit (.msix p v e.1 e.2)

/-- Raise an MSI-X vector: a masked one sets its pending bit (R297). -/
def State.raiseVec (s : State) (p v : Nat) : State :=
  if s.vecLive p v then s.sendVec p v
  else { s with rf := { s.rf with vecPend := sadd s.rf.vecPend (p * 256 + v) } }

/-- R297: a pending vector is delivered when it is unmasked. -/
def State.deliverVec (s : State) (p v : Nat) : State :=
  if smem s.rf.vecPend (p * 256 + v) && s.vecLive p v then
    ({ s with rf := { s.rf with vecPend := sdel s.rf.vecPend (p * 256 + v) } } : State).sendVec p v
  else s

/-- R296: the interrupt of a page whose enabled BLK_ERR bit rises. -/
def State.pageIrq (s : State) (pg : Pg) : State :=
  match pg with
  | .prt p => s.raiseVec p 0
  | _ =>
    match s.pageStall pg with
    | some st => if s.owner st < 4 then s.raiseVec (s.owner st) 0 else s
    | none => forN 4 s (fun s p => if s.bit (prtR p 0x304) 0 then s.raiseVec p 1 else s)

/-! ### Error records -/

/-- The newest record of a ring coalesces with the event (R424). -/
def ErrRec.same (a b : ErrRec) : Bool :=
  a.code == b.code && a.sev == b.sev && a.ctx == b.ctx && a.stall == b.stall

/-- R421 and R424: put an event in the ring of a page; live tells whether the event's BLK_ERR bit, if it has one,
was still set. -/
def State.ringRecord (s : State) (pg : Pg) (code sev : Nat) (ctx : Option Nat) (addr info : Nat) (live : Bool) : State :=
  let n := pg.base / 4096
  let ring := mget ErrRing.reset s.rf.rings n
  let e : ErrRec := { code := code, sev := sev, ctx := ctx, stall := s.pageStall pg, blkid := pg.id, time := s.time,
                      addr := addr, repeats := 0, info := info }
  let ring' : ErrRing := match ring.recs with
    | r :: rest =>
      if r.same e && live then { ring with recs := { r with repeats := min (r.repeats + 1) 65535 } :: rest }
      else ⟨(ring.prod + 1) % 2 ^ 32, (e :: ring.recs).take 64⟩
    | [] => ⟨(ring.prod + 1) % 2 ^ 32, [e]⟩
  { s with rf := { s.rf with rings := mset ErrRing.reset s.rf.rings n ring' } }

/-- Record an event; SEV_CNT counts it, coalesced or not (R439). -/
def State.record (s : State) (pg : Pg) (code sev : Nat) (ctx : Option Nat) (addr info : Nat) (live : Bool) : State :=
  (s.bump (devR (0x140 + 4 * sev)) 1).ringRecord pg code sev ctx addr info live

/-- An event that sets BLK_ERR bit `bit` of a page: qual is CODE[15:8]. The BLK_IEN interrupt is raised only when the
bit rises (R424). -/
def State.flagErr (s : State) (pg : Pg) (bit qual sev : Nat) (ctx : Option Nat) (addr info : Nat) : State :=
  let was := s.bit (pg.base + 0x18) bit
  let s := s.record pg (qual * 256 + bit) sev ctx addr info was
  let s := s.setBit (pg.base + 0x18) bit true
  if !was && s.bit (pg.base + 0x1C) bit then s.pageIrq pg else s

/-- An event that sets no BLK_ERR bit (R423). -/
def State.logErr (s : State) (pg : Pg) (code sev : Nat) (addr info : Nat) : State :=
  s.record pg code sev none addr info true

/-- Clear the error ring of a page. -/
def State.clearRing (s : State) (pg : Pg) : State :=
  { s with rf := { s.rf with rings := mset ErrRing.reset s.rf.rings (pg.base / 4096) ErrRing.reset } }

/-- The words of an error record (R421). -/
def ErrRec.words (r : ErrRec) : List Word :=
  let w0 := r.code * 65536 + r.sev * 16384 + (match r.ctx with | some c => 8192 + c % 256 | none => 0)
            + (match r.stall with | some t => 4096 + t * 1024 | none => 0)
  [BitVec.ofNat 32 w0, BitVec.ofNat 32 r.blkid, BitVec.ofNat 32 r.time, BitVec.ofNat 32 (r.time >>> 32),
   BitVec.ofNat 32 r.addr, BitVec.ofNat 32 (r.addr >>> 32),
   BitVec.ofNat 32 (r.repeats * 65536 + (r.info >>> 32) % 65536), BitVec.ofNat 32 r.info]

/-- The record latched for an index: the newest whose number is the index mod 64; zeros where none was written since
the ring was cleared (R425). -/
def ErrRing.at_ (r : ErrRing) (idx : Nat) : List Word :=
  let j := (r.prod + 2 ^ 32 - 1 - idx) % 64
  match r.recs[j]? with
  | some e => e.words
  | none => List.replicate 8 0

end Sys2Proof.Machine
end

