-- ==== Sys2Proof/Machine/Flags.lean ====
section
/-! DEFINITION. The error flags of the register pages: which BLK_ERR bit and which severity each kind of event has
(R48, R420 and the header tables of the chapters). -/

namespace Sys2Proof.Machine

/-- Set a BLK_ERR bit of a page with a corrected event, no context and no address. -/
def State.flagC (s : State) (p : Pg) (bit : Nat) : State := s.flagErr p bit 0 0 none 0 0

/-- TX_CONFLICT (R52 to R57): INFO holds BLK_TXTAG of the page (R422). -/
def State.flagConflict (s : State) (p : Pg) : State := s.flagErr p 5 0 0 none 0 (s.reg (p.base + 0x24)).toNat

/-- TX_ABORT. -/
def State.flagAbort (s : State) (p : Pg) : State := s.flagErr p 6 0 0 none 0 (s.reg (p.base + 0x24)).toNat

/-- RESVAL (R49). -/
def State.flagResval (s : State) (p : Pg) : State := s.flagC p 4

/-- WHILE_RUN (R5). -/
def State.flagWhileRun (s : State) (p : Pg) : State := s.flagC p 1

/-- RST_REFUSED (R408). -/
def State.flagRstRefused (s : State) (p : Pg) : State := s.flagC p 2

/-- R422: INFO of a BAR0 access event: the requester ID of a port, or EID and physical address of the bus. -/
def srcInfo : Src → Nat
  | .port _ rid => rid.toNat
  | .mgmt eid addr _ => eid.toNat * 256 + addr.toNat

/-- The number of a source in BLK_TXN.SRC and DEV.SELF: 0 to 3 a port, 4 the management bus. -/
def srcNum : Src → Nat
  | .port p _ => p.val
  | .mgmt .. => 4

/-- R46: a write that R45 does not permit is dropped: BLK_ERR.ACCESS in the writing port's own page, or
MGT.BLK_ERR.REG_DENY. -/
def State.denyWrite (s : State) (src : Src) (addr : Nat) : State :=
  match src with
  | .port p _ => s.flagErr (.prt p.val) 3 0 0 none addr (srcInfo src)
  | .mgmt .. => (s.flagErr .mgt 16 0 0 none addr (srcInfo src)).bump (mgtR 0x124) 1

/-- R161: infinite inputs read, and NaNs converted to integers. -/
def State.nonfin (s : State) (st n : Nat) : State := if n = 0 then s else s.bump (stlR st 0x230) n

end Sys2Proof.Machine
end

