-- ==== Sys2Proof/Machine/Banks.lean ====
section
/-! DEFINITION. The banks of a channel: the timing rules (R66), the idle slots (R96), refreshes (R71), and the commands of
one bank, each at the first cycle that the rules permit (R64). A bank keeps the cycle of each event plus 1, and 0 where it
has not happened. -/

namespace Sys2Proof.Machine

def Chn.bank (x : Chn) (b : Nat) : BankSt := mget BankSt.reset x.banks b
def Chn.setBank (x : Chn) (b : Nat) (k : BankSt) : Chn := { x with banks := mset BankSt.reset x.banks b k }

/-! ### What the rules permit in a cycle (R66) -/

/-- n cycles have passed at cycle now since the event kept as e. -/
def past (now e n : Nat) : Bool := e == 0 || decide (e + n ≤ now + 1)

/-- Precharge is permitted: tRAS, tRTP, tWR after the last write beat, tRFCpb. -/
def BankSt.okPre (k : BankSt) (now : Nat) : Bool :=
  past now k.act 30 && past now k.rd 4 && past now k.wr 19 && past now k.ref 280

/-- The banks of the deck slice of a bank. -/
def Chn.slice (x : Chn) (b : Nat) : List BankSt := (List.range 4).map (fun i => x.bank (16 * i + b % 16))

/-- Activate is permitted: tRC, tRP, tRFCpb of the bank; tRRD of the channel; tRRD_S and tFAW of the deck slice. -/
def Chn.okAct (x : Chn) (b : Nat) : Bool :=
  let k := x.bank b
  past x.now k.act 44 && past x.now k.pre 14 && past x.now k.ref 280 && x.banks.all (fun y => past x.now y.2.act 1) &&
  (x.slice b).all (fun y => past x.now y.act 2) && decide ((x.slice b).countP (fun y => !past x.now y.act 12) < 4)

/-- A read is permitted: tRCD, tRFCpb, tCCD, and tWTR after the last write beat of the channel. -/
def Chn.okRd (x : Chn) (k : BankSt) : Bool :=
  past x.now k.act 14 && past x.now k.ref 280 && past x.now x.lastRd 1 && past x.now x.lastWr 11

/-- A write is permitted: tRCD, tRFCpb, tCCD, and tRTW after the last read beat on the data path. -/
def Chn.okWr (x : Chn) (k : BankSt) : Bool :=
  past x.now k.act 14 && past x.now k.ref 280 && past x.now x.lastWr 1 && past x.now x.lastRd 9

/-! ### The first cycle that the rules permit -/

/-- The first cycle at which n cycles have passed since the event kept as e. -/
def since (e n : Nat) : Nat := if e = 0 then 0 else e + n - 1

def BankSt.preAt (k : BankSt) : Nat := max (max (since k.act 30) (since k.rd 4)) (max (since k.wr 19) (since k.ref 280))

def Chn.actAt (x : Chn) (b : Nat) : Nat :=
  let k := x.bank b
  let sl := x.slice b
  maxL ([since k.act 44, since k.pre 14, since k.ref 280] ++ x.banks.map (fun y => since y.2.act 1) ++
    sl.map (fun y => since y.act 2) ++ [sl.foldl (fun m y => min m (since y.act 12)) (since k.act 12)])

def Chn.rdAt (x : Chn) (k : BankSt) : Nat := maxL [since k.act 14, since k.ref 280, since x.lastRd 1, since x.lastWr 11]

def Chn.wrAt (x : Chn) (k : BankSt) : Nat := maxL [since k.act 14, since k.ref 280, since x.lastWr 1, since x.lastRd 9]

/-! ### Idle slots (R96) -/

/-- A cycle is an idle slot at throttle step k. DESIGN CHOICE (assumption log 121): R96 gives their number in 8 cycles; they
are the first k of each 8. -/
def idleSlot (k n : Nat) : Bool := decide (n % 8 < k)

/-- The idle slots among the cycles 0, …, n - 1. -/
def idleBefore (k n : Nat) : Nat := n / 8 * k + min (n % 8) k

/-- The first cycle from n on that is no idle slot. -/
def slotFrom (k n : Nat) : Nat := if idleSlot k n then n / 8 * 8 + k else n

/-- The cycles of a channel pass up to cycle n; the idle slots among them are counted. -/
def State.passTo (s : State) (t c n : Nat) : State :=
  let x := s.chan t c
  if n ≤ x.now then s
  else
    let k := (s.tower t).dstep
    let i := x.idle + (idleBefore k n - idleBefore k x.now)
    let s := s.setChan t c { x with now := n, idle := i % 1024, slots := x.slots.filter (fun m => decide (n < m + 65)) }
    if i / 1024 = 0 then s else s.bump (memR t c 0xBC) (i / 1024)

/-! ### Commands of one bank (R64, R66) -/

/-- A command is issued in cycle n, or in the present one where that is later; it takes the cycle. -/
def State.command (s : State) (t c n : Nat) (f : Chn → Chn) : State :=
  let s := (s.passTo t c n).modChan t c f
  s.passTo t c ((s.chan t c).now + 1)

/-- The first cycle for an activate, read or write from cycle n on, idle slots left out. -/
def State.slotAt (s : State) (t c n : Nat) : Nat := slotFrom (s.tower t).dstep (max n (s.chan t c).now)

/-- A precharge closes the row of a bank. -/
def State.preBank (s : State) (t c b : Nat) : State :=
  s.command t c ((s.chan t c).bank b).preAt (fun x => x.setBank b { x.bank b with row := none, pre := x.now + 1 })

/-- An activate opens a row of a closed bank. -/
def State.actBank (s : State) (t c b row : Nat) : State :=
  s.command t c (s.slotAt t c ((s.chan t c).actAt b)) (fun x => x.setBank b { x.bank b with row := some row, act := x.now + 1 })

/-- A column command moves beats of the open row of a bank. -/
def State.colBank (s : State) (t c b : Nat) (wr : Bool) : State :=
  let x := s.chan t c
  s.command t c (s.slotAt t c (if wr then x.wrAt (x.bank b) else x.rdAt (x.bank b))) (fun x =>
    if wr then { x.setBank b { x.bank b with wr := x.now + 1 } with lastWr := x.now + 1 }
    else { x.setBank b { x.bank b with rd := x.now + 1 } with lastRd := x.now + 1 })

/-- A per-bank refresh, the row closed first (assumption log 36). -/
def State.refreshBank (s : State) (t c b : Nat) : State :=
  let s := if ((s.chan t c).bank b).row.isSome then s.preBank t c b else s
  let k := (s.chan t c).bank b
  s.command t c (max (since k.pre 14) (since k.ref 280)) (fun x => x.setBank b { x.bank b with ref := x.now + 1, due := false })

/-- Every owed refresh of a bank is issued (R120). -/
def State.payBank (s : State) (t c b : Nat) : State :=
  let n := ((s.chan t c).bank b).owed
  let s := forN n s (fun s _ => s.refreshBank t c b)
  if n = 0 then s else s.modChan t c (fun x => x.setBank b { x.bank b with owed := 0 })

/-- Every owed refresh of every bank of a channel is issued. -/
def State.payChan (s : State) (t c : Nat) : State :=
  ((s.chan t c).banks.filter (fun y => decide (0 < y.2.owed))).foldl (fun s y => s.payBank t c y.1) s

/-- tREFI of a deck (R71). -/
def State.trefi (s : State) (t deck : Nat) : Nat := if bitOf (s.tower t).hotref deck then 1950 else 3900

/-- A bank has reached tREFI since its last refresh. -/
def State.refDue (s : State) (t c b : Nat) : Bool :=
  let x := s.chan t c
  (x.bank b).due || decide ((x.bank b).ref + s.trefi t (b % 16) ≤ x.now + 1)

/-- A row of a bank is opened: a refresh that is due first, and another row closed. -/
def State.openRow (s : State) (t c b row : Nat) : State :=
  let s := if s.refDue t c b then s.refreshBank t c b else s
  match ((s.chan t c).bank b).row with
  | some r => if r = row then s else (s.preBank t c b).actBank t c b row
  | none => s.actBank t c b row

/-- R68, R69, R89: the commands of one access to a unit. A channel in a retrain and a bank that a bench command engages take
no request: the access marks the command in hand, which then waits (assumption log 122). -/
def State.touch (s : State) (t c b row : Nat) (wr : Bool) : State :=
  let x := s.chan t c
  if x.attempt ≠ 0 || (x.bank b).bench then { s with hit := true }
  else (s.openRow t c b row).colBank t c b wr

/-- What is left of an event that led from s to r: where r holds the mark, nothing of it. -/
def State.unlessHit (s r : State) : State := if r.hit then s else { r with hit := s.hit }

/-- An event of the device itself whose accesses meet a channel or a bank that takes no request now waits as a whole. -/
def State.orWait (s : State) (f : State → State) : State := s.unlessHit (f { s with hit := false })

end Sys2Proof.Machine
end

