-- ==== Sys2Proof/Machine/Crypt.lean ====
section
/-! DEFINITION. The functions the spec names by their standards: AES-256 in XTS mode over one 32 B data unit (R387,
R259), SHA3-256 (FIPS 202; R378, R382), CRC-32C and Philox4x32-10 (R231). -/

namespace Sys2Proof.Machine

/-! ### GF(2^8) -/

/-- Multiply by x in GF(2^8) with a field polynomial of 9 bits. -/
def gfX (poly a : Nat) : Nat := let b := 2 * a; if 256 ≤ b then (b ^^^ poly) % 256 else b

/-- Multiply in GF(2^8). -/
def gfMul (poly a b : Nat) : Nat :=
  (forN 8 (0, a) (fun (p : Nat × Nat) i => (if bitOf b i then p.1 ^^^ p.2 else p.1, gfX poly p.2))).1

/-- a^n in GF(2^8), by squaring from the top bit of an 8-bit exponent. -/
def gfPow (poly a n : Nat) : Nat :=
  forN 8 1 (fun r i => let r2 := gfMul poly r r; if bitOf n (7 - i) then gfMul poly r2 a else r2)

/-! ### AES-256 (FIPS 197) -/

/-- The S-box: the inverse in GF(2^8) under x^8 + x^4 + x^3 + x + 1, then the affine map. -/
def sbox (a : Nat) : Nat :=
  let i := gfPow 0x11B a 254
  let rot (k : Nat) : Nat := ((i <<< k) ||| (i >>> (8 - k))) % 256
  i ^^^ rot 1 ^^^ rot 2 ^^^ rot 3 ^^^ rot 4 ^^^ 0x63

/-- The inverse S-box. -/
def sboxInv (a : Nat) : Nat :=
  let rot (k : Nat) : Nat := ((a <<< k) ||| (a >>> (8 - k))) % 256
  gfPow 0x11B (rot 1 ^^^ rot 3 ^^^ rot 6 ^^^ 0x05) 254

def xorL (a b : List Nat) : List Nat := a.zipWith (· ^^^ ·) b

/-- The 60 words of the key schedule, each a list of 4 bytes, from the 32 key bytes. -/
def aesKeys (key : List Nat) : List (List Nat) :=
  let w0 := (List.range 8).map (fun i => (key.drop (4 * i)).take 4)
  (forN 52 (w0, 1) (fun (p : List (List Nat) × Nat) j =>
    let i := j + 8
    let t := p.1.getD (i - 1) []
    let r := p.1.getD (i - 8) []
    if i % 8 = 0 then
      let t' := (t.drop 1 ++ t.take 1).map sbox
      let t' := match t' with | x :: xs => (x ^^^ p.2) :: xs | [] => []
      (p.1 ++ [xorL r t'], gfX 0x11B p.2)
    else if i % 8 = 4 then (p.1 ++ [xorL r (t.map sbox)], p.2)
    else (p.1 ++ [xorL r t], p.2))).1

def roundKey (ks : List (List Nat)) (r : Nat) : List Nat := ((ks.drop (4 * r)).take 4).flatten

/-- ShiftRows: byte 4c + r comes from column c + r. -/
def shiftRows (b : List Nat) : List Nat := (List.range 16).map (fun i => b.getD ((i + 4 * (i % 4)) % 16) 0)
def shiftRowsInv (b : List Nat) : List Nat := (List.range 16).map (fun i => b.getD ((i + 16 - 4 * (i % 4)) % 16) 0)

def mixWith (c0 c1 c2 c3 : Nat) (b : List Nat) : List Nat :=
  (List.range 16).map (fun i =>
    let col := i / 4 * 4
    let x (k : Nat) : Nat := b.getD (col + (i + k) % 4) 0
    gfMul 0x11B (x 0) c0 ^^^ gfMul 0x11B (x 1) c1 ^^^ gfMul 0x11B (x 2) c2 ^^^ gfMul 0x11B (x 3) c3)

/-- AES-256 of one block under a key schedule. -/
def aesEnc (ks : List (List Nat)) (b : List Nat) : List Nat :=
  let s := forN 13 (xorL b (roundKey ks 0)) (fun s r =>
    xorL (mixWith 2 3 1 1 (shiftRows (s.map sbox))) (roundKey ks (r + 1)))
  xorL (shiftRows (s.map sbox)) (roundKey ks 14)

def aesDec (ks : List (List Nat)) (b : List Nat) : List Nat :=
  let s := forN 13 (xorL b (roundKey ks 14)) (fun s r =>
    mixWith 14 11 13 9 (xorL ((shiftRowsInv s).map sboxInv) (roundKey ks (13 - r))))
  xorL ((shiftRowsInv s).map sboxInv) (roundKey ks 0)

/-- The first n bytes of a number, as numbers. -/
def natBytes (n x : Nat) : List Nat := (List.range n).map (fun i => (x >>> (8 * i)) % 256)
def natOfBytes (l : List Nat) : Nat := l.foldr (fun b a => b + 256 * a) 0

/-- Multiply the tweak by α in GF(2^128). -/
def xtsNext (t : Nat) : Nat := let u := 2 * t; if 2 ^ 128 ≤ u then (u % 2 ^ 128) ^^^ 0x87 else u

/-- AES-256-XTS of a 32 B data unit under a 64 B key (bytes 0 to 31 the data key, 32 to 63 the tweak key; assumption
log 20), with a tweak number. -/
def xts (enc : Bool) (key : BitVec 512) (tweak : Nat) (data : List Byte) : List Byte :=
  let kb := natBytes 64 key.toNat
  let k1 := aesKeys (kb.take 32)
  let k2 := aesKeys (kb.drop 32)
  let t0 := natOfBytes (aesEnc k2 (natBytes 16 tweak))
  let block (t : Nat) (d : List Nat) : List Nat :=
    let tb := natBytes 16 t
    xorL tb ((if enc then aesEnc else aesDec) k1 (xorL tb d))
  let d := data.map BitVec.toNat
  ((block t0 (d.take 16)) ++ (block (xtsNext t0) ((d.drop 16).take 16))).map (BitVec.ofNat 8)

/-! ### SHA3-256 (FIPS 202) -/

def rotl64 (x k : Nat) : Nat := ((x <<< (k % 64)) ||| (x >>> (64 - k % 64))) % 2 ^ 64

/-- The rotation offsets of ρ for lane x + 5y. -/
def rhoOff : List Nat :=
  [0, 1, 62, 28, 27, 36, 44, 6, 55, 20, 3, 10, 43, 25, 39, 41, 45, 15, 21, 8, 18, 2, 61, 56, 14]

/-- The round constants of ι, from the LFSR of FIPS 202: bit 2^j - 1 is output 7r + j. -/
def lfsr (n : Nat) : Bool :=
  (forN (n % 255) 1 (fun r _ => let u := 2 * r; if 256 ≤ u then (u ^^^ 0x171) % 512 else u)) % 2 == 1

def keccakRC (r : Nat) : Nat :=
  forN 7 0 (fun a j => if lfsr (7 * r + j) then a ^^^ 2 ^ (2 ^ j - 1) else a)

def keccakRound (r : Nat) (a : List Nat) : List Nat :=
  let g (l : List Nat) (i : Nat) : Nat := l.getD i 0
  let c := (List.range 5).map (fun x => g a x ^^^ g a (x + 5) ^^^ g a (x + 10) ^^^ g a (x + 15) ^^^ g a (x + 20))
  let d := (List.range 5).map (fun x => g c ((x + 4) % 5) ^^^ rotl64 (g c ((x + 1) % 5)) 1)
  let th := (List.range 25).map (fun i => g a i ^^^ g d (i % 5))
  -- π moves lane (x, y) to (y, 2x + 3y)
  let b := (List.range 25).map (fun i =>
    let x' := i % 5; let y' := i / 5
    let x := (x' + 3 * y') % 5; let y := x'
    rotl64 (g th (x + 5 * y)) (g rhoOff (x + 5 * y)))
  let ch := (List.range 25).map (fun i =>
    let x := i % 5; let y := i / 5
    g b i ^^^ ((2 ^ 64 - 1 - g b ((x + 1) % 5 + 5 * y)) &&& g b ((x + 2) % 5 + 5 * y)))
  match ch with
  | x :: xs => (x ^^^ keccakRC r) :: xs
  | [] => []

def keccakF (a : List Nat) : List Nat := forN 24 a (fun a r => keccakRound r a)

/-- SHA3-256 of a byte string: rate 136 B, domain bits 01, pad10*1. -/
def sha3 (msg : List Byte) : List Byte :=
  let m := msg.map BitVec.toNat
  let n := m.length
  let padN := 136 - n % 136
  let pad := if padN = 1 then [0x86] else 0x06 :: (List.replicate (padN - 2) 0 ++ [0x80])
  let p := m ++ pad
  let st := forN (p.length / 136) (List.replicate 25 0) (fun st k =>
    let blk := (p.drop (136 * k)).take 136
    keccakF ((List.range 25).map (fun i => st.getD i 0 ^^^ (if i < 17 then natOfBytes ((blk.drop (8 * i)).take 8) else 0))))
  ((st.take 4).map (natBytes 8)).flatten.map (BitVec.ofNat 8)

/-! ### CRC-32C and Philox4x32-10 -/

/-- CRC-32C (polynomial 0x1EDC6F41, reflected 0x82F63B78, initial and final complement). -/
def crc32c (msg : List Byte) : Nat :=
  let r := msg.foldl (fun c b =>
    forN 8 (c ^^^ b.toNat) (fun c _ => if c % 2 = 1 then (c / 2) ^^^ 0x82F63B78 else c / 2)) 0xFFFFFFFF
  r ^^^ 0xFFFFFFFF

/-- Philox4x32-10: four 32-bit words of a counter under a key of two words. -/
def philox (k0 k1 c0 c1 c2 c3 : Nat) : Nat × Nat × Nat × Nat :=
  let r := forN 10 (c0, c1, c2, c3, k0, k1) (fun (p : Nat × Nat × Nat × Nat × Nat × Nat) _ =>
    let (a, b, c, d, x, y) := p
    let m0 := 0xD2511F53 * a
    let m1 := 0xCD9E8D57 * c
    ((m1 >>> 32) ^^^ b ^^^ x, m1 % 2 ^ 32, (m0 >>> 32) ^^^ d ^^^ y, m0 % 2 ^ 32, (x + 0x9E3779B9) % 2 ^ 32,
     (y + 0xBB67AE85) % 2 ^ 32))
  (r.1, r.2.1, r.2.2.1, r.2.2.2.1)

end Sys2Proof.Machine
end

