-- ==== Sys2Proof/Machine/Ecc.lean ====
section
/-! DEFINITION. The shortened Reed–Solomon code of a 32 B unit and the poison syndrome (R80 to R82). A codeword is
listed by coefficient: check bytes 0 to 3, then data bytes 0 to 31 (coefficient x^(k+4)). -/

namespace Sys2Proof.Machine

/-- Multiplication in GF(2^8) with x^8 + x^4 + x^3 + x^2 + 1 (R80). -/
def rsMul (a b : Nat) : Nat := gfMul 0x11D a b

/-- α^n, α = 0x02. -/
def rsPow (n : Nat) : Nat := forN n 1 (fun a _ => gfX 0x11D a)

/-- r(α^i) by Horner's rule. -/
def syndrome (cw : List Byte) (i : Nat) : Nat :=
  let a := rsPow i
  cw.foldr (fun b acc => rsMul acc a ^^^ b.toNat) 0

def syndromes (cw : List Byte) : List Nat := (List.range 4).map (syndrome cw)

/-- (x + 1)(x + α)(x + α²)(x + α³) without its leading coefficient: coefficients of x^0 to x^3. -/
def rsGen : List Nat :=
  forN 4 [1] (fun g i =>
    let a := rsPow i
    -- (x + a) g
    ((0 :: g).zipWith (· ^^^ ·) (g.map (rsMul a) ++ [0]))) |>.take 4

/-- The remainder of data(x) · x^4 by the generator: the check bytes of a valid unit. -/
def rsCheck (data : List Byte) : List Nat :=
  data.foldr (fun b (r : List Nat) =>
    -- shift in coefficient b: r(x)·x + b·x^4
    let top := (r.getD 3 0) ^^^ b.toNat
    ((0 :: r.take 3).zipWith (· ^^^ ·) (rsGen.map (rsMul top)))) [0, 0, 0, 0]

/-- The pattern of degree below 4 whose syndromes are S0 = 1 and S1 = S2 = S3 = 0 (R82). -/
def poisonPat : List Nat :=
  let p := forN 3 [1] (fun g i =>
    let a := rsPow (i + 1)
    (0 :: g).zipWith (· ^^^ ·) (g.map (rsMul a) ++ [0]))
  let v := p.foldl (· ^^^ ·) 0
  p.map (rsMul (gfPow 0x11D v 254))

/-- The codeword that a writer stores: valid, or with the poison syndrome. -/
def encodeUnit (data : List Byte) (poison : Bool) : List Byte :=
  let c := rsCheck data
  let c := if poison then c.zipWith (· ^^^ ·) poisonPat else c
  c.map (BitVec.ofNat 8) ++ data

/-- R81: what the controller finds in a unit it reads. -/
inductive Ecc where
  | clean | corrected | poisoned | uncorrectable
deriving DecidableEq, Repr

/-- The position of a single-symbol error that explains the syndromes, if any. -/
def errPos (s : List Nat) : Option Nat :=
  let g (i : Nat) : Nat := s.getD i 0
  if g 0 = 0 then none else
  (List.range 36).find? (fun j =>
    let a := rsPow j
    rsMul (g 0) a == g 1 && rsMul (g 1) a == g 2 && rsMul (g 2) a == g 3)

/-- R81: decode a codeword: the verdict and the codeword after correction. -/
def decodeUnit (cw : List Byte) : Ecc × List Byte :=
  let s := syndromes cw
  if s = [0, 0, 0, 0] then (.clean, cw)
  else if s = [1, 0, 0, 0] then (.poisoned, cw)
  else match errPos s with
    | some j => (.corrected, cw.set j (cw.getD j 0 ^^^ BitVec.ofNat 8 (s.getD 0 0)))
    | none => (.uncorrectable, cw)

end Sys2Proof.Machine
end

