-- ==== Sys2Proof/Machine/Float.lean ====
section
/-! DEFINITION. Number formats and exact arithmetic: spec/07_number_formats.md R158 to R163, spec/05_stethar_units.md
R101 and R104, spec/09_vector_engine.md R222 and R223. A finite number is held exactly as a signed integer times a
power of two, and is narrowed once, at the end. -/

namespace Sys2Proof.Machine

/-- An exact binary number m × 2^e. -/
structure Dy where
  m : Int
  e : Int
deriving DecidableEq, Repr

/-- 2^n for a natural exponent read from an integer; 1 below 0. -/
def p2 (n : Int) : Int := (2 ^ n.toNat : Nat)

/-- The two numbers' mantissas over their common (lower) exponent. -/
def Dy.align (a b : Dy) : Int × Int × Int :=
  let e := min a.e b.e
  (a.m * p2 (a.e - e), b.m * p2 (b.e - e), e)

def Dy.add (a b : Dy) : Dy :=
  if a.m = 0 then b else if b.m = 0 then a else
  let (x, y, e) := Dy.align a b
  ⟨x + y, e⟩

def Dy.neg (a : Dy) : Dy := ⟨-a.m, a.e⟩
def Dy.sub (a b : Dy) : Dy := Dy.add a b.neg
def Dy.mul (a b : Dy) : Dy := ⟨a.m * b.m, a.e + b.e⟩
def Dy.abs (a : Dy) : Dy := ⟨a.m.natAbs, a.e⟩
def Dy.lt (a b : Dy) : Bool := let (x, y, _) := Dy.align a b; decide (x < y)
def Dy.le (a b : Dy) : Bool := let (x, y, _) := Dy.align a b; decide (x ≤ y)
def Dy.eq (a b : Dy) : Bool := let (x, y, _) := Dy.align a b; decide (x = y)
def Dy.ofInt (i : Int) : Dy := ⟨i, 0⟩
/-- The exact product of a number with 2^k. -/
def Dy.scale (a : Dy) (k : Int) : Dy := ⟨a.m, a.e + k⟩
/-- The greatest integer not above the number. -/
def Dy.floor (a : Dy) : Int := if 0 ≤ a.e then a.m * p2 a.e else a.m / p2 (-a.e)

/-- Round a / b to the nearest integer, ties to even. -/
def rneDiv (a b : Nat) : Nat :=
  let q := a / b
  let r := a % b
  if b < 2 * r then q + 1 else if 2 * r = b && q % 2 == 1 then q + 1 else q

/-- The nearest integer, ties to even. -/
def Dy.rne (a : Dy) : Int :=
  if 0 ≤ a.e then a.m * p2 a.e
  else
    let r : Int := rneDiv a.m.natAbs (p2 (-a.e)).toNat
    if a.m < 0 then -r else r

/-- One floating-point encoding of R159. -/
structure FFmt where
  eb : Nat
  mb : Nat
  bias : Nat
  hasInf : Bool
  nan : Nat
deriving DecidableEq, Repr

def fp32 : FFmt := ⟨8, 23, 127, true, 0x7FC00000⟩
def bf16 : FFmt := ⟨8, 7, 127, true, 0x7FC0⟩
def fp16 : FFmt := ⟨5, 10, 15, true, 0x7E00⟩
def e4m3 : FFmt := ⟨4, 3, 7, false, 0x7F⟩
def e5m2 : FFmt := ⟨5, 2, 15, true, 0x7E⟩

/-- The code of the largest finite value. -/
def FFmt.maxFin (f : FFmt) : Nat :=
  if f.hasInf then (2 ^ f.eb - 2) * 2 ^ f.mb + (2 ^ f.mb - 1) else (2 ^ f.eb - 1) * 2 ^ f.mb + (2 ^ f.mb - 2)

/-- The sign bit's weight. -/
def FFmt.signW (f : FFmt) : Nat := 2 ^ (f.eb + f.mb)

/-- A number that an operation reads: not a number, or a sign and an exact magnitude. -/
inductive FV where
  | nan
  | fin (neg : Bool) (m : Nat) (e : Int)
deriving DecidableEq, Repr

/-- The exact value of a finite number; 0 for a NaN. -/
def FV.dy : FV → Dy
  | .nan => ⟨0, 0⟩
  | .fin neg m e => ⟨if neg then -(m : Int) else m, e⟩

def FV.isNan : FV → Bool
  | .nan => true
  | .fin .. => false

/-- The number a code of format f stands for, and whether it is an infinity, which R161 reads as the largest
finite value of its sign. -/
def decodeF (f : FFmt) (x : Nat) : FV × Bool :=
  let ma := x % 2 ^ f.mb
  let ex := (x / 2 ^ f.mb) % 2 ^ f.eb
  let neg := bitOf x (f.eb + f.mb)
  let top := 2 ^ f.eb - 1
  if f.hasInf && ex == top then
    if ma = 0 then (.fin neg (2 ^ (f.mb + 1) - 1) ((top : Int) - 1 - f.bias - f.mb), true) else (.nan, false)
  else if !f.hasInf && ex == top && ma == 2 ^ f.mb - 1 then (.nan, false)
  else if ex = 0 then (.fin neg ma (1 - (f.bias : Int) - f.mb), false)
  else (.fin neg (ma + 2 ^ f.mb) ((ex : Int) - f.bias - f.mb), false)

/-- R160: round a magnitude m × 2^e to nearest even in format f, keep subnormals, saturate to the largest finite
value. The truth value tells whether it saturated. -/
def roundMag (f : FFmt) (m : Nat) (e : Int) : Nat × Bool :=
  if m = 0 then (0, false) else
  let big : Int := (Nat.log2 m : Int) + e
  if (2 ^ f.eb : Nat) < big - 1 then (f.maxFin, true) else
  let q : Int := max (big - f.mb) (1 - (f.bias : Int) - f.mb)
  let n : Nat := if q ≤ e then m * 2 ^ (e - q).toNat else rneDiv m (2 ^ (q - e).toNat)
  let be : Nat := (q + f.bias + f.mb).toNat
  let code : Nat := if n < 2 ^ f.mb then n else be * 2 ^ f.mb + (n - 2 ^ f.mb)
  if f.maxFin < code then (f.maxFin, true) else (code, false)

/-- R160 on a signed magnitude: the code and whether it saturated. -/
def roundF (f : FFmt) (neg : Bool) (m : Nat) (e : Int) : Nat × Bool :=
  let (c, s) := roundMag f m e
  (if neg then c + f.signW else c, s)

/-- The code of an exact result; z is the sign a zero takes. -/
def roundDy (f : FFmt) (z : Bool) (d : Dy) : Nat × Bool :=
  if d.m = 0 then (if z then f.signW else 0, false) else roundF f (decide (d.m < 0)) d.m.natAbs d.e

/-- The result of an operation: the code, whether it saturated, and how many infinite inputs it read (R161). -/
structure FR where
  v : Nat
  sat : Bool
  inf : Nat
deriving DecidableEq, Repr

/-- The sign of a zero sum: minus only when both addends are minus. -/
def zeroSum (a b : FV) : Bool :=
  match a, b with
  | .fin na _ _, .fin nb _ _ => na && nb
  | _, _ => false

def FV.neg : FV → FV
  | .nan => .nan
  | .fin n m e => .fin (!n) m e

/-- The exact product. -/
def fvMul (a b : FV) : FV :=
  match a, b with
  | .fin na ma ea, .fin nb mb eb => .fin (na != nb) (ma * mb) (ea + eb)
  | _, _ => .nan

/-- The exact sum, rounded once into format f. -/
def fvAddTo (f : FFmt) (a b : FV) : Nat × Bool :=
  match a, b with
  | .fin .., .fin .. =>
    let s := Dy.add a.dy b.dy
    -- an exact cancellation of unlike signs gives +0
    roundDy f (zeroSum a b) s
  | _, _ => (f.nan, false)

/-- The exact number, rounded once into format f. -/
def fvTo (f : FFmt) : FV → Nat × Bool
  | .nan => (f.nan, false)
  | .fin n m e => roundF f n m e

def fpAdd (f : FFmt) (x y : Nat) : FR :=
  let (a, i) := decodeF f x; let (b, j) := decodeF f y
  let (v, s) := fvAddTo f a b
  ⟨v, s, b2n i + b2n j⟩

def fpSub (f : FFmt) (x y : Nat) : FR :=
  let (a, i) := decodeF f x; let (b, j) := decodeF f y
  let (v, s) := fvAddTo f a b.neg
  ⟨v, s, b2n i + b2n j⟩

def fpMul (f : FFmt) (x y : Nat) : FR :=
  let (a, i) := decodeF f x; let (b, j) := decodeF f y
  let (v, s) := fvTo f (fvMul a b)
  ⟨v, s, b2n i + b2n j⟩

/-- x × y + z, rounded once. -/
def fpFma (f : FFmt) (x y z : Nat) : FR :=
  let (a, i) := decodeF f x; let (b, j) := decodeF f y; let (c, k) := decodeF f z
  let (v, s) := fvAddTo f (fvMul a b) c
  ⟨v, s, b2n i + b2n j + b2n k⟩

/-- Exact comparison of two numbers; none when either is a NaN. +0 and -0 compare equal. -/
def fvCmp (a b : FV) : Option Ordering :=
  match a, b with
  | .fin .., .fin .. => some (if Dy.lt a.dy b.dy then .lt else if Dy.eq a.dy b.dy then .eq else .gt)
  | _, _ => none

/-- R101 and R222: the greater (or lesser) of two numbers; a tie, +0 and -0 among them, returns x. -/
def fpMinMax (f : FFmt) (isMax : Bool) (x y : Nat) : FR :=
  let (a, i) := decodeF f x; let (b, j) := decodeF f y
  let pick : FV × Bool := match fvCmp a b with
    | none => (.nan, false)
    | some o => if isMax then (if o = .lt then (b, j) else (a, i)) else (if o = .gt then (b, j) else (a, i))
  let (v, _) := fvTo f pick.1
  ⟨v, false, b2n i + b2n j⟩

/-- The comparisons a compare operation makes. -/
inductive Cmp where
  | gt | ge | eq
deriving DecidableEq, Repr

/-- Does the ordering satisfy the comparison? A NaN (none) satisfies none. -/
def Cmp.holds : Cmp → Option Ordering → Bool
  | _, none => false
  | .gt, some o => o == .gt
  | .ge, some o => o != .lt
  | .eq, some o => o == .eq

/-- Saturate to n-bit two's complement: the value and whether it saturated. -/
def satI (n : Nat) (i : Int) : Int × Bool :=
  let hi : Int := (2 ^ (n - 1) : Nat) - 1
  let lo : Int := -(2 ^ (n - 1) : Nat)
  if hi < i then (hi, true) else if i < lo then (lo, true) else (i, false)

/-- An n-bit saturated result as a code. -/
def satCode (n : Nat) (i : Int) : Nat × Bool :=
  let (v, s) := satI n i
  (trunc n v, s)

/-- The format codes of R158. -/
inductive NFmt where
  | fp32 | bf16 | fp16 | e4m3 | e5m2 | int8 | int4 | c4 | c8 | vq4 | vq8 | int16 | int32
deriving DecidableEq, Repr

/-- R158: the format a 4-bit code names; 0xD to 0xF are reserved. -/
def NFmt.ofCode (n : Nat) : Option NFmt :=
  [NFmt.fp32, .bf16, .fp16, .e4m3, .e5m2, .int8, .int4, .c4, .c8, .vq4, .vq8, .int16, .int32][n]?

/-- The floating-point encoding of a format, where it has one. -/
def NFmt.ff : NFmt → Option FFmt
  | .fp32 => some Machine.fp32
  | .bf16 => some Machine.bf16
  | .fp16 => some Machine.fp16
  | .e4m3 => some Machine.e4m3
  | .e5m2 => some Machine.e5m2
  | _ => none

/-- The width of a two's-complement format. -/
def NFmt.intBits : NFmt → Option Nat
  | .int8 => some 8
  | .int4 => some 4
  | .int16 => some 16
  | .int32 => some 32
  | _ => none

/-- Bits of storage per value (R158). -/
def NFmt.width : NFmt → Nat
  | .fp32 => 32 | .bf16 => 16 | .fp16 => 16 | .e4m3 => 8 | .e5m2 => 8 | .int8 => 8 | .int4 => 4
  | .c4 => 4 | .c8 => 8 | .vq4 => 2 | .vq8 => 2 | .int16 => 16 | .int32 => 32

/-- The number a code of a plain format stands for, and whether it is an infinity. -/
def decodeN (f : NFmt) (x : Nat) : FV × Bool :=
  match f.ff with
  | some ff => decodeF ff x
  | none =>
    match f.intBits with
    | some n => let i := sext n x; (.fin (decide (i < 0)) i.natAbs 0, false)
    | none => (.fin false 0 0, false)

/-- A conversion's result: the code, whether it saturated or clipped, and what it adds to NONFIN_CNT (R161). -/
structure Conv where
  code : Nat
  sat : Bool
  nonfin : Nat
deriving DecidableEq, Repr

/-- R160 to R162: convert a number into a plain format. INT8 and INT4 saturate to the symmetric range. -/
def convTo (f : NFmt) (v : FV) (wasInf : Bool) : Conv :=
  match f.ff with
  | some ff => let (c, s) := fvTo ff v; ⟨c, s, b2n wasInf⟩
  | none =>
    match f.intBits with
    | none => ⟨0, false, 0⟩
    | some n =>
      match v with
      | .nan => ⟨0, false, 1⟩
      | .fin .. =>
        let i := v.dy.rne
        let hi : Int := (2 ^ (n - 1) : Nat) - 1
        let lo : Int := if n ≤ 8 then -hi else -hi - 1
        let c := clampI lo hi i
        ⟨trunc n c, decide (c ≠ i), b2n wasInf⟩

/-- A 16-bit source of the Stethar units is an infinity of BF16. -/
def inf16 (isInt : Bool) (x : Nat) : Bool := !isInt && x % 2 ^ 15 == 0x7F80

/-- Widen a 16-bit source of the Stethar units to its 32-bit register format (R101); a BF16 infinity reads as the largest
finite value of BF16 (R161). -/
def widen16 (isInt : Bool) (x : Nat) : Nat :=
  if isInt then trunc 32 (sext 16 x) else (x % 2 ^ 16 - b2n (inf16 isInt x)) * 2 ^ 16

/-! ### The exp/log table of R104 -/

/-- E[i] = 2^(i/64), i = 0 to 64, each rounded to FP32 (R104). -/
def expTab : List Nat :=
  [0x3F800000, 0x3F8164D2, 0x3F82CD87, 0x3F843A29, 0x3F85AAC3, 0x3F871F62, 0x3F88980F, 0x3F8A14D5, 0x3F8B95C2,
   0x3F8D1ADF, 0x3F8EA43A, 0x3F9031DC, 0x3F91C3D3, 0x3F935A2B, 0x3F94F4F0, 0x3F96942D, 0x3F9837F0, 0x3F99E046,
   0x3F9B8D3A, 0x3F9D3EDA, 0x3F9EF532, 0x3FA0B051, 0x3FA27043, 0x3FA43516, 0x3FA5FED7, 0x3FA7CD94, 0x3FA9A15B,
   0x3FAB7A3A, 0x3FAD583F, 0x3FAF3B79, 0x3FB123F6, 0x3FB311C4, 0x3FB504F3, 0x3FB6FD92, 0x3FB8FBAF, 0x3FBAFF5B,
   0x3FBD08A4, 0x3FBF179A, 0x3FC12C4D, 0x3FC346CD, 0x3FC5672A, 0x3FC78D75, 0x3FC9B9BE, 0x3FCBEC15, 0x3FCE248C,
   0x3FD06334, 0x3FD2A81E, 0x3FD4F35B, 0x3FD744FD, 0x3FD99D16, 0x3FDBFBB8, 0x3FDE60F5, 0x3FE0CCDF, 0x3FE33F89,
   0x3FE5B907, 0x3FE8396A, 0x3FEAC0C7, 0x3FED4F30, 0x3FEFE4BA, 0x3FF28177, 0x3FF5257D, 0x3FF7D0DF, 0x3FFA83B3,
   0x3FFD3E0C, 0x40000000]

/-- L[i] = log2(1 + i/64), i = 0 to 64, each rounded to FP32 (R104). -/
def logTab : List Nat :=
  [0x00000000, 0x3CB73CB4, 0x3D35D69C, 0x3D8759C5, 0x3DB31FB8, 0x3DDE4212, 0x3E0462C4, 0x3E19574F, 0x3E2E00D2,
   0x3E42615F, 0x3E567AF1, 0x3E6A4F72, 0x3E7DE0B6, 0x3E88983F, 0x3E92203D, 0x3E9B8926, 0x3EA4D3C2, 0x3EAE00D2,
   0x3EB7110E, 0x3EC0052B, 0x3EC8DDD4, 0x3ED19BB0, 0x3EDA3F60, 0x3EE2C97D, 0x3EEB3A9F, 0x3EF39355, 0x3EFBD42B,
   0x3F01FED4, 0x3F060828, 0x3F0A0650, 0x3F0DF989, 0x3F11E20F, 0x3F15C01A, 0x3F1993E3, 0x3F1D5DA0, 0x3F211D84,
   0x3F24D3C2, 0x3F28808C, 0x3F2C2411, 0x3F2FBE80, 0x3F335004, 0x3F36D8CB, 0x3F3A58FF, 0x3F3DD0C8, 0x3F41404F,
   0x3F44A7BA, 0x3F480731, 0x3F4B5ED7, 0x3F4EAED0, 0x3F51F740, 0x3F553848, 0x3F587209, 0x3F5BA4A4, 0x3F5ED039,
   0x3F61F4E5, 0x3F6512C7, 0x3F6829FB, 0x3F6B3A9F, 0x3F6E44CD, 0x3F7148A1, 0x3F744636, 0x3F773DA4, 0x3F7A2F04,
   0x3F7D1A71, 0x3F800000]

/-- T[i] + (T[i+1] - T[i]) × t, the difference rounded to FP32 and the multiply-add rounded once (R104). -/
def tabInterp (tab : List Nat) (i : Nat) (t : Dy) : Nat :=
  let a := tab.getD i 0
  let d := (fpSub fp32 (tab.getD (i + 1) 0) a).v
  let (df, _) := decodeF fp32 d
  let (af, _) := decodeF fp32 a
  (roundDy fp32 false (Dy.add af.dy (Dy.mul df.dy t))).1

/-- R104: EXP2 of a Stethar unit. -/
def unitExp2 (x : Nat) : FR :=
  match decodeF fp32 x with
  | (.nan, _) => ⟨fp32.nan, false, 0⟩
  | (v, i) =>
    if Dy.lt v.dy (Dy.ofInt (-126)) then ⟨0, false, b2n i⟩
    else if Dy.le (Dy.ofInt 128) v.dy then ⟨fp32.maxFin, true, b2n i⟩
    else
      let n := v.dy.floor
      let f := Dy.sub v.dy (Dy.ofInt n)
      let f64 := f.scale 6
      let k := f64.floor
      let t := Dy.sub f64 (Dy.ofInt k)
      let (p, _) := decodeF fp32 (tabInterp expTab k.toNat t)
      let (c, s) := roundDy fp32 false (p.dy.scale n)
      ⟨c, s, b2n i⟩

/-- R104: LOG2 of a Stethar unit. Log of zero is -max finite and of a negative number the canonical NaN; neither
is a saturation. -/
def unitLog2 (x : Nat) : FR :=
  match decodeF fp32 x with
  | (.nan, _) => ⟨fp32.nan, false, 0⟩
  | (.fin neg m e, i) =>
    if m = 0 then ⟨fp32.signW + fp32.maxFin, false, b2n i⟩
    else if neg then ⟨fp32.nan, false, b2n i⟩
    else
      let l := Nat.log2 m
      let f : Dy := ⟨(m : Int) - p2 l, -(l : Int)⟩
      let f64 := f.scale 6
      let k := f64.floor
      let t := Dy.sub f64 (Dy.ofInt k)
      let (q, _) := decodeF fp32 (tabInterp logTab k.toNat t)
      let (c, s) := roundDy fp32 false (Dy.add (Dy.ofInt ((l : Int) + e)) q.dy)
      ⟨c, s, b2n i⟩

/-! ### The vector engine's functions: a free value inside the bound of R223 -/

/-- 2^f for f in [0, 1) as a fixed-point number of 64 fraction bits (sum of (f ln 2)^k / k!). -/
def exp2Fix (f : Dy) : Nat :=
  let y : Nat := ((Dy.mul f ⟨12786308645202655660, 0⟩).floor).toNat
  (forN 30 (2 ^ 64, 2 ^ 64) (fun (acc : Nat × Nat) k =>
    let t := acc.2 * y / 2 ^ 64 / (k + 1)
    (acc.1 + t, t))).1

/-- log2 of s / 2^96 in [1, 2) as a fixed-point number of 48 fraction bits, bit by bit. -/
def log2Fix (s : Nat) : Nat :=
  (forN 48 (s, 0) (fun (acc : Nat × Nat) _ =>
    let q := acc.1 * acc.1 / 2 ^ 96
    if 2 ^ 97 ≤ q then (q / 2, 2 * acc.2 + 1) else (q, 2 * acc.2))).2

/-- Take the free code y where |y - t| is at most tol, else the code nearest to t. -/
def withinOr (y : Nat) (t tol : Dy) : Nat × Bool :=
  match decodeF fp32 (y % 2 ^ 32) with
  | (.fin n m e, false) =>
    if Dy.le (Dy.sub (FV.fin n m e).dy t).abs tol then (y % 2 ^ 32, false) else roundDy fp32 false t
  | _ => roundDy fp32 false t

/-- The tolerance of a relative bound of 2^-22, plus half a quantum where the result is subnormal. -/
def relTol (t : Dy) : Dy :=
  let r := t.abs.scale (-22)
  if Dy.lt t.abs ⟨1, -126⟩ then Dy.add r ⟨1, -150⟩ else r

/-- R223: EXP2 of the vector engine: a free value of relative error at most 2^-22. -/
def vxExp2 (x : Nat) : FR :=
  match decodeF fp32 x with
  | (.nan, _) => ⟨fp32.nan, false, 0⟩
  | (v, i) =>
    if Dy.lt v.dy (Dy.ofInt (-149)) then ⟨0, false, b2n i⟩
    else if Dy.le (Dy.ofInt 128) v.dy then ⟨fp32.maxFin, true, b2n i⟩
    else
      let n := v.dy.floor
      let t : Dy := ⟨exp2Fix (Dy.sub v.dy (Dy.ofInt n)), n - 64⟩
      let (c, s) := withinOr (Config.vxExp2 (BitVec.ofNat 32 x)).toNat t (relTol t)
      ⟨c, s, b2n i⟩

/-- The LOG2 code of a positive number m × 2^e: a free value of absolute error at most 2^-22, or half a unit in the last
place where FP32 is coarser than that. -/
def log2Of (x m : Nat) (e : Int) : Nat × Bool :=
  let l := Nat.log2 m
  let t := Dy.add (Dy.ofInt ((l : Int) + e)) ⟨log2Fix (m * 2 ^ (96 - l)), -48⟩
  let half : Dy := ⟨1, (Nat.log2 t.m.natAbs : Int) + t.e - 24⟩
  let tol : Dy := if Dy.lt half ⟨1, -22⟩ then ⟨1, -22⟩ else half
  withinOr (Config.vxLog2 (BitVec.ofNat 32 x)).toNat t tol

/-- R223: LOG2 of the vector engine. -/
def vxLog2 (x : Nat) : FR :=
  match decodeF fp32 x with
  | (.nan, _) => ⟨fp32.nan, false, 0⟩
  | (.fin neg m e, i) =>
    if m = 0 then ⟨fp32.signW + fp32.maxFin, false, b2n i⟩
    else if neg then ⟨fp32.nan, false, b2n i⟩
    else
      let (c, s) := log2Of x m e
      ⟨c, s, b2n i⟩

/-- The square root of n × 2^60, rounded down, by 64 halvings of the interval that holds it. -/
def sqrtFix (n : Nat) : Nat :=
  let hi := 2 ^ ((Nat.log2 n + 60) / 2 + 1)
  (forN (Nat.log2 hi + 1) (0, hi) (fun (p : Nat × Nat) _ =>
    let mid := (p.1 + p.2) / 2
    if mid * mid ≤ n * 2 ^ 60 then (mid, p.2) else (p.1, mid))).1

/-- R223: RSQRT: relative error at most 2^-22; of zero max finite, of a negative number NaN. -/
def vxRsqrt (x : Nat) : FR :=
  match decodeF fp32 x with
  | (.nan, _) => ⟨fp32.nan, false, 0⟩
  | (.fin neg m e, i) =>
    if m = 0 then ⟨fp32.maxFin, false, b2n i⟩
    else if neg then ⟨fp32.nan, false, b2n i⟩
    else
      -- m' × 2^(2h) with m' = m or 2m
      let m' := if e % 2 = 0 then m else 2 * m
      let h := (if e % 2 = 0 then e else e - 1) / 2
      let r := sqrtFix (m' * 2 ^ 60)
      let t : Dy := ⟨(2 ^ 140 / r : Nat), 60 - 140 - h⟩
      let (c, s) := withinOr (Config.vxRsqrt (BitVec.ofNat 32 x)).toNat t (relTol t)
      ⟨c, s, b2n i⟩

/-- R223: RCP: relative error at most 2^-22; of a zero, max finite of its sign. -/
def vxRcp (x : Nat) : FR :=
  match decodeF fp32 x with
  | (.nan, _) => ⟨fp32.nan, false, 0⟩
  | (.fin neg m e, i) =>
    if m = 0 then ⟨(if neg then fp32.signW else 0) + fp32.maxFin, false, b2n i⟩
    else
      let t0 : Nat := 2 ^ 120 / m
      let t : Dy := ⟨if neg then -(t0 : Int) else t0, -120 - e⟩
      let (c, s) := withinOr (Config.vxRcp (BitVec.ofNat 32 x)).toNat t (relTol t)
      ⟨c, s, b2n i⟩

end Sys2Proof.Machine
end

