-- ==== Sys2Proof/Machine/Memory.lean ====
section
/-! DEFINITION. Tower memory and SRAM: the address mapping (R19 to R30), stored units with their check bits and
poison (R80 to R83), the requests of a channel, its write-combining buffer and atomic queue and the order among them (R67,
R70, R75 to R79), the crypt port (R387), and loads and stores of byte ranges. -/

namespace Sys2Proof.Machine

/-! ### The canonical form -/

/-- Memory keeps strictly rising addresses and lists no zero byte, since an unlisted byte reads as zero (R406;
assumption log 5). -/
abbrev Memory.wf (m : List Host.Cell) : Prop := mwf (0 : BitVec 8) m = true

def cellGet (m : List Host.Cell) (a : Nat) : Byte := mget 0 m a
def cellSet (m : List Host.Cell) (a : Nat) (b : Byte) : List Host.Cell := mset 0 m a b

/-- Read n consecutive bytes. -/
def cellsGet (m : List Host.Cell) (a n : Nat) : List Byte := (List.range n).map (fun i => cellGet m (a + i))

/-- Write consecutive bytes. -/
def cellsSet : List Host.Cell → Nat → List Byte → List Host.Cell
  | m, _, [] => m
  | m, a, b :: bs => cellsSet (cellSet m a b) (a + 1) bs

/-! ### Device addresses (R19 to R28) -/

def daRegion (da : Nat) : Nat := (da >>> 42) % 64
def daTower (da : Nat) : Nat := (da >>> 37) % 32
def daOff (da : Nat) : Nat := da % 2 ^ 37

/-- Does a 64-bit field name region 0 (R20)? -/
def inR0 (da : Nat) : Bool := decide (da < 2 ^ 42)

/-- Where a region 0 address lies: tower, logical channel, b, row and column (R28). -/
structure Loc where
  t : Nat
  ch : Nat
  b : Nat
  row : Nat
  col : Nat
deriving DecidableEq, Repr

def Loc.deck (l : Loc) : Nat := l.b % 16
def Loc.bank (l : Loc) : Nat := l.b / 16
def Loc.seg (l : Loc) : Nat := l.col / 128
def Loc.unit (l : Loc) : Nat := l.col / 32

/-- R28 with the split and granule of the tower given. -/
def mapDa (gib gran da : Nat) : Loc :=
  let o := daOff da
  let n := (128 - gib) * 2 ^ 30
  if o < n then
    let g := o / gran
    let l := (g / 32) * gran + o % gran
    let rp := l / 2048
    let row := rp / 64
    ⟨daTower da, (g ^^^ (g >>> 5)) % 32, (rp % 64) ^^^ (row % 64), row, l % 2048⟩
  else
    let q := o - n
    let f := q / 32768
    let cg := f % 128
    ⟨daTower da, cg % 32, (cg / 32) * 16 + (q % 32768) / 2048, 32768 - 256 * gib + f / 128, q % 2048⟩

/-- The device address of a location: R28 run backwards. -/
def unmapDa (gib gran : Nat) (l : Loc) : Nat :=
  if l.row < 32768 - 256 * gib then
    let rp := l.row * 64 + (l.b ^^^ (l.row % 64))
    let lb := rp * 2048 + l.col
    let q := lb / gran
    -- granule index g has g / 32 = q; its low five bits undo the XOR
    let lo := l.ch ^^^ (q % 32)
    l.t * 2 ^ 37 + (q * 32 + lo) * gran + lb % gran
  else
    let f := (l.row - (32768 - 256 * gib)) * 128 + (l.b / 16) * 32 + l.ch
    l.t * 2 ^ 37 + (128 - gib) * 2 ^ 30 + f * 32768 + (l.b % 16) * 2048 + l.col

/-- TWR.MEMMAP.BENCH_GIB and the granule in bytes. -/
def State.gib (s : State) (t : Nat) : Nat := s.fld (twrR t 0x80) 15 8
def State.gran (s : State) (t : Nat) : Nat := 256 * 2 ^ s.fld (twrR t 0x80) 2 0

/-- The first offset of the bench region (R27). -/
def State.benchBase (s : State) (t : Nat) : Nat := (128 - s.gib t) * 2 ^ 30

def State.loc (s : State) (da : Nat) : Loc := mapDa (s.gib (daTower da)) (s.gran (daTower da)) da
def State.daOfLoc (s : State) (l : Loc) : Nat := unmapDa (s.gib l.t) (s.gran l.t) l

/-- Does an address lie in the bench region of its tower? -/
def State.inBench (s : State) (da : Nat) : Bool := decide (s.benchBase (daTower da) ≤ daOff da)

/-- MEM.CH_REPAIR.LOGICAL of a controller; 255 none. -/
def State.logical (s : State) (t c : Nat) : Nat := s.fld (memR t c 0x98) 23 16

/-- R29: the physical channel that serves a logical channel of a tower. -/
def State.phys (s : State) (t ch : Nat) : Nat :=
  ((List.range 33).find? (fun c => s.logical t c == ch)).getD ch

/-- Key of a stored unit: tower, physical channel, b, row and unit within the row. -/
def unitKey (t c b row unit : Nat) : Nat := (((t * 33 + c) * 64 + b) * 32768 + row) * 64 + unit

/-- The stored codeword of a unit: check bytes, then data. -/
def State.rawUnit (s : State) (k : Nat) : List Byte := cellsGet s.chk (k * 4) 4 ++ cellsGet s.mem (k * 32) 32

def State.setRawUnit (s : State) (k : Nat) (cw : List Byte) : State :=
  { s with mem := cellsSet s.mem (k * 32) ((cw.drop 4).take 32), chk := cellsSet s.chk (k * 4) (cw.take 4) }

/-- Store 32 data bytes with fresh check bits, or with the poison syndrome (R82). -/
def State.putUnit (s : State) (k : Nat) (data : List Byte) (poison : Bool) : State :=
  s.setRawUnit k (encodeUnit data poison)

/-- Alter symbols of a codeword: index 0 to 31 data, 32 to 35 check. -/
def applyErrs (cw : List Byte) (errs : Errs) : List Byte :=
  errs.foldl (fun cw (i, x) =>
    let j := if i.val < 32 then i.val + 4 else i.val - 32
    cw.set j (cw.getD j 0 ^^^ x)) cw

/-! ### Repair of a channel: what starts it (R90, R93) -/

/-- The spare is free: it serves no channel, no repair fills it and it is not FAILED. -/
def State.spareFree (s : State) (t : Nat) : Bool :=
  (s.tower t).repair.isNone && decide (32 ≤ s.logical t 32) && s.fld (memR t 32 0x14) 31 28 != 4

/-- A condition of R90 for the channel that controller c serves: a repair starts, or the tower leaves service at the
next step boundary where the spare is in use or lost (R93). -/
def State.repairCond (s : State) (t c : Nat) : State :=
  let l := s.logical t c
  if 32 ≤ l then s
  else match (s.tower t).repair with
    | some r => if r.old = c then s else
        ((s.setFld (memR t c 0x98) 3 0 5).flagErr (.mem t c) 21 0 0 none 0 c).modTower t (fun x => { x with oosDue := true })
    | none =>
      if s.spareFree t then
        (s.setFld (memR t c 0x98) 15 0 1).modTower t (fun x => { x with repair := some ⟨l, c, 0, [], 0, false, 0⟩ })
      else
        ((s.setFld (memR t c 0x98) 3 0 5).flagErr (.mem t c) 21 0 0 none 0 c).modTower t (fun x => { x with oosDue := true })

/-- Corrected symbols are counted; 2^CE_LOG2 of them within 1 s meet a condition of R90. -/
def State.countCe (s : State) (t c n : Nat) : State :=
  if n = 0 then s else
  let s := s.bump (memR t c 0xA0) n
  let ts := (List.replicate n s.time ++ (s.chan t c).ceAt).filter (fun x => decide (s.time < x + 1000000000))
  let lim := 2 ^ s.fld (memR t c 0x80) 28 24
  if lim ≤ ts.length then
    let s := (s.modChan t c (fun x => { x with ceAt := [] })).flagErr (.mem t c) 16 0 0 none 0 c
    if s.bit (memR t c 0x80) 8 then s.repairCond t c else s
  else s.modChan t c (fun x => { x with ceAt := ts })

/-- R81 to R83: the controller reads a unit. It answers the data and whether it is poisoned; a corrected unit is
written back corrected, an uncorrectable one is poisoned in place, and the events are counted and recorded. -/
def State.eccRead (s : State) (t c b row unit : Nat) (da : Nat) (errs : Errs) : List Byte × Bool × State :=
  let k := unitKey t c b row unit
  let cw := applyErrs (s.rawUnit k) errs
  match decodeUnit cw with
  | (.clean, cw) => (cw.drop 4, false, s)
  | (.corrected, cw) => (cw.drop 4, false, (s.setRawUnit k cw).countCe t c 1)
  | (.poisoned, cw) =>
    (cw.drop 4, true, (s.bump (memR t c 0xA8) 1).flagErr (.mem t c) 18 0 1 none da c)
  | (.uncorrectable, cw) =>
    (cw.drop 4, true, (((s.putUnit k (cw.drop 4) true).bump (memR t c 0xA4) 1).flagErr (.mem t c) 17 0 1 none da c))

/-- The controllers that a write of a logical channel reaches: the serving one, and the spare during a repair (R91). -/
def State.wrChans (s : State) (t ch : Nat) : List Nat :=
  let c := s.phys t ch
  match (s.tower t).repair with
  | some r => if r.logical = ch && c == r.old then [c, 32] else [c]
  | none => [c]

/-- A write to a unit in mirror repair cancels the repair (R429). -/
def State.cancelMir (s : State) (da : Nat) : State :=
  let t := daTower da
  if (s.tower t).mir.any (fun m => m.bad / 32 == da / 32) then
    s.modTower t (fun x => { x with mir := x.mir.map (fun m => if m.bad / 32 == da / 32 then { m with cancelled := true } else m) })
  else s

/-- R77: write to the array the bytes of one unit that are present (offset within the unit, byte); p marks the write
poisoned. A unit only partly present costs a read-modify-write. -/
def State.arrayWrite (s : State) (da : Nat) (data : List (Nat × Byte)) (p : Bool) : State :=
  let l := s.loc da
  let c := s.phys l.t l.ch
  let put (s : State) (d : List Byte) (p : Bool) : State :=
    (s.wrChans l.t l.ch).foldl (fun s c => s.putUnit (unitKey l.t c l.b l.row l.unit) d p) s
  if data.length = 32 then put s (data.map (·.2)) p
  else
    let s := s.bump (memR l.t c 0xB0) 1
    let (old, bad, s) := s.eccRead l.t c l.b l.row l.unit (da / 32 * 32) []
    let merged := (List.range 32).map (fun i => match data.find? (fun x => x.1 == i) with | some x => x.2 | none => old.getD i 0)
    if bad then put (s.flagErr (.mem l.t c) 25 0 1 none (da / 32 * 32) c) old true
    else put s merged p

/-- The bytes of unit u of a line, by offset within the unit. -/
def unitBytes (data : List (Nat × Byte)) (u : Nat) : List (Nat × Byte) :=
  (data.filter (fun x => x.1 / 32 == u)).map (fun x => (x.1 % 32, x.2))

/-- Perform a line's bytes at the array, unit by unit. -/
def State.lineToArray (s : State) (line : Nat) (data : List (Nat × Byte)) (poison : List Nat) : State :=
  forN 8 s (fun s u =>
    let d := unitBytes data u
    if d.isEmpty then s else s.arrayWrite (line + 32 * u) d (poison.contains u))

/-- Lay later bytes over earlier ones, offsets rising. -/
def overlay (old new : List (Nat × Byte)) : List (Nat × Byte) :=
  (List.range 256).filterMap (fun i =>
    match new.find? (fun x => x.1 == i) with
    | some x => some x
    | none => old.find? (fun x => x.1 == i))

/-! ### Atomic adds (R78, R79) -/

/-- One element of an atomic add: the new code, whether it saturated, and the infinities read. -/
def addElem (af : AddFmt) (a b : Nat) : FR :=
  match af with
  | .int32 => let (c, st) := satCode 32 (sext 32 a + sext 32 b); ⟨c, st, 0⟩
  | .int64 => let (c, st) := satCode 64 (sext 64 a + sext 64 b); ⟨c, st, 0⟩
  | .fp32 => fpAdd fp32 a b
  | .bf16 => fpAdd bf16 a b

def addBytes : AddFmt → Nat
  | .int32 | .fp32 => 4
  | .int64 => 8
  | .bf16 => 2

/-- Add a vector into 32 bytes under an element mask: the new bytes, the saturations and the infinities. -/
def addVec (af : AddFmt) (d : List Byte) (v : BitVec 256) (mask : BitVec 16) : List Byte × Nat × Nat :=
  let w := addBytes af
  let r := (List.range (32 / w)).map (fun i =>
    let a := leNat ((d.drop (i * w)).take w)
    if bitOf mask.toNat i then addElem af a (bitsOf v.toNat (8 * w * i + 8 * w - 1) (8 * w * i)) else ⟨a, false, 0⟩)
  ((r.map (fun x => leBytes w x.v)).flatten, r.countP (fun x => x.sat), sumL (r.map (fun x => x.inf)))

/-- Write back an atomic-queue entry: read, add every addend in arrival order, write. An add to a poisoned unit leaves
it poisoned. -/
def State.atomBack (s : State) (e : AtomE) : State :=
  let l := s.loc e.da
  let c := s.phys l.t l.ch
  let (old, bad, s) := s.eccRead l.t c l.b l.row l.unit e.da []
  if bad then s else
  let (d, sat, inf) := e.adds.foldl (fun (p : List Byte × Nat × Nat) (v, m) =>
    let (d', k, i) := addVec e.af p.1 v m
    (d', p.2.1 + k, p.2.2 + i)) (old, 0, 0)
  let s := (s.wrChans l.t l.ch).foldl (fun s c => s.putUnit (unitKey l.t c l.b l.row l.unit) d false) s
  let s := (if sat + inf = 0 then s else s.bump (memR l.t c 0xB4) (sat + inf)).nonfin (s.stallOf l.t) inf
  if sat = 0 then s else s.flagErr (.mem l.t c) 23 0 0 none e.da c

/-! ### Requests and their order (R67, R70) -/

/-- Two byte ranges overlap. -/
def overlaps (a n b m : Nat) : Bool := decide (a < b + m) && decide (b < a + n)

/-- The line at an address. -/
def lineOf (da : Nat) : Nat := da / 256 * 256

/-- The write-back of an atomic entry, as a request. -/
def AtomE.req (e : AtomE) : Req := ⟨.atomic, e.da, 32, [], false, e.at_, 0, e.no, e.tries, e.rd, none⟩

/-- Every request that a controller holds. -/
def Chn.reqs (x : Chn) : List Req := x.rq ++ x.wq ++ x.nq ++ x.aq.map AtomE.req ++ x.wait

/-- Requests in their order of arrival. -/
def byNo (l : List Req) : List Req :=
  l.foldl (fun acc r => (acc.takeWhile (fun y => decide (y.no ≤ r.no))) ++ r :: (acc.dropWhile (fun y => decide (y.no ≤ r.no)))) []

/-- R79: an add joins the newest entry of its unit where that has its format and is not to be written back; else it opens an
entry. None: all 16 slots are in use. -/
def Chn.addAtom (x : Chn) (r : Req) (a : AddFmt × BitVec 256 × BitVec 16) : Option Chn :=
  let fresh : Option Chn :=
    if x.aq.length < 16 then some { x with aq := x.aq ++ [⟨r.da, a.1, [a.2], x.now, r.no, false, 0, false⟩] } else none
  match (x.aq.filter (fun e => e.da == r.da)).getLast? with
  | some e =>
    if e.af = a.1 && !e.due then
      some { x with aq := x.aq.map (fun y => if y.no = e.no then { e with adds := e.adds ++ [a.2], at_ := x.now } else y) }
    else fresh
  | none => fresh

/-- R67: a request enters its queue, or waits where the queue is full or others of its kind wait. DESIGN CHOICE (assumption
log 123): the atomic entry that gives its slot up is the oldest. -/
def Chn.offer (x : Chn) (r : Req) : Chn :=
  let later : Chn := { x with wait := x.wait ++ [r] }
  if x.wait.any (fun y => y.kind == r.kind) then later
  else match r.kind with
    | .read => if 64 ≤ x.rq.length then later else { x with rq := x.rq ++ [r] }
    | .write => if 64 ≤ x.wq.length then later else { x with wq := x.wq ++ [r] }
    | .narrow => if 32 ≤ x.nq.length then later else { x with nq := x.nq ++ [r] }
    | .atomic => match r.add.bind (fun a => x.addAtom r a) with
      | some y => y
      | none => { later with aq := match x.aq with | e :: l => { e with due := true } :: l | [] => [] }

/-- A request arrives: it takes the next number and the cycle. -/
def Chn.arrive (x : Chn) (r : Req) : Chn := { x with seq := x.seq + 1 }.offer { r with no := x.seq, at_ := x.now }

/-- The waiting requests enter the queues that have room again. -/
def Chn.takeWaiters (x : Chn) : Chn := x.wait.foldl Chn.offer { x with wait := [] }

/-- A request leaves the controller. -/
def Chn.leave (x : Chn) (no : Nat) : Chn :=
  let keep (r : Req) : Bool := r.no != no
  { x with rq := x.rq.filter keep, wq := x.wq.filter keep, nq := x.nq.filter keep, wait := x.wait.filter keep,
           aq := x.aq.filter (fun e => e.no != no) }.takeWaiters

/-- A change of one request's record. -/
def Chn.modReq (x : Chn) (no : Nat) (f : Req → Req) : Chn :=
  let g (r : Req) : Req := if r.no = no then f r else r
  { x with rq := x.rq.map g, wq := x.wq.map g, nq := x.nq.map g, wait := x.wait.map g,
           aq := x.aq.map (fun e => if e.no = no then { e with tries := (f e.req).tries, rd := (f e.req).rd } else e) }

/-- The write request of a line. -/
def writeReq (line : Nat) (data : List (Nat × Byte)) (poison : List Nat) : Req :=
  ⟨.write, line, 256, data, !poison.isEmpty, 0, sumL (poison.map (fun u => 2 ^ u)), 0, 0, false, none⟩

/-- R76: a write-combining entry is flushed: it enters the write queue. -/
def Chn.flush (x : Chn) (e : Wcb) : Chn :=
  { x with wcb := x.wcb.filter (fun y => y.line != e.line) }.arrive (writeReq e.line e.data e.poison)

/-- The write-combining entry of a line is flushed. -/
def Chn.flushLine (x : Chn) (line : Nat) : Chn := (x.wcb.filter (fun e => e.line == line)).foldl Chn.flush x

/-- Atomic entries are to be written back. -/
def Chn.atomsDue (x : Chn) (p : AtomE → Bool) : Chn :=
  { x with aq := x.aq.map (fun e => if p e then { e with due := true } else e) }

/-- R76, R79: every write-combining entry is flushed, and every atomic entry is to be written back. -/
def Chn.flushAll (x : Chn) : Chn := (x.wcb.foldl Chn.flush x).atomsDue (fun _ => true)

/-- The flush of every channel of a tower (R76). -/
def State.flushTower (s : State) (t : Nat) : State := forN 33 s (fun s c => s.modChan t c Chn.flushAll)

/-! ### A request at the array -/

/-- The stored codewords that a read takes; one that is reissued keeps what it took first (R70). -/
def State.capture (s : State) (r : Req) : Req :=
  if !r.data.isEmpty then r else
  let us := (List.range (r.len / 32)).map (fun i =>
    let l := s.loc (r.da + 32 * i)
    s.rawUnit (unitKey l.t (s.phys l.t l.ch) l.b l.row l.unit))
  { r with data := us.flatten.map (fun b => (0, b)) }

/-- Does a request read a unit before it writes it (R77, R79)? -/
def Req.rmw (r : Req) : Bool :=
  match r.kind with
  | .write => (List.range 8).any (fun u => let n := (unitBytes r.data u).length; decide (0 < n) && decide (n < 32))
  | .atomic => true
  | _ => false

/-- A request writes. -/
def Req.wr (r : Req) : Bool := r.kind == .write || r.kind == .atomic

/-- What a request does at the array; it leaves its queue, and a read is then in flight. -/
def State.perform (s : State) (t c : Nat) (r : Req) : State :=
  match r.kind with
  | .write =>
    (s.lineToArray r.da r.data ((List.range 8).filter (fun u => r.poison && (r.tag >>> u) % 2 == 1))).modChan t c
      (fun x => x.leave r.no)
  | .atomic =>
    let e := ((s.chan t c).aq.find? (fun e => e.no == r.no)).or
      (r.add.map (fun a => ⟨r.da, a.1, [a.2], 0, r.no, true, 0, false⟩))
    (match e with | some e => s.atomBack e | none => s).modChan t c (fun x => x.leave r.no)
  | _ =>
    let r' := s.capture r
    s.modChan t c (fun x => let x := x.leave r.no; { x with flight := x.flight ++ [r'] })

/-- The spare takes the writes of a channel in repair too (R91). -/
def State.touchCopy (s : State) (l : Loc) : State :=
  ((s.wrChans l.t l.ch).drop 1).foldl (fun s c => s.touch l.t c l.b l.row true) s

/-- A request is served out of its turn: its commands at the first cycles that the timing rules permit. -/
def State.serve (s : State) (t c : Nat) (r : Req) : State :=
  let l := s.loc r.da
  let s := if !r.wr || (r.rmw && !r.rd) then s.touch t c l.b l.row false else s
  let s := if r.wr then (s.touch t c l.b l.row true).touchCopy l else s
  let s := if r.kind = .narrow && ((s.chan t c).bank l.b).row.isSome then s.preBank t c l.b else s
  s.perform t c r

/-- Everything that a request to the line of an address must follow is served, in order of arrival (R70, R76, R79). -/
def State.settle (s : State) (da : Nat) : State :=
  let l := s.loc da
  let c := s.phys l.t l.ch
  let line := lineOf da
  let s := if (s.chan l.t c).wcb.any (fun e => e.line == line) then s.modChan l.t c (fun x => x.flushLine line) else s
  (byNo ((s.chan l.t c).reqs.filter (fun r => lineOf r.da == line))).foldl (fun s r => s.serve l.t c r) s

/-- Everything that a channel holds is served (R92). -/
def State.drainChan (s : State) (t c : Nat) : State :=
  let s := s.modChan t c Chn.flushAll
  (byNo (s.chan t c).reqs).foldl (fun s r => s.serve t c r) s

/-- Drain every channel of a tower. -/
def State.drainTower (s : State) (t : Nat) : State := forN 33 s (fun s c => s.drainChan t c)

/-- The controller reads the unit at an address for a requester of the device (R68, R81). -/
def State.unitRead (s : State) (da : Nat) (errs : Errs) : List Byte × Bool × State :=
  let s := s.settle da
  let l := s.loc da
  let c := s.phys l.t l.ch
  (s.touch l.t c l.b l.row false).eccRead l.t c l.b l.row l.unit (da / 32 * 32) errs

/-- A repair engine writes the unit at an address whole. -/
def State.unitWrite (s : State) (da : Nat) (d : List Byte) (poison : Bool) : State :=
  let l := s.loc da
  let s := (s.touch l.t (s.phys l.t l.ch) l.b l.row true).touchCopy l
  (s.wrChans l.t l.ch).foldl (fun s c => s.putUnit (unitKey l.t c l.b l.row l.unit) d poison) s

/-! ### Arrivals (R75, R78) -/

/-- R75 and R79: a write of some bytes of one line arrives at its channel. -/
def State.lineWrite (s : State) (line : Nat) (data : List (Nat × Byte)) (poison : List Nat) : State :=
  let l := s.loc line
  let c := s.phys l.t l.ch
  let us := (List.range 8).filter (fun u => data.any (fun x => x.1 / 32 == u))
  let s := us.foldl (fun s u => s.cancelMir (line + 32 * u)) s
  let x := (s.chan l.t c).atomsDue (fun e => us.any (fun u => e.da == line + 32 * u))
  let full := data.length == 256
  s.setChan l.t c
    (match x.wcb.find? (fun e => e.line == line) with
     | some e =>
       -- a unit newly written whole and clean is no longer poisoned; a partial write never clears poison
       let keep := e.poison.filter (fun u => !((unitBytes data u).length == 32))
       let e' : Wcb :=
         if full then { e with data := data, poison := poison }
         else { e with data := overlay e.data data, poison := (List.range 8).filter (fun u => keep.contains u || poison.contains u) }
       if e'.data.length = 256 then x.flush e'
       else { x with wcb := mapFirst (fun y => y.line == line) (fun _ => e') x.wcb }
     | none =>
       if full || !s.bit (memR l.t c 0x80) 0 then x.arrive (writeReq line data poison)
       else
         let x := match x.wcb with
           | o :: _ => if 64 ≤ x.wcb.length then x.flush o else x
           | [] => x
         { x with wcb := x.wcb ++ [⟨line, data, poison, x.now⟩] })

/-- R78, R79: an atomic add of one unit arrives at its channel. -/
def State.atomAdd (s : State) (da : Nat) (af : AddFmt) (v : BitVec 256) (m : BitVec 16) : State :=
  let l := s.loc da
  s.modChan l.t (s.phys l.t l.ch) (fun x =>
    (x.flushLine (lineOf da)).arrive ⟨.atomic, da, 32, [], false, 0, 0, 0, 0, false, some (af, v, m)⟩)

/-- R67, R76, R79: a read arrives at its channel; what overlaps it in the buffers goes before it. -/
def State.queueRead (s : State) (kind : ReqKind) (da n tag : Nat) : State :=
  let l := s.loc da
  s.modChan l.t (s.phys l.t l.ch) (fun x =>
    ((x.flushLine (lineOf da)).atomsDue (fun e => overlaps e.da 32 da n)).arrive
      ⟨kind, da, n, [], false, 0, tag, 0, 0, false, none⟩)

/-! ### The crypt port (R385 to R389) -/

/-- Who makes an access. -/
inductive Who where
  /-- a BAR2 request of a port -/
  | bar2 (p : Nat)
  /-- a descriptor of a submission: stall, owner slot, and whether it is the MX weight fetcher -/
  | sub (st slot : Nat) (mxw : Bool)
  /-- the Tallyman itself, or the reload of phase 5 -/
  | tally
deriving DecidableEq, Repr

/-- The key region that names an address (R385, R386). -/
def State.keyAt (s : State) (da : Nat) : Option KeyE :=
  ((s.stall (s.stallOf (daTower da))).keys).find? (fun e => decide (e.base ≤ da >>> 21) && decide (da >>> 21 ≤ e.limit))

/-- The key of a region, if it is held. -/
def State.keyHeld (s : State) (da : Nat) (e : KeyE) : Option (BitVec 512) :=
  let st := s.stallOf (daTower da)
  if !e.ok then none
  else if e.kind = 1 then (s.sec.model.find? (fun k => k.1 == st)).map (fun k => k.2.2)
  else (s.sec.ctxKey.find? (fun k => k.1 == ctxNo st e.slot)).map (fun k => k.2)

/-- STL.CTX_STATk.STATE: 0 CLOSED, 1 OPEN, 2 DRAIN, 3 TORN. -/
def State.ctxState (s : State) (st k : Nat) : Nat := s.fld (stlR st (0x404 + 8 * k)) 31 28

/-- R388 and R389: is an access to a key region permitted? -/
def State.keyPermit (s : State) (who : Who) (wr : Bool) (da : Nat) (e : KeyE) : Bool :=
  let st := s.stallOf (daTower da)
  (s.keyHeld da e).isSome &&
  match who with
  | .bar2 p =>
    if e.kind = 1 then wr && s.owner st == p
    else s.ctxState st e.slot == 1 && s.fld (stlR st (0x400 + 8 * e.slot)) 23 22 == p
  | .sub _ slot mxw => if mxw then e.kind == 1 else if 64 ≤ slot then true else e.kind == 2 && e.slot == slot
  | .tally => true

/-- Count and flag a refused access to a key region. -/
def State.keyDeny (s : State) (da : Nat) : State :=
  (s.bump (secR 0x140) 1).flagErr .sec 19 0 0 none da 0

/-- One unit of a store passes the crypt port: the whole unit encrypted; a partial one completed first (R387). -/
def State.cryptUnit (s : State) (who : Who) (e : KeyE) (key : BitVec 512) (da : Nat) (d : List (Nat × Byte)) (p : Bool) :
    List Byte × Bool × State :=
  let raw := e.rawload && e.kind == 1 && (match who with | .bar2 _ => true | _ => false)
  let enc (b : List Byte) : List Byte := if raw then b else xts true key (da / 32) b
  if d.length = 32 then (enc (d.map (·.2)), p, s)
  else
    let (old, bad, s) := (s.bump (secR 0x144) 1).unitRead da []
    if bad then (old, true, s) else
    let plain := if raw then old else xts false key (da / 32) old
    (enc ((List.range 32).map (fun i => match d.find? (fun x => x.1 == i) with | some x => x.2 | none => plain.getD i 0)), p, s)

/-- A store of some bytes of one line through the crypt port. -/
def State.portLine (s : State) (who : Who) (line : Nat) (data : List (Nat × Byte)) (poison : List Nat) : State :=
  match s.keyAt line with
  | none => s.lineWrite line data poison
  | some e =>
    match s.keyHeld line e with
    | none => s
    | some key =>
      let (d, ps, s) := forN 8 (([] : List (Nat × Byte)), ([] : List Nat), s) (fun (acc : List (Nat × Byte) × List Nat × State) u =>
        let ub := unitBytes data u
        if ub.isEmpty then acc else
        let (b, p, s) := acc.2.2.cryptUnit who e key (line + 32 * u) ub (poison.contains u)
        (acc.1 ++ (List.range 32).map (fun i => (32 * u + i, b.getD i 0)), if p then acc.2.1 ++ [u] else acc.2.1, s))
      s.lineWrite line d ps

/-! ### Byte ranges of region 0 -/

/-- A byte and whether it is poisoned. -/
abbrev PB := Byte × Bool

/-- Read one unit through the controller and the crypt port: 32 bytes and the poison. -/
def State.readUnit (s : State) (da : Nat) : List Byte × Bool × State :=
  let u := da / 32 * 32
  let (d, bad, s) := s.unitRead u []
  match s.keyAt u with
  | none => (d, bad, s)
  | some e => if bad then (d, true, s) else
    match s.keyHeld u e with
    | none => (List.replicate 32 0, true, s)
    | some key => (xts false key (u / 32) d, false, s)

/-- Read k consecutive units, first unit at da. -/
def State.readUnits : Nat → State → Nat → List PB × State
  | 0, s, _ => ([], s)
  | k + 1, s, da =>
    let (d, bad, s1) := s.readUnit da
    let (t, s2) := State.readUnits k s1 (da + 32)
    (d.map (fun b => (b, bad)) ++ t, s2)

/-- Read n bytes of region 0. -/
def State.read0 (n : Nat) (s : State) (da : Nat) : List PB × State :=
  let (d, s) := State.readUnits ((da % 32 + n + 31) / 32) s (da / 32 * 32)
  ((d.drop (da % 32)).take n, s)

/-- Cut bytes at line borders. -/
def cutLines : Nat → Nat → List PB → List (Nat × List (Nat × PB))
  | 0, _, _ => []
  | fuel + 1, da, bs =>
    if bs.isEmpty then [] else
    let n := 256 - da % 256
    let here := bs.take n
    (lineOf da, (List.range here.length).map (fun i => (da % 256 + i, here.getD i (0, false)))) :: cutLines fuel (da + n) (bs.drop n)

/-- Write bytes to region 0; a unit that any poisoned byte enters is written poisoned. -/
def State.write0 (s : State) (who : Who) (da : Nat) (bs : List PB) : State :=
  (cutLines (bs.length / 256 + 2) da bs).foldl (fun s (line, d) =>
    let ps := (List.range 8).filter (fun u => d.any (fun x => x.1 / 32 == u && x.2.2))
    s.portLine who line (d.map (fun x => (x.1, x.2.1))) ps) s

/-! ### Region 1 (R23, R271) -/

/-- The aisle of a region 1 address, or none where the offset is reserved. -/
def sramAisle (da : Nat) : Option Nat :=
  let o := daOff da
  if o < 320 * 0x40000 then some (o / 0x40000 / 16)
  else if 0x8000000 ≤ o && o < 0x8000000 + 20 * 0x200000 then some ((o - 0x8000000) / 0x200000)
  else none

/-- Is [da, da + n) inside one scratchpad or one shelf of region 1? -/
def inSram (da n : Nat) : Bool :=
  daRegion da == 1 && decide (da < 2 ^ 48) && (sramAisle da).isSome && decide (0 < n) &&
  (let o := daOff da
   if o < 320 * 0x40000 then o / 0x40000 == (o + n - 1) / 0x40000
   else (o - 0x8000000) / 0x200000 == (o + n - 1 - 0x8000000) / 0x200000 && decide (o + n - 1 < 0x8000000 + 20 * 0x200000))

/-- Read a byte of region 1: a unit whose written mark is clear reads zero, not poisoned. -/
def State.sramByte (s : State) (da : Nat) : PB :=
  if smem s.marks (da / 32) then (cellGet s.sram da, smem s.sramP (da / 32)) else (0, false)

def State.read1 (s : State) (da n : Nat) : List PB := (List.range n).map (fun i => s.sramByte (da + i))

/-- Write bytes of one unit of region 1. A part merges and leaves the poison mark; a whole clean unit clears it. -/
def State.sramUnit (s : State) (u : Nat) (d : List (Nat × PB)) : State :=
  let s := if smem s.marks u then s else
    { s with sram := cellsSet s.sram (u * 32) (List.replicate 32 0), marks := sadd s.marks u, sramP := sdel s.sramP u }
  let p := d.any (fun x => x.2.2)
  let s := { s with sram := d.foldl (fun m x => cellSet m (u * 32 + x.1) x.2.1) s.sram }
  if p then { s with sramP := sadd s.sramP u }
  else if d.length = 32 then { s with sramP := sdel s.sramP u } else s

/-- Cut bytes at unit borders. -/
def cutUnits : Nat → Nat → List PB → List (Nat × List (Nat × PB))
  | 0, _, _ => []
  | fuel + 1, da, bs =>
    if bs.isEmpty then [] else
    let n := 32 - da % 32
    let here := bs.take n
    (da / 32, (List.range here.length).map (fun i => (da % 32 + i, here.getD i (0, false)))) :: cutUnits fuel (da + n) (bs.drop n)

def State.write1 (s : State) (da : Nat) (bs : List PB) : State :=
  (cutUnits (bs.length / 32 + 2) da bs).foldl (fun s (u, d) => s.sramUnit u d) s

/-! ### Loads and stores of engines -/

/-- What an engine access met: nothing, a refused key region (R389), or a write dropped by R272. -/
inductive Acx where
  | ok | key | drop
deriving DecidableEq, Repr

/-- R389: the first address of [da, da + n - 1] in a key region that the access may not enter. -/
def State.keyBad (s : State) (who : Who) (wr : Bool) (da n : Nat) : Option Nat :=
  ((List.range ((da % 2 ^ 21 + n - 1) / 2 ^ 21 + 1)).map (fun i => if i = 0 then da else (da / 2 ^ 21 + i) * 2 ^ 21)).find? (fun a =>
    match s.keyAt a with
    | some e => !s.keyPermit who wr a e
    | none => false)

/-- A tower of [da, da + n - 1] is out of service: its memory delivers poison and takes nothing (assumption log 47). -/
def State.gone (s : State) (da n : Nat) : Bool :=
  (s.tower (daTower da)).oos || (s.tower (daTower (da + n - 1))).oos

/-- Load n bytes at a device address of region 0 or 1. -/
def State.load (s : State) (who : Who) (da n : Nat) : List PB × Acx × State :=
  if n = 0 then ([], .ok, s)
  else if daRegion da = 1 then (s.read1 da n, .ok, s)
  else
    match s.keyBad who false da n with
    | some a => (List.replicate n (0, true), .key, s.keyDeny a)
    | none =>
      if s.gone da n then (List.replicate n (0, true), .ok, s)
      else let (d, s) := State.read0 n s da; (d, .ok, s)

/-- Does the aisle that a region 1 address lies in serve another submission than the writer's (R272)? -/
def State.foreignAisle (s : State) (sub : Option Nat) (da : Nat) : Bool :=
  match sramAisle da with
  | none => true
  | some a =>
    match (s.aisle (daTower da * 32 + a)).cur with
    | none => false
    | some c => sub != some c

/-- Store bytes at a device address of region 0 or 1 for submission number sub. -/
def State.store (s : State) (who : Who) (sub : Option Nat) (da : Nat) (bs : List PB) : Acx × State :=
  if bs.isEmpty then (.ok, s)
  else if daRegion da = 1 then
    if s.foreignAisle sub da then
      (.drop, s.flagErr (.ais (daTower da) ((sramAisle da).getD 0)) 16 0 2 none da 0)
    else (.ok, s.write1 da bs)
  else
    match s.keyBad who true da bs.length with
    | some a => (.key, s.keyDeny a)
    | none => if s.gone da bs.length then (.ok, s) else (.ok, s.write0 who da bs)

/-! ### Words -/

/-- Read n 32-bit words as the Tallyman does, and whether any unit was poisoned. -/
def State.readWords (s : State) (da n : Nat) : List Word × Bool × State :=
  let (d, s) := State.read0 (4 * n) s da
  (wordsOf n (d.map (·.1)), d.any (·.2), s)

/-- Write 32-bit words as the Tallyman does. -/
def State.writeWords (s : State) (da : Nat) (ws : List Word) : State :=
  s.write0 .tally da ((ws.map (fun w => leBytes 4 w.toNat)).flatten.map (fun b => (b, false)))

end Sys2Proof.Machine
end

