-- ==== Sys2Proof/Machine/Rings.lean ====
section
/-! DEFINITION. Ring pairs in host memory: result records and their batches, records held for want of room, ring
interrupts, and the sampling of an intake ring (R289 to R301). A ring pair is named by k = 4 × port + pair. -/

namespace Sys2Proof.Machine

/-- The address of a ring register of pair k. -/
def rngR (k o : Nat) : Nat := prtR (k / 4) (0x200 + (k % 4) * 0x40 + o)

def State.ringEn (s : State) (k : Nat) : Bool := s.bit (rngR k 0) 31
def State.ringFault (s : State) (k : Nat) : Bool := s.bit (rngR k 0) 30
def State.ringStall (s : State) (k : Nat) : Nat := s.fld (rngR k 0) 29 28
def State.isize (s : State) (k : Nat) : Nat := 2 ^ (6 + s.fld (rngR k 0) 27 24)
def State.rsize (s : State) (k : Nat) : Nat := 2 ^ (6 + s.fld (rngR k 0) 23 20)
def State.icons (s : State) (k : Nat) : Nat := (s.reg (rngR k 0x38)).toNat
def State.rprod (s : State) (k : Nat) : Nat := (s.reg (rngR k 0x3C)).toNat

/-- The stall's step counter STL.STEP. -/
def State.stepNo (s : State) (st : Nat) : Nat := (s.reg (stlR st 0xC0)).toNat

/-- A step of the stall is between its parts 1 and 6. -/
def State.inStep (s : State) (st : Nat) : Bool :=
  decide (1 ≤ (s.stall st).part) && decide ((s.stall st).part ≤ 6)

/-! ### The link of a port (R361, R365) -/

/-- The function is in D3hot: PowerState of the PCI Express power management control word. -/
def State.d3hot (s : State) (p : Nat) : Bool := fget (mget 0 (s.port p).cfg 17) 1 0 == 3

/-- No transfer passes the port: its link is down, or a port event is not over, or it is in D3hot. -/
def State.portShut (s : State) (p : Nat) : Bool :=
  let x := s.port p
  x.perst || x.isolating || x.flr || !s.bit (prtR p 0x500) 0 || s.d3hot p

/-- A device write to host memory; one that meets a shut port is dropped (R365). -/
def State.hostWrite (s : State) (p addr : Nat) (data : List Byte) (ep : Bool) : State :=
  if s.portShut p then s else s.emit (.hostWrite p addr data ep)

/-! ### Result records -/

/-- The types of a result record. -/
def tTokens : Nat := 0x81
def tDone : Nat := 0x82
def tError : Nat := 0x83

/-- R300: a result record as it is formed: the header but for SEQ, and the body from word 6 on. -/
def State.form (s : State) (st type user : Nat) (body : List Word) : Desc :=
  descOf ([w32 (type * 2 ^ 24 + 2 ^ 16), s.reg (stlR st 0xC0)] ++ w64 user ++ w64 s.time ++ body)

/-- R301: an ERROR record. -/
def State.formError (s : State) (k user code idx detail : Nat) : Desc :=
  s.form (s.ringStall k) tError user [w32 (code * 65536 + k % 4), w32 idx, w32 detail]

/-- The type of a result record. -/
def recType (r : Desc) : Nat := dfld r 0 31 24

/-- Write one record at the producer index, with SEQ, and advance the index. -/
def State.putResult (s : State) (k : Nat) (r : Desc) : State :=
  let i := s.rprod k
  let at_ := s.reg64 (rngR k 0x1C) + 64 * (i % s.rsize k)
  (s.hostWrite (k / 4) at_ (descBytes (dput r 0 15 0 i)) false).setReg (rngR k 0x3C) (w32 (i + 1))

/-- R297: raise the vector of the pair; it signals every record written. -/
def State.raiseRing (s : State) (k : Nat) : State :=
  ((s.raiseVec (k / 4) (s.fld (rngR k 0) 19 12)).bump (prtR (k / 4) 0x320) 1).modRing k (fun x => { x with unsig := 0 })

/-- R297: after the producer word is written for n records: count them and raise the vector where a condition holds. -/
def State.signal (s : State) (k n : Nat) (urgent : Bool) : State :=
  let s := s.modRing k (fun x => { x with unsig := x.unsig + n, unsigAt := if x.unsig = 0 then s.time else x.unsigAt })
  let w := s.reg (rngR k 0x34)
  if fget w 7 0 ≤ (s.ring k).unsig || (urgent && s.bit (rngR k 0) 11) || fget w 31 16 == 0 then s.raiseRing k else s

/-- R295: a record is discarded. -/
def State.loseResult (s : State) (k : Nat) : State :=
  (s.bump (prtR (k / 4) 0x318) 1).flagErr (.prt (k / 4)) 17 0 2 none 0 0

/-- R295: hold one record; a full hold discards its oldest TOKENS record, or the new record. -/
def State.holdResult (s : State) (k : Nat) (r : Desc) : State :=
  let x := s.ring k
  if x.held.length < 4096 then
    (s.setRing k { x with held := x.held ++ [r] }).bump (prtR (k / 4) 0x314) 1
  else if x.held.any (fun h => recType h == tTokens) then
    ((s.setRing k { x with held := dropFirst (fun h => recType h == tTokens) x.held ++ [r], lost := x.lost + 1 }).bump
      (prtR (k / 4) 0x314) 1).loseResult k
  else (s.setRing k { x with lost := x.lost + 1 }).loseResult k

/-- R294: the room of the result ring under a consumer word; none where the word breaks the rule. -/
def State.room (s : State) (k cons : Nat) : Option Nat :=
  let d := (s.rprod k + 2 ^ 32 - cons % 2 ^ 32) % 2 ^ 32
  if d ≤ s.rsize k then some (s.rsize k - d) else none

/-- R294 and R295: write a batch of records for a pair after a read of its consumer word (none: the read failed). The
records of a pair that is not enabled are discarded (assumption log 21). -/
def State.writeBatch (s : State) (k : Nat) (recs : List Desc) (cons : Option Nat) : State :=
  if !s.ringEn k then recs.foldl (fun s _ => s.loseResult k) s
  else if recs.isEmpty && (s.ring k).held.isEmpty && (s.ring k).lost == 0 then s
  else
    let s := s.modRing k (fun x => { x with consAt := s.time })
    let (room, s) : Nat × State := match (if s.portShut (k / 4) then none else cons) with
      | none => (0, s.flagErr (.prt (k / 4)) 18 0 1 none 0 0)
      | some c =>
        let s := s.modRing k (fun x => { x with rcons := c })
        match s.room k c with
        | some r => (r, s)
        | none => (0, s.flagErr (.prt (k / 4)) 16 0 2 none 0 0)
    let x := s.ring k
    let first : List Desc := if x.lost = 0 || room = 0 then [] else [s.formError k 0 7 0 x.lost]
    let old := first ++ x.held
    let now := (old ++ recs).take room
    let s := s.setRing k { x with held := (old.drop room), lost := if first.isEmpty then x.lost else 0 }
    let s := now.foldl (fun s r => s.putResult k r) s
    let s := (recs.drop (room - old.length)).foldl (fun s r => s.holdResult k r) s
    if now.isEmpty then s
    else
      let s := s.hostWrite (k / 4) (s.reg64 (rngR k 0x24)) (leBytes 4 (s.rprod k)) false
      s.signal k now.length (now.any (fun r => recType r != tTokens))

/-- R294: a read of the consumer word that the command does not carry: what host memory holds is not the device's, so the
word is a free value, and so is whether the read fails (assumption log 22). -/
def State.readCons (s : State) : Option Nat × State :=
  let (w, s) := s.draw (2 ^ 32 + 1)
  (if w = 2 ^ 32 then none else some w, s)

/-- A record that arises for a pair: it joins the batch of the running step, or forms a batch of its own, before which the
consumer word is read (R294). -/
def State.answer (s : State) (k : Nat) (r : Desc) : State :=
  if s.inStep (s.ringStall k) then s.modRing k (fun x => { x with batch := x.batch ++ [r] })
  else
    let (w, s) := s.readCons
    s.writeBatch k [r] w

/-- Answer a record with an ERROR. -/
def State.answerError (s : State) (k user code idx detail : Nat) : State :=
  s.answer k (s.formError k user code idx detail)

/-- R303: the DONE record of an expert submission. -/
def State.formExpert (s : State) (k user status exec fent fcause fdesc ftag start : Nat) (semLeft : Bool) : Desc :=
  s.form (s.ringStall k) tDone user
    ([w32 (2 ^ 24 + status * 65536 + b2n semLeft), w32 exec, w32 (fent * 65536 + fcause), w32 fdesc, w32 ftag] ++ w64 start)

/-! ### Enabling a pair, port events -/

/-- R295, R298: clearing EN discards held records. -/
def State.ringOff (s : State) (k : Nat) : State :=
  let s := (s.ring k).held.foldl (fun s _ => s.loseResult k) s
  (s.modRing k (fun x => { x with held := [], lost := 0, unsig := 0 })).setBit (rngR k 0) 31 false

/-- R289: EN rises: both indices are 0, the device writes 0 to its two words, and sampling may resume (R291). -/
def State.ringOn (s : State) (k : Nat) : State :=
  let s := ((s.setReg (rngR k 0x38) 0).setReg (rngR k 0x3C) 0).setBit (rngR k 0) 30 false
  let s := s.setRing k RingSt.reset
  (s.hostWrite (k / 4) (s.reg64 (rngR k 0x14)) (leBytes 4 0) false).hostWrite (k / 4) (s.reg64 (rngR k 0x24)) (leBytes 4 0) false

/-! ### Sampling (R291, R292) -/

/-- The interface version of port p is accepted (R60). -/
def State.accepted (s : State) (p : Nat) : Bool := fget (s.copy p 1) 1 0 == 1

/-- The pair of a context as ring key 4 × PORT + PAIR. -/
def State.ctxPair (s : State) (st k : Nat) : Nat :=
  s.fld (stlR st (0x400 + 8 * k)) 23 22 * 4 + s.fld (stlR st (0x400 + 8 * k)) 21 20

/-- R301, R309: the error an intake record meets before its body is read: code and DETAIL. -/
def State.headerError (s : State) (k : Nat) (r : Desc) : Option (Nat × Nat) :=
  let st := s.ringStall k
  let type := dfld r 0 31 24
  let ctx := dfld r 1 7 0
  if !([1, 2, 3, 4, 5, 6, 16].contains type) || dfld r 0 23 16 != 1 then some (1, (dw r 0).toNat)
  else if ctx / 64 != st || s.fld (stlR st (0x404 + 8 * (ctx % 64))) 31 28 != 1 || s.ctxPair st (ctx % 64) != k then
    some (2, ctx)
  else if s.bit (stlR st 0x100) 0 != (type == 16) then some (5, s.fld (stlR st 0x100) 0 0)
  else none

/-- A ring fault stops sampling of the ring and writes an ERROR record (R291). -/
def State.ringStop (s : State) (k code detail : Nat) : State :=
  let s := (s.setBit (rngR k 0) 30 true).flagErr (.prt (k / 4)) 16 0 2 none 0 0
  s.answerError k 0 code (s.icons k) detail

/-- Take records in index order: up to the first failed read or SEQ mismatch. Answers the records taken and, where it
stopped early, none for a failed read and the SEQ found for a mismatch. -/
def takeRecs : Nat → Nat → List (Option Desc) → List Desc × Option (Option Nat)
  | 0, _, _ => ([], none)
  | n + 1, i, rs =>
    match rs with
    | some r :: rest =>
      if dfld r 0 15 0 = i % 65536 then
        let (t, e) := takeRecs n (i + 1) rest
        (r :: t, e)
      else ([], some (some (dfld r 0 15 0)))
    | _ => ([], some none)

/-- Record i was taken: it waits for part 2, or it is answered at once where its header is wrong (R301). -/
def State.takeOne (s : State) (k i : Nat) (r : Desc) : State :=
  match s.headerError k r with
  | some (code, detail) => s.answerError k (d64 r 2) code i detail
  | none => s.modStall (s.ringStall k) (fun x => { x with taken := x.taken ++ [⟨k, i, r, s.time, 0⟩] })

/-- May the intake ring be sampled? (R61, R289, R291, R292, R295) -/
def State.samplable (s : State) (k st : Nat) : Bool :=
  s.ringEn k && !s.ringFault k && s.ringStall k == st && s.accepted (k / 4) && decide ((s.ring k).held.length < 2048)

/-- R291: sample one intake ring with what the host memory answered. -/
def State.sampleRing (s : State) (st : Nat) (x : Sample) : State :=
  let k := x.p.val * 4 + x.n.val
  -- R365: a read on a shut port completes with Completer Abort during an FLR, otherwise with Unsupported Request
  let shut := s.portShut x.p.val
  let status := if !shut then x.status.toNat else if (s.port x.p.val).flr then 4 else 1
  if !s.samplable k st then s
  else match (if shut then none else x.prod) with
    | none => (s.flagErr (.prt x.p.val) 18 0 1 none 0 0).ringStop k 6 status
    | some prod =>
      let c := s.icons k
      let d := (prod.toNat + 2 ^ 32 - c) % 2 ^ 32
      if s.isize k < d then s.ringStop k 4 prod.toNat
      else
        let (got, e) := takeRecs (min d (s.fld (stlR st 0x104) 15 0)) c x.recs
        let s := ((List.range got.length).zip got).foldl (fun s (j, r) => s.takeOne k ((c + j) % 2 ^ 32) r) s
        let i := (c + got.length) % 2 ^ 32
        let s := s.setReg (rngR k 0x38) (w32 i)
        let s := if got.isEmpty then s else
          (s.bump (prtR x.p.val 0x31C) got.length).hostWrite x.p.val (s.reg64 (rngR k 0x14)) (leBytes 4 i) false
        match e with
        | none => s.modRing k (fun r => { r with badSeq := (0, 0) })
        | some none => (s.flagErr (.prt x.p.val) 18 0 1 none 0 0).ringStop k 6 x.status.toNat
        | some (some q) =>
          let n := if (s.ring k).badSeq.1 = i && (s.ring k).badSeq.2 != 0 then (s.ring k).badSeq.2 + 1 else 1
          if 3 ≤ n then (s.modRing k (fun r => { r with badSeq := (0, 0) })).ringStop k 3 q
          else s.modRing k (fun r => { r with badSeq := (i, n) })

/-- R292: sample the rings of a stall in rotating port order, pairs ascending. -/
def State.sampleStall (s : State) (st : Nat) (samples : List Sample) : State :=
  let r := (s.stall st).rotP
  forN 16 s (fun s j =>
    let p := (r + j / 4) % 4
    match samples.find? (fun x => x.p.val == p && x.n.val == j % 4) with
    | some x => s.sampleRing st x
    | none => s)

end Sys2Proof.Machine
end

