-- ==== Sys2Proof/Machine/Bar2.lean ====
section
/-! DEFINITION. BAR2: how a port stands towards requests (R361, R411), the aperture windows (R33, R34), the access
windows (R36, R37), and the commands BAR2_READ and BAR2_WRITE. -/

namespace Sys2Proof.Machine

/-! ### A port towards the link -/

/-- DEV.STATE.PHASE: 0 BOOT, 1 READY, 2 RECOVERY. -/
def State.phase (s : State) : Nat := s.fld (devR 0x98) 3 0

/-- How a port answers memory requests. -/
inductive PortMode where
  | refuses | restricted | normal
deriving DecidableEq, Repr

/-- R361 and R411: the mode of a port. -/
def State.portMode (s : State) (p : Nat) : PortMode :=
  if s.portShut p then .refuses
  else if s.phase = 1 then .normal
  else if p = 0 && (s.phase == 2 || (s.phase == 0 && s.rst.straps.bootSel == 1)) then .restricted
  else .refuses

/-- Record an event of a port without a BLK_ERR bit, and report it through AER. -/
def State.portEvent (s : State) (p code addr info : Nat) : State :=
  ((s.logErr (.prt p) code 0 addr info).modPort p (fun x => { x with aer := x.aer ++ [code] })).emit (.aer p)

/-! ### Access windows -/

/-- R36, R37: entry a of port p grants reads, or writes, over all of [da, da + n - 1]. -/
def State.acwGrants (s : State) (p a da n : Nat) (wr : Bool) : Bool :=
  let c := s.reg (prtR p (0x100 + a * 16))
  let b := (s.reg (prtR p (0x104 + a * 16))).toNat
  let l := (s.reg (prtR p (0x108 + a * 16))).toNat
  fbit c 0 && fbit c (if wr then 2 else 1) && decide (b ≤ da >>> 20) && decide ((da + n - 1) >>> 20 ≤ l)

/-- The towers that hold [da, da + n - 1]. -/
def towersIn (da n : Nat) : List Nat :=
  (List.range (((da + n - 1) >>> 37) - (da >>> 37) + 1)).map (fun i => (da >>> 37) + i)

/-- Does any byte of [da, da + n - 1] lie in the bench region of its tower? -/
def State.touchesBench (s : State) (da n : Nat) : Bool :=
  (towersIn da n).any (fun t =>
    let hi := if (da + n - 1) >>> 37 = t then daOff (da + n - 1) else 2 ^ 37 - 1
    decide (s.benchBase t ≤ hi))

/-- Steps 3 to 6 of R33 for a port's access to [da, da + n - 1]: none where all pass, else the step that fails. -/
def State.daCheck (s : State) (p da n : Nat) (wr : Bool) : Option Nat :=
  if !(decide (da < 2 ^ 42) && decide (da + n - 1 < 2 ^ 42)) then some 3
  else if s.touchesBench da n then some 4
  else if (towersIn da n).any (fun t => (s.tower t).oos) then some 5
  else if (towersIn da n).all (fun t => s.owner (s.stallOf t) == p) || (List.range 16).any (fun a => s.acwGrants p a da n wr) then none
  else some 6

/-! ### Requests -/

/-- The checks of R33 on a BAR2 request: the device address, or the step that fails, with the ADDR it records. -/
def State.bar2Check (s : State) (p off n : Nat) (wr : Bool) : Except (Nat × Nat) Nat :=
  let w := off / 2 ^ 35
  let c := s.reg (prtR p (0x80 + 8 * w))
  if !fbit c 0 then .error (1, off)
  else
    let da := s.fld (prtR p (0x84 + 8 * w)) 21 0 * 2 ^ 30 + off % 2 ^ 35
    if wr && !fbit c 1 then .error (2, da)
    else match s.daCheck p da n wr with
      | some k => .error (k, da)
      | none => .ok da

/-- The completion status of a step of R33 that fails: 1 Unsupported Request, 4 Completer Abort. -/
def failStatus (step : Nat) : Nat := if step = 1 || step == 3 then 1 else 4

/-- R388: the key region check of a BAR2 request. -/
def State.bar2Key (s : State) (p da n : Nat) (wr : Bool) : Bool :=
  [da, da + n - 1].all (fun a => match s.keyAt a with
    | none => true
    | some e => s.keyPermit (.bar2 p) wr a e)

/-- R360: write the poison syndrome into every unit that a range touches. -/
def State.poisonUnits (s : State) (p da n : Nat) : State :=
  forN ((da % 32 + n + 31) / 32) s (fun s i =>
    s.write0 (.bar2 p) (da / 32 * 32 + 32 * i) (List.replicate 32 (0, true)))

/-- An accepted request reaches the channels: a read is answered, a write is taken. -/
def State.bar2Do (s : State) (r : Bar2Req) : State :=
  if (towersIn r.da r.len).any (fun t => (s.tower t).oos) then
    let s := s.portEvent r.port 0x1500 r.da r.rid
    if r.wr.isNone then s.emit (.cpl r.port 4 [] false) else s
  else match r.wr with
    | none => let (d, s) := State.read0 r.len s r.da; s.emit (.cpl r.port 0 (d.map (·.1)) (d.any (·.2)))
    | some (data, ep) =>
      if ep then ((s.poisonUnits r.port r.da r.len).flagErr (.prt r.port) 24 0 1 none r.da r.rid).emit (.aer r.port)
      else s.write0 (.bar2 r.port) r.da (data.map (fun b => (b, false)))

/-- R39, R69, R89: an accepted request reaches the channels, unless an earlier one of its port waits or a channel or bank
takes no request now: it waits then. -/
def State.bar2Go (s : State) (r : Bar2Req) : State :=
  let wait : State := { s with bar2 := s.bar2 ++ [r] }
  if s.bar2.any (fun x => x.port == r.port) then wait
  else
    let s' := State.bar2Do { s with hit := false } r
    if s'.hit then wait else { s' with hit := s.hit }

/-- The requests that wait are tried again, in the order of their arrival. -/
def State.bar2Retry (s : State) : State := s.bar2.foldl State.bar2Go { s with bar2 := [] }

/-- R42: an accepted request for a tower of a stall waits. -/
def State.bar2Held (s : State) (st : Nat) : Bool :=
  s.bar2.any (fun r => (towersIn r.da r.len).any (fun t => s.stallOf t == st))

/-- R33, R39, R41, R388: BAR2_READ. DESIGN CHOICE (assumption log 117): the zero-length read of PCI Express is checked as
one byte, and its completion carries that byte. -/
def execBar2Read (p : Port) (rid : Rid) (off : Ap) (len : Nat) (s : State) : Host.Outcome State Fault Refusal :=
  let n := max len 1
  match s.portMode p.val with
  | .refuses => .next ((s.portEvent p.val 0x2000 off.toNat rid.toNat).emit (.cpl p.val 1 [] false))
  | .restricted =>
    if off.toNat + n ≤ 0x10000 then
      .next (s.emit (.cpl p.val 0 ((List.range n).map (fun i => s.rst.loadBuf.getD (off.toNat + i) 0)) false))
    else .next ((s.portEvent p.val 0x2000 off.toNat rid.toNat).emit (.cpl p.val 1 [] false))
  | .normal =>
    match s.bar2Check p.val off.toNat n false with
    | .error (k, a) =>
      .next ((s.portEvent p.val (0x1000 + k * 0x100) a rid.toNat).emit (.cpl p.val (failStatus k) [] false))
    | .ok da =>
      if s.bar2Key p.val da n false then .next (s.bar2Go ⟨p.val, rid.toNat, da, n, none⟩)
      else .next (((s.keyDeny da).emit (.aer p.val)).emit (.cpl p.val 4 [] false))

/-- The load buffer with bytes written at an offset (R411). -/
def bufWrite (buf : List Byte) (off : Nat) (data : List Byte) : List Byte :=
  (List.range (max buf.length (off + data.length))).map (fun i =>
    if off ≤ i && decide (i < off + data.length) then data.getD (i - off) 0 else buf.getD i 0)

/-- R33, R39, R360, R388: BAR2_WRITE. -/
def execBar2Write (p : Port) (rid : Rid) (off : Ap) (data : List Byte) (ep : Bool) (s : State) :
    Host.Outcome State Fault Refusal :=
  let n := max data.length 1
  match s.portMode p.val with
  | .refuses => .next (s.portEvent p.val 0x2000 off.toNat rid.toNat)
  | .restricted =>
    if off.toNat + n ≤ 0x10000 then
      .next { s with rst := { s.rst with loadBuf := bufWrite s.rst.loadBuf off.toNat data } }
    else .next (s.portEvent p.val 0x2000 off.toNat rid.toNat)
  | .normal =>
    match s.bar2Check p.val off.toNat n true with
    | .error (k, a) => .next (s.portEvent p.val (0x1000 + k * 0x100) a rid.toNat)
    | .ok da =>
      if s.bar2Key p.val da n true then .next (s.bar2Go ⟨p.val, rid.toNat, da, n, some (data, ep)⟩)
      else .next ((s.keyDeny da).emit (.aer p.val))

/-! ### Window registers -/

/-- A held base or limit write (R34, R36), keyed by its BAR0 address. -/
def State.held (s : State) (addr : Nat) : Option Word := mget none s.rf.heldWin addr
def State.setHeld (s : State) (addr : Nat) (v : Option Word) : State :=
  { s with rf := { s.rf with heldWin := mset none s.rf.heldWin addr v } }

/-- R34: the control word and the held base apply together. -/
def State.applyWin (s : State) (p w : Nat) (val : Word) : State :=
  let b := prtR p (0x84 + 8 * w)
  let s := match s.held b with
    | some v => (s.setReg b v).setHeld b none
    | none => s
  s.setReg (prtR p (0x80 + 8 * w)) val

/-- The range of a stall in units of 1 MiB: first and one past the last (R22). -/
def State.stallMib (s : State) (st : Nat) : Nat × Nat :=
  (st * s.perStall * 2 ^ 17, (st + 1) * s.perStall * 2 ^ 17)

/-- R36: is a write of ACW_CTL accepted from the source? DESIGN CHOICE (assumption log 118): a port's write with EN = 1 and
LIMIT below BASE names no range that lies in a stall of its own, so it is not accepted. -/
def State.acwAccepts (s : State) (src : Src) (p a : Nat) (val : Word) : Bool :=
  let ba := prtR p (0x104 + a * 16)
  let la := prtR p (0x108 + a * 16)
  let b := ((s.held ba).getD (s.reg ba)).toNat
  let l := ((s.held la).getD (s.reg la)).toNat
  let eb := (s.reg ba).toNat
  let el := (s.reg la).toNat
  match src with
  | .mgmt .. => true
  | .port q _ => (List.range s.stalls).any (fun st =>
      let (lo, hi) := s.stallMib st
      s.owner st == q.val &&
      ((decide (lo ≤ b) && decide (b ≤ l) && decide (l < hi)) ||
       (!fbit val 0 && ((decide (b < hi) && decide (lo ≤ l)) || (decide (eb < hi) && decide (lo ≤ el))))))

/-- R36: a write of ACW_CTL. -/
def State.applyAcw (s : State) (src : Src) (p a : Nat) (val : Word) : State :=
  let ba := prtR p (0x104 + a * 16)
  let la := prtR p (0x108 + a * 16)
  let ok := s.acwAccepts src p a val
  let take (s : State) (r : Nat) : State := match s.held r with
    | some v => if ok then (s.setReg r v).setHeld r none else s.setHeld r none
    | none => s
  let s := take (take s ba) la
  if ok then s.setReg (prtR p (0x100 + a * 16)) val
  else match src with
    | .port q _ => s.flagErr (.prt q.val) 3 0 0 none (prtR p (0x100 + a * 16)) (srcInfo src)
    | .mgmt .. => s

/-- R38: clear EN in every access-window entry that overlaps the range of a stall. -/
def State.clearAcw (s : State) (st : Nat) : State :=
  let (lo, hi) := s.stallMib st
  forN 64 s (fun s i =>
    let c := prtR (i / 16) (0x100 + i % 16 * 16)
    if decide ((s.reg (c + 4)).toNat < hi) && decide (lo ≤ (s.reg (c + 8)).toNat) then s.setBit c 0 false else s)

end Sys2Proof.Machine
end

