-- ==== Sys2Proof/Machine/Mirror.lean ====
section
/-! DEFINITION. Weight mirrors: the mirror table (R427), the key region table (R385, R386), reads with substitution
(R428, R430) and the units that are lost (R431). -/

namespace Sys2Proof.Machine

/-! ### The tables of phase 5 -/

/-- The device address of a block of 2 MiB. -/
def blk (b : Nat) : Nat := b * 2 ^ 21

/-- A range of 2 MiB blocks lies in the interleaved region of one tower of a stall: that tower. -/
def State.ilTower (s : State) (st lo hi : Nat) : Option Nat :=
  let t := lo >>> 16
  if decide (lo ≤ hi) && hi >>> 16 == t && (s.towersOf st).contains t && decide (blk (hi % 2 ^ 16 + 1) ≤ s.benchBase t) then some t
  else none

def rangesMeet (a b c d : Nat) : Bool := decide (a ≤ d) && decide (c ≤ b)

/-- R431: a lost unit is recorded; the integrity stop follows. -/
def State.noteLost (s : State) (st da : Nat) : State :=
  let x := s.stall st
  if x.lost.contains da then s.modStall st (fun x => { x with integ := true })
  else
    let l := s.loc da
    let s := s.flagErr (.stl st) 21 0 2 none da (s.phys l.t l.ch)
    let n := s.fld (stlR st 0x280) 6 0
    let s := if n = 0 then s.setReg64 (stlR st 0x284) da else s
    let s := if n < 64 then s.setFld (stlR st 0x280) 6 0 (n + 1) else s.setBit (stlR st 0x280) 25 true
    s.modStall st (fun x => { x with integ := true, lost := if x.lost.length < 64 then x.lost ++ [da] else x.lost })

/-- R433: phase 5 of a reconfiguration must read n bytes at base: where their tower is out of service they are lost, unit
by unit, and none are there to read (assumption log 135). -/
def State.lostTable (s : State) (st base n : Nat) : Option State :=
  if n ≠ 0 && (s.towersOf st).contains (daTower base) && (s.tower (daTower base)).oos then
    some (forN ((base % 32 + n + 31) / 32) s (fun s i => s.noteLost st (base / 32 * 32 + 32 * i)))
  else none

/-- R427: read the mirror table of a stall. -/
def State.loadMirror (s : State) (st : Nat) : State :=
  let base := s.reg64 (stlR st 0x290)
  let n := s.fld (stlR st 0x298) 10 0
  match s.lostTable st base (16 * n) with
  | some s => s.modStall st (fun x => { x with mirror := [] })
  | none =>
  let (l, _, s) := forN n (([] : List MirE), ([] : List (Nat × Nat)), s)
    (fun (acc : List MirE × List (Nat × Nat) × State) i =>
      let (w, bad, s) := acc.2.2.readWords (base + 16 * i) 4
      if !fbit (wd w 3) 31 && !bad then (acc.1, acc.2.1, s)
      else
        let b := fget (wd w 0) 26 0
        let l := fget (wd w 1) 26 0
        let m := fget (wd w 2) 26 0
        let m' := m + (l - b)
        let clash (lo hi : Nat) : Bool := acc.2.1.any (fun r => rangesMeet lo hi r.1 r.2)
        let ok := !bad && fget (wd w 0) 31 27 == 0 && fget (wd w 1) 31 27 == 0 && fget (wd w 2) 31 27 == 0 &&
          fget (wd w 3) 30 0 == 0 && decide (b ≤ l) && (s.ilTower st b l).isSome && (s.ilTower st m m').isSome &&
          s.ilTower st b l != s.ilTower st m m' && !clash b l && !clash m m'
        let seen := acc.2.1 ++ [(b, l), (m, m')]
        if ok then (acc.1 ++ [⟨b, l, m⟩], seen, s) else (acc.1, seen, s.flagC (.stl st) 20))
  s.modStall st (fun x => { x with mirror := l })

/-- R385, R386: read the key region table of a stall. -/
def State.loadKeys (s : State) (st : Nat) : State :=
  let base := s.reg64 (secR (0x80 + 16 * st))
  let n := s.fld (secR (0x88 + 16 * st)) 8 0
  match s.lostTable st base (16 * n) with
  | some s => s
  | none =>
  let (l, bs, s) := forN n (([] : List KeyE), ([] : List Byte), s) (fun (acc : List KeyE × List Byte × State) i =>
    let (w, bad, s) := acc.2.2.readWords (base + 16 * i) 4
    let bs := acc.2.1 ++ w.flatMap (fun x => leBytes 4 x.toNat)
    let kind := fget (wd w 0) 31 30
    if kind = 0 && !bad then (acc.1, bs, s)
    else
      let b := fget (wd w 2) 26 0
      let l := fget (wd w 3) 26 0
      let ts := (List.range ((l >>> 16) - (b >>> 16) + 1)).map (fun j => (b >>> 16) + j)
      let inStall := ts.all (fun t => (s.towersOf st).contains t)
      let bench := ts.any (fun t =>
        let hi := if l >>> 16 = t then l % 2 ^ 16 else 2 ^ 16 - 1
        decide (s.benchBase t < blk (hi + 1)))
      let ok := !bad && kind != 3 && fget (wd w 0) 28 6 == 0 && (wd w 1) == 0 && fget (wd w 2) 31 27 == 0 &&
        fget (wd w 3) 31 27 == 0 && decide (b ≤ l) && inStall && !bench && !acc.1.any (fun e => rangesMeet b l e.base e.limit)
      (acc.1 ++ [⟨b, l, kind, fget (wd w 0) 5 0, fbit (wd w 0) 29, ok⟩], bs, if ok then s else s.flagC .sec 20))
  s.modStall st (fun x => { x with keys := l, keyDigest := sha3 bs })

/-! ### Substitution (R428 to R431) -/

/-- The mirror of a primary unit. -/
def State.copyOf (s : State) (da : Nat) : Option Nat :=
  ((s.stall (s.stallOf (daTower da))).mirror.find? (fun e => decide (e.base ≤ da >>> 21) && decide (da >>> 21 ≤ e.limit))).map
    (fun e => blk e.mbase + (da - blk e.base))

/-- The primary of a mirror unit. -/
def State.primaryOf (s : State) (da : Nat) : Option Nat :=
  ((s.stall (s.stallOf (daTower da))).mirror.find? (fun e =>
    decide (e.mbase ≤ da >>> 21) && decide (da >>> 21 ≤ e.mbase + (e.limit - e.base)))).map
    (fun e => blk e.base + (da - blk e.mbase))

/-- R429, R430: the repair engine of the bad unit's tower takes the unit, unless it is in repair already or 16 are. -/
def State.queueRepair (s : State) (bad copy : Nat) : State :=
  let t := daTower bad
  if (s.tower t).mir.any (fun m => m.bad == bad) || decide (16 ≤ (s.tower t).mir.length) then s
  else s.modTower t (fun x => { x with mir := x.mir ++ [⟨bad, copy, s.stallOf t, true, false⟩] })

/-- The running step of a stall is extended (R88, R321, R428). -/
def State.extend (s : State) (st us : Nat) : State :=
  if (s.stall st).part = 0 then s else s.modStall st (fun x => { x with ext := x.ext + us })

/-- R428: a substitution is counted, its lengthening of at most 2,079 ns extends the step, and MIR_SUB is set, with its
interrupt where it rises (R424). The record of the event waits for its outcome (R422, R429; assumption log 29). -/
def State.countSub (s : State) (st : Nat) : State :=
  let rises := !s.bit (stlR st 0x18) 19 && s.bit (stlR st 0x1C) 19
  let (ns, s) := s.draw 2080
  let s := ((s.bump (stlR st 0x2A0) 1).setBit (stlR st 0x18) 19 true).extend st ((ns + 999) / 1000)
  if rises then s.pageIrq (.stl st) else s

/-- R428, R431: read one unit of weights. strict tells whether a unit with no usable copy stops the stall. -/
def State.readSub (s : State) (strict : Bool) (da : Nat) : List Byte × Bool × State :=
  let da := da / 32 * 32
  let st := s.stallOf (daTower da)
  let (d, bad, s) := if (s.tower (daTower da)).oos then (List.replicate 32 0, true, s) else s.readUnit da
  if !bad then (d, false, s)
  else
    let lost (s : State) : State := if strict then s.noteLost st da else s
    match s.copyOf da with
    | none => (d, true, lost s)
    | some m =>
      if (s.tower (daTower m)).oos then (d, true, lost s)
      else
        let (d', bad', s) := s.readUnit m
        if bad' then (d, true, lost s)
        else (d', false, (if (s.tower (daTower da)).oos then s else s.queueRepair da m).countSub st)

/-- Read k units of weights from a unit address. -/
def State.readSubs (strict : Bool) : Nat → State → Nat → List PB × State
  | 0, s, _ => ([], s)
  | k + 1, s, da =>
    let (d, bad, s1) := s.readSub strict da
    let (t, s2) := State.readSubs strict k s1 (da + 32)
    (d.map (fun b => (b, bad)) ++ t, s2)

/-- Read n bytes of weights. -/
def State.readSubN (s : State) (strict : Bool) (n da : Nat) : List PB × State :=
  let (d, s) := State.readSubs strict ((da % 32 + n + 31) / 32) s (da / 32 * 32)
  ((d.drop (da % 32)).take n, s)

/-! ### The format table cache (R168, R173) -/

/-- Bytes of the codebook table that a descriptor names. -/
def cbBytes (w0 : Word) : Nat :=
  match fget w0 31 28 with
  | 7 => 16 * fget w0 8 0
  | 8 => 256
  | 9 => 32
  | 10 => 1024
  | _ => 0

/-- R308 phase 5: reload the format table cache with its codebooks. -/
def State.loadFmts (s : State) (st : Nat) : State :=
  let base := s.reg64 (stlR st 0x200)
  let n := s.fld (stlR st 0x208) 15 0
  let (l, s) := forN n (([] : List (Nat × FmtC)), s) (fun (acc : List (Nat × FmtC) × State) i =>
    let (d, s) := acc.2.readSubN true 32 (base + 32 * i)
    let ws := wordsOf 8 (d.map (·.1))
    let bad := d.any (·.2)
    let k := if bad then 0 else cbBytes (wd ws 0)
    let (cb, s) := s.readSubN true k (wd64 ws 2)
    (acc.1 ++ [(i, ⟨ws, cb, bad⟩)], s))
  s.modStall st (fun x => { x with fmts := l, tabs := [] })

/-- What the array holds of the unit at a device address, decoded. -/
def State.storedAt (s : State) (u : Nat) : List Byte :=
  let l := s.loc u
  (decodeUnit (s.rawUnit (unitKey l.t (s.phys l.t l.ch) l.b l.row l.unit))).2.drop 4

/-- R168: a unit of an index array or a channel table, through the cache. A unit enters it at its first use after the
reconfiguration; after a write to it in memory its bytes are free values (assumption log 132). -/
def State.tabUnit (s : State) (st u : Nat) : List PB × State :=
  match (s.stall st).tabs.find? (fun x => x.1 == u) with
  | some x =>
    if s.storedAt u = x.2.1 then (x.2.2, s)
    else let (v, s) := s.draw (2 ^ 256); ((leBytes 32 v).map (fun b => (b, false)), s)
  | none =>
    let (bs, s) := s.readSubN true 32 u
    (bs, s.modStall st (fun y => { y with tabs := y.tabs ++ [(u, s.storedAt u, bs)] }))

/-- n bytes of an index array or a channel table. -/
def State.tabRead (s : State) (st n da : Nat) : List PB × State :=
  let (d, s) := forN ((da % 32 + n + 31) / 32) (([] : List PB), s) (fun (p : List PB × State) i =>
    let (bs, s) := p.2.tabUnit st (da / 32 * 32 + 32 * i)
    (p.1 ++ bs, s))
  ((d.drop (da % 32)).take n, s)

end Sys2Proof.Machine
end

