-- ==== Sys2Proof/Machine/Sets.lean ====
section
/-! DEFINITION. The bench set that a tower's sequencer engages: its banks, its opening in waves (R107) and its closing with
the dirty log, the owed refreshes and the requests that waited (R69, R91, R121, R128). -/

namespace Sys2Proof.Machine

/-- A bank that a bench command engages: set entry and deck. -/
abbrev Bk := SetE × Nat

/-- The decks of a deck mask. -/
def decksOf (m : Nat) : List Nat := (List.range 16).filter (fun d => bitOf m d)

/-- The banks of a set, entry by entry and deck by deck. -/
def setBanks (l : List SetE) : List Bk := l.flatMap (fun e => (decksOf e.decks).map (fun d => (e, d)))

/-- The controller and b of a bank (R28, R29). -/
def State.bkChan (s : State) (t : Nat) (k : Bk) : Nat := s.phys t (k.1.cg % 32)
def bkB (k : Bk) : Nat := 16 * (k.1.cg / 32) + k.2

/-- R138: items with their channel groups packed into groups: each into the first group that holds fewer than n items and
none on its channel group. -/
def packSets (n : Nat) (l : List (Nat × Nat)) : List (List (Nat × Nat)) :=
  l.foldl (fun gs x =>
    let fits (g : List (Nat × Nat)) : Bool := decide (g.length < n) && !g.any (fun y => y.2 == x.2)
    if gs.any fits then mapFirst fits (fun g => g ++ [x]) gs else gs ++ [[x]]) []

/-- The set entry of frame f of a tower in every deck: its channel group and row (R28). -/
def State.frameSet (s : State) (t f : Nat) : SetE := ⟨f % 128, 32768 - 256 * s.gib t + f / 128, 0xFFFF⟩

/-- R91: a bench command wrote back a row of the old channel: it enters the dirty log of 4,096 rows; when the log
overflows, the whole bench region is copied again. -/
def State.dirtyRow (s : State) (t c b row : Nat) : State :=
  match (s.tower t).repair with
  | none => s
  | some r =>
    if r.old ≠ c then s
    else if r.dirty.contains (b * 32768 + row) then s
    else if r.dirty.length < 4096 then
      s.modTower t (fun x => { x with repair := some { r with dirty := r.dirty ++ [b * 32768 + row] } })
    else
      (s.modTower t (fun x => { x with repair := some { r with dirty := [], redo := 64 * 256 * s.gib t, ready := false } })).setFld
        (memR t c 0x98) 3 0 1

/-- R69: a request is served with those of its line that arrived before it. -/
def State.serveTo (s : State) (t c : Nat) (r : Req) : State :=
  (byNo ((s.chan t c).reqs.filter (fun y => lineOf y.da == lineOf r.da && decide (y.no ≤ r.no)))).foldl
    (fun s y => s.serve t c y) s

/-- R69: up to 8 requests of a bank that have waited YIELD or longer are served, oldest first. -/
def State.yieldBank (s : State) (t c b : Nat) : State :=
  let x := s.chan t c
  let y := s.fld (memR t c 0x84) 23 16 * 100
  ((byNo (x.reqs.filter (fun r => (s.loc r.da).b == b && decide (r.at_ + y ≤ x.now)))).take 8).foldl
    (fun s r => s.serveTo t c r) s

/-- R128: the write-combining and atomic entries of a bank go to the array. -/
def State.flushBank (s : State) (t c b : Nat) : State :=
  let x := s.chan t c
  let inB (da : Nat) : Bool := (s.loc da).b == b
  let ls := (x.wcb.filter (fun e => inB e.line)).map (fun e => e.line)
  let s := s.modChan t c (fun x => (ls.foldl Chn.flushLine x).atomsDue (fun e => inB e.da))
  (byNo ((s.chan t c).reqs.filter (fun r => ls.contains (lineOf r.da) || (r.kind == .atomic && inB r.da)))).foldl
    (fun s r => s.serveTo t c r) s

/-- R107, R128: a bank of the set is engaged with its row open, from cycle n on. A read-modify-write begun there begins
again. -/
def State.engage (s : State) (t n : Nat) (k : Bk) : State :=
  let c := s.bkChan t k
  let b := bkB k
  let s := (((s.flushBank t c b).yieldBank t c b).passTo t c n).openRow t c b k.1.row
  let mine := ((s.chan t c).reqs.filter (fun r => (s.loc r.da).b == b)).map (fun r => r.no)
  let s := s.modChan t c (fun x =>
    let y := x.setBank b { x.bank b with bench := true }
    mine.foldl (fun y no => y.modReq no (fun r => { r with rd := false })) y)
  s.modBench t (fun x => { x with actAt := max x.actAt ((s.chan t c).bank b).act })

/-- R107: a set opens in waves of ACT_WIN entries, 200 ns apart, the first at least 200 ns after the last bench activate. -/
def State.openSet (s : State) (t win : Nat) (es : List SetE) : State :=
  let start := max ((s.tower t).bench.actAt + 199) (maxL (es.map (fun e => (s.chan t (s.phys t (e.cg % 32))).now)))
  let start := if (s.tower t).bench.actAt = 0 then maxL (es.map (fun e => (s.chan t (s.phys t (e.cg % 32))).now)) else start
  forN es.length s (fun s i =>
    match es[i]? with
    | some e => (setBanks [e]).foldl (fun s k => s.engage t (start + 200 * (i / win)) k) s
    | none => s)

/-- R121: the rows of the set close: units that reads corrected or found uncorrectable are written back (R124), rows that
were written enter the dirty log, and each bank issues its owed refreshes, requests that waited served between them. -/
def State.closeSet (s : State) (t : Nat) : State :=
  let x := (s.tower t).bench
  let s := x.fix.foldl (fun s (k, cw) => s.setRawUnit k cw) s
  let s := x.written.foldl (fun s w => s.dirtyRow t (w / 32768 / 64) (w / 32768 % 64) (w % 32768)) s
  let s := s.modBench t (fun b => { b with rows := [], written := [], fix := [] })
  (setBanks x.rows).foldl (fun s k =>
    let c := s.bkChan t k
    let b := bkB k
    let owed := ((s.chan t c).bank b).owed
    let s := s.preBank t c b
    let s := s.modChan t c (fun x => x.setBank b { x.bank b with bench := false, owed := 0 })
    forN (max owed 1) s (fun s _ => (if owed = 0 then s else s.refreshBank t c b).yieldBank t c b)) s

end Sys2Proof.Machine
end

