-- ==== Sys2Proof/Machine/Ledger.lean ====
section
/-! DEFINITION. The ledger of a tower as the Tallyman keeps it: the frame table (R142, R143, R154, R468), page frames
and their channel groups (R132 to R137), sequence records and page lists (R140, R141), digests (R144) and scale
entries (R177 to R180). The tables lie in tower memory; Tw.frm is the Tallyman's own knowledge of the frame states. -/

namespace Sys2Proof.Machine

/-! ### Configuration of a stall's model -/

/-- STL.SCALE_CFG.LAYERS and SPL. -/
def State.layers (s : State) (st : Nat) : Nat := s.fld (stlR st 0x20C) 7 0
def State.spl (s : State) (st : Nat) : Nat := s.fld (stlR st 0x20C) 18 16 + 1

/-- ⌈p / 128⌉: digest frames of p pages. -/
def digFrames (p : Nat) : Nat := (p + 127) / 128

/-- R336: PCAP of a session sized for maxlen. -/
def pcapOf (maxlen : Nat) : Nat := (maxlen + 8 + 63) / 64

/-- R141: entries of one layer's block of a page list. -/
def plistS (pcap : Nat) : Nat := pcap + digFrames pcap

/-- R342: LEN + 8 > PCAP × 64. -/
def Ses.full (x : Ses) : Bool := decide (x.pcap * 64 < x.len + 8)

/-! ### The frame table (R142) -/

def mkFrm (gen owner : Nat) (scrub : Bool) (st : Nat) : Word := w32 (gen % 65536 * 65536 + owner % 256 * 256 + b2n scrub * 4 + st)
def frmState (w : Word) : Nat := fget w 1 0
def frmScrub (w : Word) : Bool := fbit w 2
def frmOwner (w : Word) : Nat := fget w 15 8
def frmGen (w : Word) : Nat := fget w 31 16

/-- The entry a build writes: DIRTY, GEN 0, OWNER 0, SCRUB 1 (R468). -/
def freshFrm : Word := 5#32

/-- Frames of a tower, once its table is built. -/
def State.frames (s : State) (t : Nat) : Nat := if (s.tower t).built then 32768 * s.gib t else 0

def State.frm (s : State) (t f : Nat) : Word := mget freshFrm (s.tower t).frm f

/-- The address of the entry of frame f. -/
def State.frmAddr (s : State) (t f : Nat) : Nat := s.reg64 (twrR t 0xAC) + 4 * f

/-- Write a frame-table entry, and keep KV_STAT and KV_DIRTY (R157). -/
def State.setFrm (s : State) (t f : Nat) (w : Word) : State :=
  let old := frmState (s.frm t f)
  let new := frmState w
  let adj (v code : Nat) : Nat := v + b2n (new == code) - b2n (old == code)
  let s := s.modTower t (fun x => { x with frm := mset freshFrm x.frm f w })
  let s := s.setFld (twrR t 0xB8) 22 0 (adj (s.fld (twrR t 0xB8) 22 0) 0)
  let s := s.setFld (twrR t 0xBC) 22 0 (adj (s.fld (twrR t 0xBC) 22 0) 1)
  s.writeWords (s.frmAddr t f) [w]

/-- R468: build the frame table of a tower: every frame DIRTY, GEN 0, OWNER 0, SCRUB 1. -/
def State.buildFrames (s : State) (t : Nat) : State :=
  let n := 32768 * s.gib t
  let s := s.modTower t (fun x => { x with frm := [], built := true, mapDirty := false, scrub := [] })
  let s := (s.setFld (twrR t 0xB8) 22 0 0).setFld (twrR t 0xBC) 22 0 n
  forN n s (fun s f => s.writeWords (s.frmAddr t f) [freshFrm])

/-! ### Placement (R136, R137, R319) -/

/-- The channel groups of a class in ascending order: A of R136. -/
def clsGroups (isolate be : Bool) : List Nat :=
  (List.range 128).filter (fun cg => !isolate || (decide (16 ≤ cg % 32) == be))

def State.groups (s : State) (t : Nat) (be : Bool) : List Nat := clsGroups (s.bit (twrR t 0xA0) 0) be

/-- The channel group of page k, and of digest frame i, under base offset b. -/
def pageCg (a : List Nat) (b k : Nat) : Nat := a.getD ((b + k) % a.length) 0
def digCg (a : List Nat) (b i : Nat) : Nat := a.getD ((b + 64 + i) % a.length) 0

/-- The frames of a channel group, in no scrub program, whose entry satisfies a condition. -/
def State.framesAt (s : State) (t cg : Nat) (p : Word → Bool) : List Nat :=
  ((s.tower t).frm.filter (fun (f, w) =>
    f % 128 == cg && decide (f < s.frames t) && !smem (s.tower t).scrub f && p w)).map (·.1)

/-- The CLEAN frames of a channel group. -/
def State.cleanAt (s : State) (t cg : Nat) : List Nat := s.framesAt t cg (fun w => frmState w == 0)

/-- The frames of a channel group that only one context may have again without scrub (R154). -/
def State.ownAt (s : State) (t cg ctx : Nat) : List Nat :=
  s.framesAt t cg (fun w => frmState w == 1 && !frmScrub w && frmOwner w == ctx % 256)

/-- Frames on a channel group that pages p0 to p1 - 1 of every layer, and their digest frames, take. -/
def needAt (a : List Nat) (b layers p0 p1 cg : Nat) : Nat :=
  layers * (((List.range (p1 - p0)).countP (fun j => pageCg a b (p0 + j) == cg)) +
            ((List.range (digFrames p1 - digFrames p0)).countP (fun j => digCg a b (digFrames p0 + j) == cg)))

/-- Frames promised to a context on a channel group: reserved by its admitted LC sessions and not yet allocated (R137). -/
def State.promisedTo (s : State) (t cg ctx : Nat) : Nat :=
  sumL ((s.ses.filter (fun x => x.home == t && !x.be && x.st != .wait && x.ctx == ctx)).map (fun x =>
    needAt (s.groups t false) x.base (s.layers x.stall) x.pages x.pcap cg))

/-- CLEAN frames of a channel group that what is promised to other contexts does not need. -/
def State.spareAt (s : State) (t cg ctx : Nat) : Nat :=
  let others := ((s.ses.filter (fun x => x.home == t && !x.be && x.ctx != ctx)).map (fun x => x.ctx)).foldl sadd []
  (s.cleanAt t cg).length - sumL (others.map (fun y => s.promisedTo t cg y - (s.ownAt t cg y).length))

/-- The frames that a context may be given on a channel group: its own, and CLEAN ones that no promise needs. -/
def State.freeAt (s : State) (t cg ctx : Nat) : List Nat :=
  s.ownAt t cg ctx ++ (if s.spareAt t cg ctx = 0 then [] else s.cleanAt t cg)

/-- Free frames on a channel group: allocatable and not promised. -/
def State.availAt (s : State) (t cg ctx : Nat) : Nat :=
  (s.ownAt t cg ctx).length + s.spareAt t cg ctx - s.promisedTo t cg ctx

/-- Free frames of a class in a tower. -/
def State.freeCls (s : State) (t : Nat) (be : Bool) (ctx : Nat) : Nat :=
  sumL ((s.groups t be).map (fun cg => s.availAt t cg ctx))

/-- R319: the base offset: the position in A of the channel group with the most free frames; ties to the lowest. -/
def State.baseOf (s : State) (t : Nat) (be : Bool) (ctx : Nat) : Nat :=
  let a := s.groups t be
  let l := a.map (fun cg => s.availAt t cg ctx)
  (l.findIdx? (fun n => n == maxL l)).getD 0

/-- All frames of a channel group, in every state. -/
def State.totalAt (s : State) (t : Nat) : Nat := s.frames t / 128

/-- R336: could the tower hold the frames on the channel groups R137 requires, were every one of them free? -/
def State.couldHold (s : State) (t : Nat) (be : Bool) (layers pcap : Nat) : Bool :=
  let a := s.groups t be
  if be then decide (layers * plistS pcap ≤ s.totalAt t * a.length)
  else a.all (fun cg => decide (needAt a 0 layers 0 pcap cg ≤ s.totalAt t))

/-- R336: can the tower hold the reservation of an LC session now? -/
def State.canHoldLc (s : State) (t layers pcap ctx : Nat) : Bool :=
  let a := s.groups t false
  let b := s.baseOf t false ctx
  a.all (fun cg => decide (needAt a b layers 0 pcap cg ≤ s.availAt t cg ctx))

/-- R337: can the tower give a BE session the frames of its prefix plus one page per layer, keeping BE_HEAD GiB? -/
def State.canHoldBe (s : State) (st t layers pfxlen ctx : Nat) : Bool :=
  let p := (pfxlen + 63) / 64
  decide (layers * (p + digFrames p) + layers + 32768 * s.fld (stlR st 0x244) 15 8 ≤ s.freeCls t true ctx)

/-! ### Sequence records and page lists (R140, R141) -/

def State.recAddr (s : State) (t r : Nat) : Nat := s.reg64 (twrR t 0xA4) + 32 * r

/-- The sequence records of a tower that no session holds. -/
def State.freeRecs (s : State) (t : Nat) : List Nat :=
  (List.range (s.fld (twrR t 0xB4) 14 0)).filter (fun r => !s.ses.any (fun x => x.home == t && x.st != .wait && x.ledg == r))

/-- The 32 B sequence record of a session (R140); drafts as they stand. -/
def State.recWords (s : State) (x : Ses) (drafts : Nat) : List Word :=
  [w32 (2 ^ 31 + b2n x.be * 2 ^ 30 + x.ctx % 256 * 65536 + x.slot), w32 x.len, w32 drafts, w32 (x.pcap * 65536 + x.pages)]
    ++ w64 x.plist ++ [x.cstep, w32 (s.layers x.stall)]

def State.writeRec (s : State) (x : Ses) (drafts : Nat) : State :=
  s.writeWords (s.recAddr x.home x.ledg) (s.recWords x drafts)

/-- An event of the ledger data of a tower: ledger damage 0x4000 or poisoned data 0x4100 (R423). -/
def State.ledgerEvent (s : State) (t code sev da : Nat) : State :=
  let l := s.loc da
  s.logErr (.twr t) code sev da (s.phys l.t l.ch)

/-- Rewrite a record with VALID 0. -/
def State.voidRec (s : State) (x : Ses) : State :=
  let a := s.recAddr x.home x.ledg
  let (w, _, s) := s.readWords a 1
  s.writeWords a [fset (wd w 0) 31 31 0]

/-- The address of entry j of layer l of a session's page list. -/
def Ses.entry (x : Ses) (l j : Nat) : Nat := x.plist + 8 * (l * plistS x.pcap + j)

/-- What a page-list entry says: frame, GEN, PRESENT, and whether it was read poisoned. -/
structure PEnt where
  frame : Nat
  gen : Nat
  present : Bool
  bad : Bool
deriving DecidableEq, Repr

def State.readEnt (s : State) (x : Ses) (l j : Nat) : PEnt × State :=
  let (w, bad, s) := s.readWords (x.entry l j) 2
  (⟨fget (wd w 0) 22 0, fget (wd w 1) 31 16, fbit (wd w 1) 7, bad⟩, s)

def State.writeEnt (s : State) (x : Ses) (l j frame gen : Nat) (present : Bool) : State :=
  s.writeWords (x.entry l j) [w32 frame, w32 (gen * 65536 + b2n present * 128)]

/-- The device address of frame f of a tower. -/
def State.frameDa (s : State) (t f : Nat) : Nat := t * 2 ^ 37 + s.benchBase t + f * 32768

/-- Replace a session in the list. -/
def State.putSes (s : State) (x : Ses) : State :=
  { s with ses := s.ses.map (fun y => if y.ctx = x.ctx && y.sid == x.sid then x else y) }

/-- The session with a context and SID. -/
def State.findSes (s : State) (ctx : Nat) (sid : Word) : Option Ses :=
  s.ses.find? (fun x => x.ctx == ctx && x.sid == sid)

/-- R137: choose a frame for the channel group: on it for an LC session; for a BE session on it or on the next channel
group of A with a frame free. Among several, a free choice (assumption log 23). -/
def State.pickFrame (s : State) (x : Ses) (cg : Nat) : Option Nat × State :=
  let a := s.groups x.home x.be
  let i := (a.findIdx? (fun g => g == cg)).getD 0
  let order := if x.be then (a.drop i) ++ (a.take i) else [cg]
  match order.find? (fun g => decide (0 < if x.be then s.availAt x.home g x.ctx else (s.freeAt x.home g x.ctx).length)) with
  | none => (none, s)
  | some g =>
    let l := s.freeAt x.home g x.ctx
    let (j, s) := s.draw l.length
    (l[j]?, s)

/-- R143: allocate a frame for entry j of layer l. -/
def State.allocEnt (s : State) (x : Ses) (l j cg : Nat) : State :=
  match s.pickFrame x cg with
  | (none, s) => s
  | (some f, s) =>
    let g := (frmGen (s.frm x.home f) + 1) % 65536
    (s.setFrm x.home f (mkFrm g x.ctx false 2)).writeEnt x l j f g true

/-- Allocate page k of every layer, and with page 128i digest frame i (assumption log 24). -/
def State.allocPage (s : State) (x : Ses) (k : Nat) : State :=
  let a := s.groups x.home x.be
  forN (s.layers x.stall) s (fun s l =>
    let s := s.allocEnt x l k (pageCg a x.base k)
    if k % 128 = 0 then s.allocEnt x l (x.pcap + k / 128) (digCg a x.base (k / 128)) else s)

/-- Give a session every page below p. -/
def State.growTo (s : State) (x : Ses) (p : Nat) : State :=
  let s := forN (p - x.pages) s (fun s j => s.allocPage x (x.pages + j))
  s.putSes { x with pages := max x.pages p }

/-- Frames a session needs to reach p pages. -/
def State.needFrames (s : State) (x : Ses) (p : Nat) : Nat :=
  s.layers x.stall * ((p - x.pages) + (digFrames p - digFrames x.pages))

/-- Free one entry's frame: PRESENT 0, then STATE DIRTY (R143). A poisoned entry names no frame (R434). -/
def State.freeEnt (s : State) (x : Ses) (l j : Nat) : State :=
  let (e, s) := s.readEnt x l j
  if e.bad || !e.present then s
  else
    let s := s.writeEnt x l j e.frame e.gen false
    let w := s.frm x.home e.frame
    if frmState w = 2 && frmGen w == e.gen then s.setFrm x.home e.frame (mkFrm (frmGen w) (frmOwner w) false 1) else s

/-- Free every frame of a session and end its record. -/
def State.freeSes (s : State) (x : Ses) : State :=
  let s := forN (s.layers x.stall) s (fun s l =>
    let s := forN x.pages s (fun s k => s.freeEnt x l k)
    forN (digFrames x.pages) s (fun s i => s.freeEnt x l (x.pcap + i)))
  s.voidRec x

/-- R434: free every ALLOC frame of a tower that no valid page list names. -/
def State.collectFrames (s : State) (t : Nat) : State :=
  let (named, s) := (s.ses.filter (fun x => x.home == t && x.st != .wait)).foldl (fun (acc : List Nat × State) x =>
    forN (s.layers x.stall) acc (fun acc l =>
      forN (plistS x.pcap) acc (fun acc j =>
        let (e, s) := acc.2.readEnt x l j
        (if e.present && !e.bad then sadd acc.1 e.frame else acc.1, s)))) (([] : List Nat), s)
  ((s.tower t).frm).foldl (fun s (f, w) =>
    if frmState w = 2 && !smem named f then s.setFrm t f (mkFrm (frmGen w) (frmOwner w) false 1) else s) s

/-- What the GEN compare of R143 finds for an entry against its frame's entry in memory. -/
inductive GenCmp where
  | valid | stale | damaged | badEntry | badFrame (f : Nat)
deriving DecidableEq, Repr

/-- R143: compare one entry that is PRESENT. -/
def State.checkEnt (s : State) (x : Ses) (l j : Nat) : GenCmp × State :=
  let (e, s) := s.readEnt x l j
  if e.bad then (.badEntry, s)
  else if !e.present then (.valid, s)
  else
    let (w, bad, s) := s.readWords (s.frmAddr x.home e.frame) 1
    if bad then (.badFrame e.frame, s)
    else
      let g := frmGen (wd w 0)
      if e.gen = g then (.valid, s)
      else if newer 16 g e.gen then (.stale, (s.bump (twrR x.home 0xC4) 1))
      else (.damaged, s)

/-! ### Digests (R144) -/

/-- The FP32 value of element e of the key of token t in a page's bytes. -/
def keyAt (page : List Byte) (t e : Nat) : Nat := leNat ((page.drop (512 * t + 2 * e)).take 2) * 65536

/-- The mean of the 64 keys of a page: the sum of each deck's 4 tokens, then the decks in ascending order, then × 1/64,
stored in BF16 (assumption log 25). -/
def digestElem (page : List Byte) (e : Nat) : Nat :=
  let add (a b : Nat) : Nat := (fpAdd fp32 a b).v
  let deck (d : Nat) : Nat :=
    add (add (keyAt page (4 * d) e) (keyAt page (4 * d + 1) e)) (add (keyAt page (4 * d + 2) e) (keyAt page (4 * d + 3) e))
  let sum := (List.range 15).foldl (fun a d => add a (deck (d + 1))) (deck 0)
  let (v, i) := decodeN .fp32 (fpMul fp32 sum 0x3C800000).v
  (convTo .bf16 v i).code

/-- Write the digest of page k of a layer. A poisoned key unit poisons the digest. -/
def State.writeDigest (s : State) (x : Ses) (l k : Nat) : State :=
  let (e, s) := s.readEnt x l k
  let (g, s) := s.readEnt x l (x.pcap + k / 128)
  if e.bad || g.bad || !e.present || !g.present then s
  else
    let (d, s) := State.read0 32768 s (s.frameDa x.home e.frame)
    let page := d.map (·.1)
    let bad := (List.range 64).any (fun t => ((d.drop (512 * t)).take 256).any (·.2))
    let out := ((List.range 128).map (fun i => leBytes 2 (digestElem page i))).flatten.map (fun b => (b, bad))
    (s.write0 .tally (s.frameDa x.home g.frame + 256 * (k % 128)) out).bump (twrR x.home 0xC8) 1

/-! ### Scale entries (R177 to R181) -/

/-- The scale entry of scale point sp of sequence record r. -/
def State.scaleAddr (s : State) (st t r sp : Nat) : Nat :=
  s.reg64 (twrR t 0xE0) + 64 * (r * (s.layers st * s.spl st) + sp)

/-- The miss word of a layer. -/
def State.missAddr (s : State) (st l : Nat) : Nat := s.reg64 (stlR st 0x210) + 32 * l

/-- DEF_E of the format descriptor of a scale point: of the first quantisation point in the table that names it. Where
none does, a free value (assumption log 26). -/
def State.defE (s : State) (st sp : Nat) : Nat × State :=
  match ((s.stall st).fmts.find? (fun f => fbit (wd f.2.ws 0) 23 && fget (wd f.2.ws 1) 10 0 == sp)) with
  | some f => (fget (wd f.2.ws 1) 31 24, s)
  | none => s.draw 256

/-- R180: initialise every scale entry of a session. -/
def State.initScale (s : State) (x : Ses) : State :=
  forN (s.layers x.stall * s.spl x.stall) s (fun s sp =>
    let (e, s) := s.defE x.stall sp
    s.writeWords (s.scaleAddr x.stall x.home x.ledg sp)
      ([0, 0, w32 (e * 2 ^ 24)] ++ List.replicate 13 0))

/-- R180: zero unit B of every entry of a session. -/
def State.zeroScale (s : State) (x : Ses) : State :=
  forN (s.layers x.stall * s.spl x.stall) s (fun s sp =>
    s.writeWords (s.scaleAddr x.stall x.home x.ledg sp + 32) (List.replicate 8 0))

/-- R179: the new unit A of an entry whose highest bucket with a count is top. -/
def scaleUpdate (a : List Word) (top histLen headroom step : Nat) : List Word :=
  let se := sext 8 (fget (wd a 2) 31 24)
  let cnt := fget (wd a 2) 23 20
  let next := fget (wd a 2) 11 8 % 8
  let act := clampI (-126) 127 (se + top - 2)
  let hist := (List.range 8).map (fun i => if i = next then act else sext 8 (fget (wd a (i / 4)) (8 * (i % 4) + 7) (8 * (i % 4))))
  let next' := (next + 1) % 8
  let cnt' := min (cnt + 1) 8
  let n := min cnt' histLen
  let last := (List.range n).map (fun j => hist.getD ((next' + 8 - 1 - j) % 8) 0)
  let top' := last.foldl (fun m v => if m < v then v else m) (last.headD 0)
  let e' := clampI (-126) 127 (top' + headroom)
  let h (i : Nat) : Nat := trunc 8 (hist.getD i 0)
  [w32 (h 0 + h 1 * 2 ^ 8 + h 2 * 2 ^ 16 + h 3 * 2 ^ 24), w32 (h 4 + h 5 * 2 ^ 8 + h 6 * 2 ^ 16 + h 7 * 2 ^ 24),
   w32 (trunc 8 e' * 2 ^ 24 + cnt' * 2 ^ 20 + next' * 2 ^ 8), w32 step, 0, 0, 0, 0]

/-- R179 and R434: update every scale entry of a session at its commit. A poisoned unit A reads as COUNT 0 with
SCALE_E = DEF_E; a poisoned unit B is ignored. -/
def State.updateScale (s : State) (x : Ses) : State :=
  forN (s.layers x.stall * s.spl x.stall) s (fun s sp =>
    let at_ := s.scaleAddr x.stall x.home x.ledg sp
    let (b, bBad, s) := s.readWords (at_ + 32) 8
    let top := if bBad then none else ((List.range 6).reverse).find? (fun k => (wd b k) != 0)
    let (a, aBad, s) := s.readWords at_ 8
    let (a, s) : List Word × State :=
      if aBad then let (e, s) := s.defE x.stall sp; ([0, 0, w32 (e * 2 ^ 24), 0, 0, 0, 0, 0], s) else (a, s)
    let s := if aBad || bBad then s.ledgerEvent x.home 0x4100 1 (if aBad then at_ else at_ + 32) else s
    match top with
    | some k =>
      let c := s.reg (stlR x.stall 0x218)
      s.writeWords at_ (scaleUpdate a k (fget c 2 0 + 1) (fget c 5 4) (s.stepNo x.stall) ++ List.replicate 8 0)
    | none => if aBad then s.writeWords at_ a else s)

end Sys2Proof.Machine
end

