-- ==== Sys2Proof/Machine/Sessions.lean ====
section
/-! DEFINITION. Sessions and requests of the Tallyman: the records of R299 and R326 to R332 applied, requests and
sessions ended, and the DONE and TOKENS records of R350 to R352. Status: 0 COMPLETE, 1 CANCELLED, 2 EVICTED, 3 FAILED. -/

namespace Sys2Proof.Machine

/-! ### Result records of sessions -/

/-- The ring pair of a session. -/
def State.sesPair (s : State) (x : Ses) : Nat := s.ctxPair x.stall (x.ctx % 64)

/-- R351: the DONE record of a request. -/
def State.formReqDone (s : State) (x : Ses) (q : Rq) (status cause : Nat) : Desc :=
  s.form x.stall tDone q.user
    ([w32 (status * 65536 + cause), x.sid, w32 q.delivered, w32 (b2n x.pend.isSome * 2 ^ 31 + x.len)] ++ w64 q.tsamp ++ w64 q.tfirst)

/-- R351: the DONE record of a session. -/
def State.formSesDone (s : State) (x : Ses) (status cause : Nat) : Desc :=
  s.form x.stall tDone x.user
    ([w32 (status * 65536 + 256 + cause), x.sid, w32 x.delivered, w32 (b2n x.pend.isSome * 2 ^ 31 + x.len)] ++ w64 x.tsamp ++ w64 x.tadm)

/-- R350: a TOKENS record. -/
def State.formTokens (s : State) (x : Ses) (user count accept drafts : Nat) (adm first last : Bool) (pos : Nat)
    (toks : List Word) : Desc :=
  s.form x.stall tTokens user
    ([w32 (count * 2 ^ 28 + accept * 2 ^ 25 + drafts * 2 ^ 22 + b2n adm * 2 ^ 21 + b2n first * 2 ^ 20 + b2n last * 2 ^ 19 + pos),
      x.sid] ++ toks)

/-- STL.FT_MAX_US (R351): the largest TFIRST − TSAMP of a request DONE. -/
def State.noteFirst (s : State) (x : Ses) (q : Rq) : State :=
  if q.tfirst = 0 then s
  else
    let a := stlR x.stall 0x258
    s.setReg a (w32 (max (s.reg a).toNat (min ((q.tfirst - q.tsamp) / 1000) 0xFFFFFFFF)))

/-! ### Requests of records -/

/-- The request that a SUBMIT or APPEND record asks for. -/
def mkRq (x : Ses) (r : Desc) (t ord : Nat) : Rq :=
  let app := dfld r 0 31 24 == 3
  let ntok := dfld r 5 31 16
  let addr := d64 r 6
  { user := d64 r 2, app := app, ntok := ntok, maxnew := dfld r 5 15 0, tokaddr := addr,
    toks := if addr = 0 then (List.range ntok).map (fun i => some (dw r (10 + i))) else List.replicate ntok none,
    invt := if dbit r 9 31 then dw r 8 else x.invt, delivered := 0, len0 := 0, rows := 0, total := 0, tsamp := t,
    tfirst := 0, ord := ord }

/-- The requests among the records held for a session that still waits. -/
def Ses.heldRqs (x : Ses) : List Rq :=
  (x.held.filter (fun h => [2, 3].contains (dfld h.r 0 31 24))).map (fun h => mkRq x h.r h.t h.ord)

/-! ### Ending a session -/

/-- Remove a session: its frames become DIRTY and its slot and record are free. -/
def State.dropSes (s : State) (x : Ses) : State :=
  let s := if x.st = .wait || 16384 ≤ x.slot then s else s.freeSes x
  { s with ses := s.ses.filter (fun y => !(y.ctx == x.ctx && y.sid == x.sid)) }

/-- The DONE records of a session that ends: each request's own, then the session's (R351). -/
def State.endRecs (s : State) (x : Ses) (status cause : Nat) : List (Rq × Nat × Nat) × Desc :=
  (x.fin ++ (match x.act with
    | some q => (match x.cancel with | some (a, b) => [(q, a, b)] | none => [(q, status, cause)])
    | none => []) ++ (x.queue ++ x.heldRqs).map (fun q => (q, status, cause)),
   s.formSesDone x status cause)

/-- End a session at a boundary of an idle stall: its records are written at once; or, where they must not be written
(R364), each counts in RES_LOST_CNT of port p. -/
def State.endNow (s : State) (x : Ses) (status cause : Nat) (lostAt : Option Nat) : State :=
  let (rq, d) := s.endRecs x status cause
  let s := s.dropSes x
  let k := s.sesPair x
  match lostAt with
  | some p => (rq ++ [(default_, 0, 0)]).foldl (fun s _ => (s.bump (prtR p 0x318) 1).flagErr (.prt p) 17 0 2 none 0 0) s
  | none => (rq.foldl (fun s (q, a, b) => (s.answer k (s.formReqDone x q a b)).noteFirst x q) s).answer k d
where
  default_ : Rq := ⟨0, false, 0, 0, 0, [], 0, 0, 0, 0, 0, 0, 0, 0⟩

/-- End a session: within a step it is reported in part 7 and freed in part 8 (R333); otherwise at once. -/
def State.endSes (s : State) (x : Ses) (status cause : Nat) : State :=
  if s.inStep x.stall then
    s.putSes { x with ending := some (x.ending.getD (status, cause)), drop := true }
  else s.endNow x status cause none

/-! ### Fields of a record (R329) -/

/-- The lowest of words i to 15 that is not zero. -/
def firstNonzero (r : Desc) (i : Nat) : Option Nat :=
  ((List.range (16 - i)).map (· + i)).find? (fun j => dw r j != 0)

/-- The lowest word that holds a fault, of pairs of a word and whether it holds one. -/
def firstFault (l : List (Nat × Bool)) : Option Nat := (l.find? (·.2)).map (·.1)

/-- R329: the lowest body word that holds a fault, by the record's TYPE (assumption log 136). -/
def badField (r : Desc) : Option Nat :=
  match dfld r 0 31 24 with
  | 1 =>
    let maxlen := dfld r 5 18 0
    let pfx := dfld r 11 18 0
    firstFault [(5, dfld r 5 29 19 != 0 || maxlen == 0 || decide (262136 < maxlen)),
                (11, dfld r 11 31 19 != 0 || decide (maxlen < pfx)), (12, pfx == 0 && d64 r 12 != 0),
                (14, dfld r 14 31 7 != 0 || decide (64 < dfld r 14 6 0)), (15, dw r 15 != 0)]
  | 2 | 3 =>
    let app := dfld r 0 31 24 == 3
    let ntok := dfld r 5 31 16
    let maxnew := dfld r 5 15 0
    let inl := d64 r 6 == 0
    firstFault ([(5, (inl && decide (6 < ntok)) || (if app then ntok == 0 || maxnew != 0 else maxnew == 0)),
                 (6, d64 r 6 % 4 != 0), (9, dfld r 9 30 0 != 0)]
      ++ (List.range 6).map (fun i => (10 + i, dw r (10 + i) != 0 && (!inl || decide (ntok ≤ i)))))
  | 4 =>
    let n := dfld r 5 31 29
    firstFault ([(5, n == 0 || dfld r 5 28 19 != 0)]
      ++ (List.range 7).map (fun i => (6 + i, decide (n ≤ i) && dw r (6 + i) != 0))
      ++ [(13, dw r 13 != 0), (14, dw r 14 != 0), (15, dw r 15 != 0)])
  | 5 => firstFault ([(5, dfld r 5 30 19 != 0)] ++ match firstNonzero r 6 with | some j => [(j, true)] | none => [])
  | _ => firstNonzero r 5

/-! ### OPEN_SESSION (R326, R329, R336, R383) -/

/-- The sequence slots of the module that no session holds (R11). -/
def State.freeSlots (s : State) : List Nat :=
  (List.range 16384).filter (fun i => !s.ses.any (fun x => x.slot == i))

/-- The sessions as an OPEN_SESSION makes one. -/
def newSes (st : Nat) (h : Taken) (ord seed slot : Nat) : Ses :=
  let r := h.r
  { stall := st, ctx := dfld r 1 7 0, sid := dw r 4, be := dbit r 5 31, spec := dbit r 5 30, maxlen := dfld r 5 18 0,
    seed := seed, invt := dw r 8, stop0 := dw r 9, stop1 := dw r 10, pfxlen := dfld r 11 18 0, pfx := d64 r 12,
    topk := dfld r 14 6 0, user := d64 r 2, tsamp := h.t, tadm := 0, st := .wait, slot := slot, home := 0, ledg := 0,
    plist := 0, base := 0, pcap := pcapOf (dfld r 5 18 0), pages := 0, len := 0, pend := none, act := none, queue := [],
    held := [], ord := ord, delivered := 0, waited := 0, parkedFor := 0, admitStep := 0, cstep := 0, draft := none,
    heads := [], marks := [], fixed := none, inStep := false, rowsNow := 0, drafts := [], outs := [], poison := false, drop := false,
    accept := 0, attn := [], params := [], fin := [], cancel := none, trunc := none, redig := [], reqEnd := none, ending := none }

/-- The in-service towers of a stall. -/
def State.inService (s : State) (st : Nat) : List Nat := (s.towersOf st).filter (fun t => !(s.tower t).oos)

/-- R336, R337: could no tower hold the session even with every frame free? -/
def State.noFrames (s : State) (x : Ses) : Bool :=
  !(s.inService x.stall).any (fun t => s.couldHold t x.be (s.layers x.stall) x.pcap)

/-- R383: a seed of the generator; its requests are counted. -/
def State.drawSeed (s : State) : Nat × State :=
  ((Config.freeSeed s.free).toNat, { s with free := s.free + 1, sec := { s.sec with drbg := s.sec.drbg + 1 } })

/-- Apply an OPEN_SESSION. -/
def State.applyOpen (s : State) (st : Nat) (h : Taken) (ord : Nat) : State :=
  let r := h.r
  let err (code detail : Nat) : State := s.answerError h.pair (d64 r 2) code h.idx detail
  match badField r with
  | some w => err 0x103 w
  | none =>
    if (s.findSes (dfld r 1 7 0) (dw r 4)).isSome then err 0x101 (dw r 4).toNat
    else if !dbit r 5 31 && !s.bit (stlR st (0x400 + 8 * (dfld r 1 7 0 % 64))) 30 then err 0x104 (dfld r 1 7 0)
    else
      let add (s : State) (x : Ses) : State := { s with ses := s.ses ++ [x] }
      let fail (s : State) (cause : Nat) : State :=
        let x := newSes st h ord 0 16384
        (add s x).endSes x 3 cause
      if d64 r 6 = 0 && !s.sec.entropyOk then fail s 0x15
      else match s.freeSlots with
        | [] => fail (s.flagErr (.stl st) 23 0 0 (some (dfld r 1 7 0)) 0 0) 8
        | slots =>
          let (seed, s) := if d64 r 6 = 0 then s.drawSeed else (d64 r 6, s)
          let (j, s) := s.draw slots.length
          let x := newSes st h ord seed (slots.getD j 0)
          let s := add s x
          if s.noFrames x then s.endSes x 3 9 else s

/-! ### SUBMIT, APPEND, DRAFT, CANCEL, CLOSE (R326 to R331, R344 to R348) -/

/-- R327, R342: a request joins its session's queue, or is answered at once (assumption log 136). -/
def State.applyRequest (s : State) (x : Ses) (h : Taken) (ord : Nat) : State :=
  let q := mkRq x h.r h.t ord
  if x.full then s.putSes { x with fin := x.fin ++ [(q, 3, 4)] }
  else if 4 ≤ x.queue.length then s.putSes { x with fin := x.fin ++ [(q, 3, 0x0C)] }
  else s.putSes { x with queue := x.queue ++ [q] }

/-- R348: a DRAFT replaces an unused one. -/
def State.applyDraft (s : State) (x : Ses) (r : Desc) : State :=
  s.putSes { x with draft := some (dfld r 5 18 0, (List.range (dfld r 5 31 29)).map (fun i => dw r (6 + i))) }

/-- R344, R346: a CANCEL ends the active request, or the oldest pending one (assumption log 136). -/
def State.applyCancel (s : State) (x : Ses) (h : Taken) : State :=
  let r := h.r
  match x.act, x.cancel with
  | some q, none =>
    let t := if dbit r 5 31 then some (max (dfld r 5 18 0) q.len0) else none
    (s.putSes { x with cancel := some (1, 5), trunc := t, drop := true }).bump (stlR x.stall 0x26C) 1
  | _, _ =>
    match x.queue with
    | q :: rest => (s.putSes { x with queue := rest, fin := x.fin ++ [(q, 1, 5)] }).bump (stlR x.stall 0x26C) 1
    | [] => s.answerError h.pair (d64 r 2) 0x102 h.idx x.sid.toNat

/-- R347: a CLOSE cancels every request of its session and ends it in this step; before admission it is CANCELLED. -/
def State.applyClose (s : State) (x : Ses) : State :=
  if x.st = .wait then s.putSes { x with ending := some (1, 6) }
  else
    let n := x.queue.length + b2n (x.act.isSome && x.cancel.isNone)
    (s.putSes { x with cancel := if x.act.isSome then some (x.cancel.getD (1, 6)) else none,
                       fin := x.fin ++ x.queue.map (fun q => (q, 1, 6)), queue := [], drop := true,
                       ending := some (0, 6) }).bump (stlR x.stall 0x26C) n

/-- Apply a record to its session, which is admitted. -/
def State.applyTo (s : State) (x : Ses) (h : Taken) (ord : Nat) : State :=
  match dfld h.r 0 31 24 with
  | 2 | 3 => s.applyRequest x h ord
  | 4 => s.applyDraft x h.r
  | 5 => s.applyCancel x h
  | _ => s.applyClose x

/-- R326 to R329: apply one session record other than OPEN_SESSION; records of a waiting session are held (R327), but
for a CLOSE (assumption log 136). -/
def State.applySession (s : State) (h : Taken) (ord : Nat) : State :=
  let r := h.r
  match badField r with
  | some w => s.answerError h.pair (d64 r 2) 0x103 h.idx w
  | none =>
    match s.findSes (dfld r 1 7 0) (dw r 4) with
    | none => s.answerError h.pair (d64 r 2) 0x101 h.idx (dw r 4).toNat
    | some x =>
      if x.ending.isSome then s.answerError h.pair (d64 r 2) 0x101 h.idx (dw r 4).toNat
      else if x.st = .wait && dfld r 0 31 24 != 6 then s.putSes { x with held := x.held ++ [{ h with ord := ord }] }
      else s.applyTo x h ord

/-- Apply a record taken: part 2 of a step (R333). An EXPERT_LIST waits for its launch (R303). -/
def State.applyRecord (s : State) (h : Taken) : State :=
  let st := s.ringStall h.pair
  match s.headerError h.pair h.r with
  | some (code, detail) => s.answerError h.pair (d64 h.r 2) code h.idx detail
  | none =>
    let ord := (s.stall st).ordNo
    let s := s.modStall st (fun y => { y with ordNo := ord + 1, redo := y.redo ++ [h] })
    match dfld h.r 0 31 24 with
    | 1 => s.applyOpen st h ord
    | 16 => s.modStall st (fun y => { y with experts := y.experts ++ [h] })
    | _ => s.applySession h ord

/-- A record command: the record is taken with the command's TYPE and applied; a record of the same index that a
sample took is not applied again. -/
def State.recordCmd (s : State) (p : Port) (n : Pair) (type : Nat) (r : Desc) : State :=
  let k := p.val * 4 + n.val
  let r := dput r 0 31 24 type
  let st := s.ringStall k
  match (s.stall st).taken.find? (fun h => h.pair == k && dput h.r 0 15 0 0 == dput r 0 15 0 0) with
  | some h => (s.modStall st (fun y => { y with taken := dropFirst (fun g => g == h) y.taken })).applyRecord h
  | none => s.applyRecord ⟨k, dfld r 0 15 0, r, s.time, 0⟩

end Sys2Proof.Machine
end

