-- ==== Sys2Proof/Machine/Txn.lean ====
section
/-! DEFINITION. When a page runs (R50), page transactions and device transaction groups as far as other chapters end
them (R52 to R59). -/

namespace Sys2Proof.Machine

/-- A queue holds a descriptor not yet finished. -/
def QSt.busy (q : QSt) : Bool := q.st == 1 || q.st == 2 || (q.st != 3 && decide (q.idx < q.n))

/-- The state of queue j (0 MX, 1 VX, 2 MV, 3 SY) of a core. -/
def CoreSt.queue (c : CoreSt) (j : Nat) : QSt := mget QSt.reset c.q j

def CoreSt.setQueue (c : CoreSt) (j : Nat) (q : QSt) : CoreSt := { c with q := mset QSt.reset c.q j q }

/-- The queue's descriptor is an MV PACK that has begun and is not finished. -/
def QSt.packing (q : QSt) : Bool :=
  q.st == 1 && !q.go && (match q.cur with | some d => dfld d 0 23 20 == 4 && dfld d 1 31 28 == 8 | none => false)

/-- R50: BLK_STAT.RUN of a page. A packer has no list of its own: it holds a descriptor from the begin of a PACK of an MV
queue of its tower to its end (R261, R268; DEDUCED, assumption log 120). -/
def State.runs (s : State) (p : Pg) : Bool :=
  match p with
  | .ais t a => (List.range 16).any (fun i => (List.range 4).any (fun j => ((s.core (coreKey t a i)).queue j).busy))
  | .bsq t => (s.tower t).bnq.busy
  | .pkr t => s.cores.any (fun (k, c) => k / 320 == t && (c.queue 2).packing)
  | .twr t | .thm t | .hwp t _ | .mem t _ =>
    !(s.tower t).oos && s.sstate (s.stallOf t) != 0 && !(s.stall (s.stallOf t)).reconfOn
  | .stl i => s.sstate i != 0 && s.sstate i != 1
  | .prt q => s.bit (prtR q 0x500) 0
  | _ => s.fld (devR 0x98) 3 0 != 0

/-- A page that always runs by R50. -/
def Pg.always : Pg → Bool
  | .dev | .gte _ | .wgh | .rsc | .sec | .mgt | .fls | .tly => true
  | _ => false

def State.txn (s : State) (n : Nat) : Txn := mget Txn.reset s.rf.txns n
def State.setTxn (s : State) (n : Nat) (x : Txn) : State :=
  { s with rf := { s.rf with txns := mset Txn.reset s.rf.txns n x } }
def State.grp (s : State) (g : Nat) : Grp := mget Grp.reset s.rf.groups g
def State.setGrp (s : State) (g : Nat) (x : Grp) : State :=
  { s with rf := { s.rf with groups := mset Grp.reset s.rf.groups g x } }

/-- A transaction that is OPEN, ARMED or FAILED (R48, R56). -/
def Txn.open_ (x : Txn) : Bool := x.st == 1 || x.st == 2 || x.st == 5

/-- The staged writes of a page are discarded and STATE becomes ROLLED. -/
def State.rollPage (s : State) (n : Nat) : State :=
  let s := s.setTxn n { s.txn n with st := 4, staged := [] }
  { s with rf := { s.rf with commits := s.rf.commits.filter (fun m => m != n) } }

/-- The stalls that hold a member of a group. -/
def State.grpStalls (s : State) (g : Nat) : List Nat :=
  ((s.grp g).members.filterMap (fun n => (pageNo n).bind s.pageStall)).foldl sadd []

/-- R59: a stall at its boundary is held from now on. -/
def State.holdStall (s : State) (i : Nat) : State :=
  s.modStall i (fun x => if x.held then x else { x with held := true, heldAt := s.time })

/-- R59: a held stall goes on, unless another armed group holds it too. The time it was held is added to the bound of the
step that follows it. -/
def State.releaseStall (s : State) (i : Nat) : State :=
  if (List.range 16).any (fun g => (s.grp (g + 1)).st == 2 && (s.grpStalls (g + 1)).contains i) then s
  else s.modStall i (fun x => if x.held then
    { x with held := false, heldAt := 0, carry := x.carry + (s.time - x.heldAt + 999) / 1000 } else x)

/-- R58, R59: a group that has ended leaves its members and releases its stalls. -/
def State.closeGroup (s : State) (g st : Nat) : State :=
  let x := s.grp g
  let stalls := s.grpStalls g
  let s := s.setGrp g { x with st := st, members := [], since := none, endAt := s.time }
  stalls.foldl (fun s i => s.releaseStall i) s

/-- R58, R59: a group ends: every member ROLLED, its stalls released, the group ABORTED or FAILED. -/
def State.endGroup (s : State) (g st : Nat) : State :=
  ((s.grp g).members.foldl (fun s n => s.rollPage n) s).closeGroup g st

/-- R56, R58: an event rolls back the transaction of a page, and with it the whole group it belongs to. -/
def State.rollTxn (s : State) (n : Nat) : State :=
  let x := s.txn n
  if !x.open_ then s
  else if x.group = 0 then s.rollPage n
  else s.endGroup x.group 4

/-- R56: roll back every transaction that satisfies a condition on its page number and itself. -/
def State.rollWhere (s : State) (f : Nat → Txn → Bool) : State :=
  (s.rf.txns.filter (fun (n, x) => x.open_ && f n x)).foldl (fun s (n, _) => s.rollTxn n) s

end Sys2Proof.Machine
end

