-- ==== Sys2Proof/Machine/Contexts.lean ====
section
/-! DEFINITION. Contexts: opening, draining, closing and teardown (R309, R310, R322, R364), their keys (R383, R390) and
their semaphores (R273). -/

namespace Sys2Proof.Machine

def ctxCfg (st k : Nat) : Nat := stlR st (0x400 + 8 * k)
def ctxStat (st k : Nat) : Nat := stlR st (0x404 + 8 * k)

/-! ### Keys (R383, R390) -/

/-- A fresh 64 B key of the generator; its requests are counted. -/
def State.drawKey (s : State) : BitVec 512 × State :=
  (Config.freeKey s.free, { s with free := s.free + 1, sec := { s.sec with drbg := s.sec.drbg + 1 } })

/-- Erase the keys that a condition on kind (1 MODEL, 2 CTX) and number picks; each counts in KEY_ERASE_CNT. -/
def State.eraseKeys (s : State) (model ctx : Nat → Bool) : State :=
  let n := (s.sec.model.filter (fun k => model k.1)).length + (s.sec.ctxKey.filter (fun k => ctx k.1)).length
  let s := { s with sec := { s.sec with model := s.sec.model.filter (fun k => !model k.1),
                                        ctxKey := s.sec.ctxKey.filter (fun k => !ctx k.1) } }
  if n = 0 then s else s.bump (secR 0x148) n

/-- R392, R390: every key of the key store is erased. -/
def State.eraseAllKeys (s : State) : State :=
  let s := s.eraseKeys (fun _ => true) (fun _ => true)
  { s with sec := { s.sec with heldKey := [], kimport := [] } }

/-! ### Semaphores (R273) -/

/-- Zero the semaphores of the towers of a stall whose slot satisfies a condition. -/
def State.zeroSem (s : State) (st : Nat) (f : Nat → Bool) : State :=
  (s.towersOf st).foldl (fun s t => s.modTower t (fun x => { x with sem := x.sem.filter (fun (k, _) => !f (k / 32)) })) s

/-! ### Opening (R309) -/

/-- The fields of CTX_CFG other than EN. -/
def cfgRest (w : Word) : Nat := w.toNat % 2 ^ 31

/-- The sum of MIN_SHARE over the OPEN contexts of a stall. -/
def State.shareSum (s : State) (st : Nat) : Nat :=
  sumL ((List.range 64).map (fun k => if s.ctxState st k = 1 then s.fld (ctxCfg st k) 15 8 else 0))

/-- R309: may the opening write of these fields be granted? -/
def State.mayOpen (s : State) (st : Nat) (val : Word) : Bool :=
  let k := fget val 23 22 * 4 + fget val 21 20
  decide (st < s.stalls) && (fbit val 29 || fbit val 30) && s.accepted (fget val 23 22) && s.ringStall k == st &&
  s.sec.entropyOk

/-- R309, R310: a write of STL.CTX_CFGk: it opens, closes or configures the context. -/
def State.writeCtxCfg (s : State) (st k : Nat) (val : Word) : State :=
  let a := ctxCfg st k
  let cur := s.reg a
  let val := val &&& 0xE0F0FFFF#32
  let state := s.ctxState st k
  if state = 0 || state == 3 then
    -- a write takes its new values, and EN stays 0 where the device refuses the opening
    let refused := s.setReg a (val &&& 0x7FFFFFFF#32)
    if !fbit val 31 then s.setReg a val
    else if !s.mayOpen st val then refused
    else if 256 < s.shareSum st + fget val 15 8 then refused.flagErr (.stl st) 31 0 0 none 0 0
    else
      let (key, s) := (s.zeroSem st (fun slot => slot == k)).drawKey
      let s := { s with sec := { s.sec with ctxKey := mset 0 s.sec.ctxKey (ctxNo st k) key } }
      (s.setReg a val).setFld (ctxStat st k) 31 28 1
  else
    let s := if cfgRest val = cfgRest cur then s else s.flagWhileRun (.stl st)
    if state = 1 && !fbit val 31 then
      ((s.setBit a 31 false).setFld (ctxStat st k) 31 28 2).modStall st (fun x => { x with drains := x.drains ++ [(k, 0)] })
    else s

/-! ### Closing (R310, R322, R364) -/

/-- A fault tears a context down: it enters DRAIN. -/
def State.tearDown (s : State) (st k : Nat) : State :=
  if s.ctxState st k = 1 then
    (((s.setFld (ctxStat st k) 31 28 2).bump (stlR st 0xD0) 1).flagErr (.stl st) 27 0 2 (some (ctxNo st k)) 0 0).modStall st
      (fun x => { x with drains := x.drains ++ [(k, 1)] })
  else s

/-- R364: an event of port p puts its OPEN and DRAIN contexts of a stall in DRAIN, to close without DONE records. -/
def State.drainPort (s : State) (p st : Nat) : State :=
  forN 64 s (fun s k =>
    if s.fld (ctxCfg st k) 23 22 = p && (s.ctxState st k == 1 || s.ctxState st k == 2) then
      (s.setFld (ctxStat st k) 31 28 2).modStall st (fun x =>
        { x with drains := x.drains.filter (fun d => d.1 != k) ++ [(k, 2)] })
    else s)

/-- R295: one result record that is not written. -/
def State.loseAt (s : State) (p : Nat) : State := (s.bump (prtR p 0x318) 1).flagErr (.prt p) 17 0 2 none 0 0

/-- Answer an EXPERT_LIST that never started with FAILED, CONTEXT_RESET. -/
def State.failExpert (s : State) (h : Taken) (lostAt : Option Nat) : State :=
  match lostAt with
  | some p => s.loseAt p
  | none => s.answer h.pair (s.formExpert h.pair (d64 h.r 2) 3 0 0 7 0 0 0 false)

/-- R310: the steps that a close or teardown takes at the step boundary: 0 a close, 1 a teardown, 2 a port event. -/
def State.finishDrain (s : State) (st k kind : Nat) : State :=
  let c := ctxNo st k
  let port := s.fld (ctxCfg st k) 23 22
  let lost := if kind = 2 then some port else none
  let (status, cause) := if kind = 1 then (3, 0x0F) else (1, 0x10)
  let s := (s.ses.filter (fun x => x.ctx == c)).foldl (fun s x => s.endNow x status cause lost) s
  let mine (h : Taken) : Bool := dfld h.r 1 7 0 == c && dfld h.r 0 31 24 == 16
  let hs := (s.stall st).experts.filter mine ++ (s.stall st).taken.filter mine
  let s := s.modStall st (fun x => { x with experts := x.experts.filter (fun h => !mine h),
                                            taken := x.taken.filter (fun h => !mine h) })
  let s := hs.foldl (fun s h => s.failExpert h lost) s
  let s := (s.zeroSem st (fun slot => slot == k)).eraseKeys (fun _ => false) (fun n => n == c)
  (s.setBit (ctxCfg st k) 31 false).setFld (ctxStat st k) 31 28 (if kind = 1 then 3 else 0)

/-- R310: every context of a stall in DRAIN is closed or torn down. -/
def State.finishDrains (s : State) (st : Nat) : State :=
  let ds := (s.stall st).drains
  let s := s.modStall st (fun x => { x with drains := [] })
  ds.foldl (fun s (k, kind) => s.finishDrain st k kind) s

end Sys2Proof.Machine
end

