-- ==== Sys2Proof/Machine/Reset.lean ====
section
/-! DEFINITION. Device resets, failed starts, recovery, fatal errors and the persistent record (R398 to R404, R413 to
R418, R437, R439). -/

namespace Sys2Proof.Machine

def State.modRst (s : State) (f : Rst → Rst) : State := { s with rst := f s.rst }

/-! ### The persistent record -/

/-- FLS.SLOT shows the record in use. -/
def State.showRec (s : State) : State :=
  let r := s.rst.prec
  ((s.setFld (flsR 0x88) 0 0 r.pref).setFld (flsR 0x88) 4 4 (b2n r.validA)).setFld (flsR 0x88) 5 5 (b2n r.validB)

/-- R418: begin the write of the record in use to the other bank. -/
def State.startRecWrite (s : State) : State :=
  let r := { s.rst.prec with seq := ((s.reg (flsR 0x84)).toNat + 1) % 2 ^ 32 }
  { s with flash := { s.flash with writing := some (r, false) }, rst := { s.rst with prec := r } }

/-- R418: a change to the record takes effect at once and is written to the other bank; a change during a write is
written after it. -/
def State.putRec (s : State) (f : Rec → Rec) : State :=
  let s := (s.modRst (fun x => { x with prec := f x.prec })).showRec
  if s.flash.writing.isSome then s else s.startRecWrite

/-- The bank that FLS.REC.BANK does not name holds r. -/
def State.setOther (s : State) (r : Option Rec) : State :=
  if s.fld (flsR 0x80) 0 0 = 0 then
    ({ s with flash := { s.flash with bank1 := r } }).setBit (flsR 0x80) 5 r.isSome
  else ({ s with flash := { s.flash with bank0 := r } }).setBit (flsR 0x80) 4 r.isSome

/-- R418: the write under way is complete: the other bank is in use; a change that came meanwhile is written next. -/
def State.recWritten (s : State) : State :=
  match s.flash.writing with
  | none => s
  | some (r, _) =>
    let s := (s.setOther (some r)).setFld (flsR 0x80) 0 0 (1 - s.fld (flsR 0x80) 0 0)
    let s := { s.setReg (flsR 0x84) (w32 r.seq) with flash := { s.flash with writing := none } }
    if s.rst.prec = r then s else s.startRecWrite

/-- R418: RECORD_WRITE_DONE: the bank was read back and checked. -/
def execRecordWriteDone (ok : Bool) (s : State) : Host.Outcome State Fault Refusal :=
  match s.flash.writing with
  | none => .next s
  | some (r, second) =>
    if ok then .next s.recWritten
    else if second then
      .next (({ s with flash := { s.flash with writing := none } }.setOther none).flagErr .fls 18 0 0 none 0 0)
    else .next { s with flash := { s.flash with writing := some (r, true) } }

/-! ### Persistent history (R437, R439) -/

/-- R439: add the growth of DEV.SEV_CNT into HIST_CNT of the record. -/
def addHist (s : State) (r : Rec) : Rec :=
  { r with hist := forN 4 r.hist (fun h k =>
      mset 0 h k (satAdd32 (mget 0 h k) ((s.reg (devR (0x140 + 4 * k))).toNat - mget 0 s.rst.histAt k))) }

/-- SEV_CNT as it stands is in HIST_CNT. -/
def State.markHist (s : State) : State :=
  s.modRst (fun x => { x with histTime := s.time, histAt := forN 4 x.histAt (fun h k => mset 0 h k (s.reg (devR (0x140 + 4 * k))).toNat) })

def State.flushHist (s : State) (e : Option ErrRec) : State :=
  (s.putRec (fun r => let r := addHist s r
                      match e with | some x => { r with histFatal := (x :: r.histFatal).take 8 } | none => r)).markHist

/-! ### Starts that fail, and what a device reset clears -/

/-- R413: the start under way fails. -/
def State.failStart (s : State) : State :=
  if !s.rst.starting then s
  else
    (((s.setFld (rscR 0x84) 3 0 (min 15 (s.fld (rscR 0x84) 3 0 + 1))).bump (rscR 0x12C) 1).flagErr .rsc 16 0 0 none 0 0).modRst
      (fun x => { x with starting := false, lastFailed := true })

/-- R415: the module enters recovery: 1 STRAP, 2 FAILED_STARTS, 3 NO_IMAGE. -/
def State.enterRecovery (s : State) (why : Nat) : State :=
  (((s.setFld (devR 0x98) 3 0 2).setFld (rscR 0x84) 13 12 why).flagErr .rsc 18 0 0 none 0 0).modRst
    (fun x => { x with starting := false })

/-- The registers of D0 (R398): what a device reset keeps of the RSC page, as address and mask. -/
def keptRegs : List (Nat × Nat) :=
  [(rscR 0x18, 0xFFFFFFFF), (rscR 0x80, 0xFFFFFFFF), (rscR 0x84, 0xF), (rscR 0x90, 0xFFFFFFFF), (rscR 0x94, 0xFFFFFFFF)]
    ++ (List.range 32).map (fun i => (rscR (0x100 + 4 * i), 0xFFFFFFFF))

def State.keepRegs (s c : State) : State :=
  keptRegs.foldl (fun c (a, m) => c.setReg a (s.reg a &&& w32 m)) c

/-- R399: D1 to D6 cleared; D0, the fuses and the module flash kept. A bank whose write is cut short may or may not
still hold a record (R418; assumption log 31). -/
def State.cleared (s : State) : State :=
  let (b, s) := s.draw 2
  let fl := s.flash
  let fl : Flash := { fl with writing := none }
  let cut : Bool := s.flash.writing.isSome && b == 0
  let fl : Flash := if !cut then fl else if s.fld (flsR 0x80) 0 0 == 0 then { fl with bank1 := none } else { fl with bank0 := none }
  let rscPage := rscR 0 / 4096
  let c : State := { State.reset with
    pending := s.pending, sent := s.sent, free := s.free, time := s.time, fuses := s.fuses, flash := fl,
    sec := { SecSt.reset with tap := s.sec.tap },
    prt := forN 4 [] (fun l p => mset Prt.reset l p { Prt.reset with perst := (s.port p).perst, perstAt := (s.port p).perstAt }),
    rf := { RegSt.reset with rings := mset ErrRing.reset [] rscPage (mget ErrRing.reset s.rf.rings rscPage) },
    rst := { Rst.reset with
      vsb := s.rst.vsb, vmainFault := s.rst.vmainFault, pwrEn := s.rst.pwrEn, soft := s.rst.soft, modGood := s.rst.modGood,
      platLow := s.rst.platLow, holdoff := s.rst.holdoff, holdRise := s.rst.holdRise, resetN := s.rst.resetN,
      filter := s.rst.filter, trip := s.rst.trip, straps := s.rst.straps, starting := s.rst.starting,
      lastFailed := s.rst.lastFailed } }
  s.keepRegs c

/-- R400: the order in which a cause is recorded. -/
def causeRank (c : Nat) : Nat := ([1, 6, 7, 9, 8, 4, 5, 10, 2, 3].findIdx? (fun x => x == c)).getD 10

/-- A device reset or a domain release is under way (R400). -/
def State.releasing (s : State) : Bool :=
  decide (s.rst.ev < if s.fld (devR 0x98) 3 0 = 2 then 4 else 10)

/-- R398 to R400: a device reset by the source with this code; crit and tower go to RSC.LAST. -/
def State.deviceResetAt (s : State) (cause crit tower : Nat) : State :=
  let keep := s.releasing && decide (causeRank (s.fld (rscR 0x80) 7 0) < causeRank cause)
  let c := s.cleared
  let c := if 2 ≤ cause then c.bump (rscR (0x100 + 4 * cause)) 1 else c
  let c := c.setReg64 (rscR 0x90) s.time
  let c := if keep then c else c.setReg (rscR 0x80) (w32 (tower % 32 * 65536 + crit % 16 * 4096 + cause))
  forN 4 c.failStart (fun c k => c.setReg (devR (0x140 + 4 * k)) 0)

def State.deviceReset (s : State) (cause : Nat) : State := s.deviceResetAt cause 0 0

/-- The device is held in reset: its release cannot begin (R398, R402, R457). -/
def State.heldReset (s : State) : Bool :=
  s.rst.trip || !s.rst.modGood || s.rst.platLow || s.rst.filter || !s.rst.vsb

/-- Event 1 of R405: a start begins; reserved straps are taken as R393 and R397 say; recovery is entered where R414 or
R415 says. -/
def State.event1 (s : State) : State :=
  let s := s.modRst (fun x => { x with ev := 1, startAt := s.time, starting := true })
  let s := if s.rst.straps.clkMode = 3 || s.rst.straps.bootSel = 3 then s.flagErr .rsc 17 0 0 none 0 0 else s
  if 2 ≤ s.rst.straps.bootSel.toNat then s.enterRecovery 1
  else if 3 ≤ s.fld (rscR 0x84) 3 0 then s.enterRecovery 2
  else s

/-- R397: the straps are latched and event 1 follows. -/
def State.latchStraps (s : State) (x : Straps) : State := (s.modRst (fun r => { r with straps := x })).event1

/-- The module pulls PWR_GOOD low; R398 resets the device and holds it. -/
def State.pwrGoodDown (s : State) : State :=
  if s.rst.modGood then ((s.deviceReset 2).modRst (fun x => { x with modGood := false })).emit (.pin "PWR_GOOD" false) else s

/-- R402 and R465: a thermal trip: THERM_TRIP_N is asserted, the device resets and is held, the converters go off. -/
def State.thermalTrip (s : State) : State :=
  if s.rst.trip then s
  else
    let s := ((s.deviceReset 6).modRst (fun x => { x with trip := true, modGood := false, soft := false })).emit (.pin "THERM_TRIP_N" false)
    s.emit (.pin "PWR_GOOD" false)

/-! ### Fatal errors (R404, R437) -/

/-- A fatal error recorded on a page: its handling begins; a further one resets at once with cause NESTED_FATAL. -/
def State.raiseFatal (s : State) (pg : Pg) (code addr info : Nat) : State :=
  let s := s.logErr pg code 3 addr info
  if s.rst.fatal then s.deviceReset 9
  else
    let e := (mget ErrRing.reset s.rf.rings (pg.base / 4096)).recs.head?
    (s.flushHist e).modRst (fun x => { x with fatal := true })

/-- A reset source that also interrupts fatal handling (R404). -/
def State.resetOrNested (s : State) (cause crit tower : Nat) : State :=
  if s.rst.fatal then s.deviceResetAt 9 crit tower else s.deviceResetAt cause crit tower

end Sys2Proof.Machine
end

