-- ==== Sys2Proof/Machine/Store.lean ====
section
/-! DEFINITION. A write that takes effect: the value a register takes, and what the write of an RW field does at once
beside it (R34, R36, R60, R97, R156, R289, R309, R376, R425, R443). -/

namespace Sys2Proof.Machine

/-! ### Floors (R441 to R443), in units of 0.1 µW -/

/-- P_core of an operating point. -/
def State.pcore (s : State) (op : Nat) : Nat := ((s.fuses.ops[op]?).map (fun x => x.2.2)).getD 0 * 1250000

/-- The floor grant of a tower with this floor point and window. -/
def State.floorOf (s : State) (op banks : Nat) : Nat := s.pcore op + 296900000 + 25390625 * banks

/-- g_f of a tower of stall st. -/
def State.floorGrant (s : State) (st : Nat) : Nat :=
  let w := s.reg (wghR (0xA0 + 4 * st))
  s.floorOf (fget w 2 0) (fget w 20 16)

/-- R443: do the floors of all in-service towers, with g as the floor of stall st, fit a limit of w watts? -/
def State.floorsFit (s : State) (st g w : Nat) : Bool :=
  let sum := sumL (((List.range 32).filter (fun t => !(s.tower t).oos)).map (fun t =>
    if s.stallOf t = st then g else s.floorGrant (s.stallOf t)))
  decide (sum + 750 * 10000000 ≤ w * 10000000)

/-- R443: a write of MODULE_W. -/
def State.writeModuleW (s : State) (v : Nat) : State :=
  if s.floorsFit 4 0 v then s.setFld (wghR 0x80) 15 0 v else s.flagErr .wgh 16 0 0 none 0 0

/-- R443, R454: the S fields of WGH.STLs staged for the reconfiguration of stall st, under a mask. -/
def State.applyFloors (s : State) (st : Nat) (mask val : Word) : State :=
  let a := wghR (0xA0 + 4 * st)
  let w := (s.reg a &&& ~~~mask) ||| (val &&& mask)
  if s.floorsFit st (s.floorOf (fget w 2 0) (fget w 20 16)) (s.fld (wghR 0x80) 15 0) then s.setReg a w
  else s.flagErr .wgh 16 0 0 none 0 0

/-! ### Version negotiation (R60, R61) and error selection (R425) -/

/-- Does a port hold open contexts? -/
def State.portHasCtx (s : State) (p : Nat) : Bool :=
  (List.range 4).any (fun st => (List.range 64).any (fun k =>
    s.ctxState st k == 1 && s.fld (ctxCfg st k) 23 22 == p))

/-- R60: the answer to a request. -/
def ifverAnswer (val : Word) : Word :=
  if fget val 31 28 = 1 && fget val 23 16 == 1 then w32 (2 ^ 28 + 2 ^ 16 + 1) else w32 (2 ^ 28 + 2 ^ 16 + 2)

/-- R60, R61: a write of DEV.IFVER_REQ by a port. -/
def State.negotiate (s : State) (src : Src) (p : Nat) (val : Word) : State :=
  if s.accepted p && s.portHasCtx p then s.denyWrite src 0x90
  else (s.setCopy p 0 (val &&& 0xF0FFFF00#32)).setCopy p 1 (ifverAnswer val)

/-- R425: a write of DEV.ERR_SEL latches PROD and a record of the page for the source. -/
def State.selectErr (s : State) (n : Nat) (val : Word) : State :=
  let pg := pageNo (fget val 31 18)
  let ring := match pg with
    | some p => mget ErrRing.reset s.rf.rings (p.base / 4096)
    | none => ErrRing.reset
  let s := (s.setCopy n 3 (val &&& 0xFFFC003F#32)).setCopy n 4 (w32 ring.prod)
  let ws := ring.at_ (fget val 5 0)
  forN 8 s (fun s j => s.setCopy n (5 + j) (ws.getD j 0))

/-! ### Ring registers (R289) -/

/-- R289: a write of a register of pair k: the address registers only while EN is 0; RING_CTL field by field. -/
def State.writeRing (s : State) (k o : Nat) (val : Word) : State :=
  let a := rngR k o
  let on := s.ringEn k
  if o = 0x34 then s.setReg a val
  else if o ≠ 0 then
    if !on then s.setReg a val
    else if s.reg a = val then s else s.flagWhileRun (.prt (k / 4))
  else
    let cur := s.reg a
    let desc := 0x3FF00000#32
    let s := if on && (cur &&& desc) != (val &&& desc) then s.flagWhileRun (.prt (k / 4)) else s
    let keep : Word := if on then desc ||| 0xC0000000#32 else 0xC0000000#32
    let s := s.setReg a ((cur &&& keep) ||| (val &&& ~~~keep))
    if fbit val 31 && !on then s.ringOn k |>.setBit a 31 true
    else if !fbit val 31 && on then s.ringOff k
    else s

/-! ### Tower registers -/

/-- A frame of the tower is in state ALLOC (R156). -/
def State.anyAlloc (s : State) (t : Nat) : Bool := (s.tower t).frm.any (fun (_, w) => frmState w == 2)

/-- R97: a write of EN of a MEM page. -/
def State.writeMemEn (s : State) (t c : Nat) (en : Bool) : State :=
  let st := s.fld (memR t c 0x14) 31 28
  if en || [3, 4, 5].contains st || (s.tower t).oos then s.setBit (memR t c 0x10) 0 en
  else s.flagWhileRun (.mem t c)

/-- Store bits of a register; a change of MEMMAP or FRM_BASE asks for a new frame table (R468), and a change of ISOLATE
with frames allocated is ignored (R156). -/
def State.storeBits (s : State) (addr : Nat) (mask val : Word) : State :=
  let w := (s.reg addr &&& ~~~mask) ||| (val &&& mask)
  match pageNo (addr / 4096) with
  | some (.twr t) =>
    let o := addr % 4096
    if o = 0x80 || o == 0xAC || o == 0xB0 then
      (if s.reg addr = w then s else s.modTower t (fun x => { x with mapDirty := true })).setReg addr w
    else if o = 0xA0 then
      if fbit (s.reg addr) 0 != fbit w 0 && s.anyAlloc t then
        (s.logErr (.twr t) 0x2200 0 0 0).setReg addr (fset w 0 0 (b2n (fbit (s.reg addr) 0)))
      else s.setReg addr w
    else s.setReg addr w
  | _ => s.setReg addr w

/-! ### The value of an RW field takes effect -/

/-- A partition change is asked for (R305): it waits for the boundary of every stall. -/
def State.askPartition (s : State) (val : Word) : State :=
  if s.partn.isSome || fget val 1 0 = s.nstall then s
  else { s.setFld (devR 0xD0) 5 4 0 with partn := some (fget val 1 0, fbit val 2) }

/-- RW bits of a register take effect from a source. -/
def State.applyRW (s : State) (src : Src) (addr : Nat) (mask val : Word) : State :=
  let w := (s.reg addr &&& ~~~mask) ||| (val &&& mask)
  let o := addr % 4096
  match pageNo (addr / 4096) with
  | some .dev =>
    if o = 0x90 then match src with
      | .port p _ => s.negotiate src p.val val
      | .mgmt .. => s
    else if o = 0x100 then s.selectErr (srcNum src) val
    else if o = 0xD0 then s.askPartition val
    else s.storeBits addr mask val
  | some (.stl st) =>
    if 0x400 ≤ o && o % 8 == 0 then s.writeCtxCfg st ((o - 0x400) / 8) w
    else s.storeBits addr mask val
  | some (.prt p) =>
    if 0x80 ≤ o && decide (o < 0xC0) then
      if o % 8 = 0 then s.applyWin p ((o - 0x80) / 8) w else s.setHeld addr (some (val &&& 0x3FFFFF#32))
    else if 0x100 ≤ o && decide (o < 0x200) then
      if o % 16 = 0 then s.applyAcw src p ((o - 0x100) / 16) w else s.setHeld addr (some val)
    else if 0x200 ≤ o && decide (o < 0x300) then s.writeRing (4 * p + (o - 0x200) / 0x40) ((o - 0x200) % 0x40) w
    else s.storeBits addr mask val
  | some (.mem t c) => if o = 0x10 then s.writeMemEn t c (fbit w 0) else s.storeBits addr mask val
  | some .wgh =>
    if o = 0x80 then s.writeModuleW (fget w 15 0) else s.storeBits addr mask val
  | _ => s.storeBits addr mask val

/-- R54, R376, R391, R454: an S field of a page that always runs. MGT.PORTCFG goes into the record and rules the ports
from the next release of D6; the others are held until the reconfiguration of their stall. -/
def State.holdS (s : State) (addr : Nat) (mask val : Word) : State :=
  if addr = mgtR 0x84 then
    s.putRec (fun r => { r with portcfg := (r.portcfg &&& ~~~mask) ||| (val &&& mask) })
  else { s with rf := { s.rf with heldS := s.rf.heldS ++ [⟨addr, mask.toNat, val.toNat⟩] } }

/-- The stall whose reconfiguration is the safe point of a held write. -/
def heldStall (addr : Nat) : Nat :=
  if addr / 4096 = wghR 0 / 4096 then (addr % 4096 - 0xA0) / 4 else (addr % 4096 - 0x80) / 16

/-- R308 phase 2: apply the held writes of stall st. -/
def State.applyHeldS (s : State) (st : Nat) : State :=
  let hs := s.rf.heldS.filter (fun h => heldStall h.addr == st)
  let s := { s with rf := { s.rf with heldS := s.rf.heldS.filter (fun h => heldStall h.addr != st) } }
  hs.foldl (fun (s : State) (h : Held) =>
    if h.addr / 4096 = wghR 0 / 4096 then s.applyFloors st (w32 h.mask) (w32 h.val)
    else s.storeBits h.addr (w32 h.mask) (w32 h.val)) s

/-! ### Staged writes (R51, R53, R54) -/

/-- The bits of a register that RW fields of a class condition hold. -/
def rwMask (r : RegDef) (f : Cls → Bool) : Word :=
  r.fields.foldl (fun m x => if x.acc = .rw && f x.cls then m ||| fset 0 x.hi x.lo (2 ^ (x.hi + 1 - x.lo) - 1) else m) 0

/-- The RW bits of the register at a BAR0 address, by class condition; all of BLK_IEN's BLK_ERR bits. -/
def rwBits (addr : Nat) (f : Cls → Bool) : Word :=
  match pageNo (addr / 4096) with
  | none => 0
  | some p =>
    match p.kind.regAt (addr % 4096) with
    | none => 0
    | some r =>
      let m := rwMask r f
      if addr % 4096 = 0x1C then m &&& w32 p.kind.errMask else m

/-- Apply one staged write of a page: an S field of a page that always runs is held further (R54). -/
def State.applyStaged (s : State) (src : Src) (n : Nat) (x : Nat × Word) : State :=
  let addr := n * 4096 + x.1
  match pageNo n with
  | none => s
  | some p =>
    if p.always then
      let sm := rwBits addr (fun c => c == .s)
      let dm := rwBits addr (fun c => c != .s)
      let s := if sm = 0 then s else s.holdS addr sm x.2
      if dm = 0 then s else s.applyRW src addr dm x.2
    else s.applyRW src addr (rwBits addr (fun _ => true)) x.2

/-- Apply the staged writes of a page in the order they were staged; STATE becomes DONE. -/
def State.applyTxn (s : State) (n : Nat) : State :=
  let x := s.txn n
  let s := match x.src with
    | some src => x.staged.foldl (fun (s : State) (w : Nat × Word) => s.applyStaged src n w) s
    | none => s
  let s := s.setTxn n { s.txn n with st := 3, staged := [] }
  { s with rf := { s.rf with commits := s.rf.commits.filter (fun m => m != n) } }

/-- The staged writes of a page hold an S field. -/
def State.stagedS (s : State) (n : Nat) : Bool :=
  (s.txn n).staged.any (fun (o, _) => rwBits (n * 4096 + o) (fun c => c == .s) != 0)

/-- R54: the armed transaction of a page waits for a reconfiguration: it holds an S field of a running STL, TWR, THM,
HWP or MEM page, or of a PRT page. -/
def State.waitsReconf (s : State) (n : Nat) : Bool :=
  s.stagedS n && match pageNo n with
    | some (.stl i) => s.runs (.stl i)
    | some (.twr t) => s.runs (.twr t)
    | some (.thm t) => s.runs (.thm t)
    | some (.hwp t d) => s.runs (.hwp t d)
    | some (.mem t c) => s.runs (.mem t c)
    | _ => false

/-- R51: apply the plain latched writes that a condition on their page picks, in arrival order. -/
def State.applyLatched (s : State) (f : Pg → Bool) : State :=
  let hit (h : Held) : Bool := ((pageNo (h.addr / 4096)).map f).getD false
  let hs := s.rf.latched.filter hit
  let s := { s with rf := { s.rf with latched := s.rf.latched.filter (fun h => !hit h) } }
  hs.foldl (fun s h => s.storeBits h.addr (w32 h.mask) (w32 h.val)) s

/-- R51: apply the committed transactions that a condition on their page number picks, in COMMIT order. -/
def State.applyCommits (s : State) (f : Nat → Bool) : State :=
  (s.rf.commits.filter (fun n => f n && (s.txn n).group == 0)).foldl (fun s n => s.applyTxn n) s

/-- R50: an AIS, BSQ or PKR page that holds no unfinished descriptor stands at its safe point: what is latched or committed
there takes effect at once. -/
def State.settleEngines (s : State) : State :=
  let idle (p : Pg) : Bool := match p with
    | .ais .. | .bsq _ | .pkr _ => !s.runs p
    | _ => false
  if s.rf.latched.isEmpty && s.rf.commits.isEmpty then s
  else (s.applyLatched idle).applyCommits (fun n => ((pageNo n).map idle).getD false)

end Sys2Proof.Machine
end

