-- ==== Sys2Proof/Machine/Tables.lean ====
section
/-! DEFINITION. Coding tables: canonical prefix codes (R243 to R245), the table store of a tower and its image (R251 to
R253), histograms (R249) and the table builder (R250). -/

namespace Sys2Proof.Machine

/-! ### Prefix codes (R243) -/

/-- The code length of symbol k in 128 B of lengths. -/
def codeLen (img : List Byte) (k : Nat) : Nat := ((img.getD (k / 2) 0).toNat >>> (4 * (k % 2))) % 16

/-- The code words: symbol, length and word, in order of length and then of symbol value. -/
def codeWords (img : List Byte) : List (Nat × Nat × Nat) :=
  let lens := (List.range 256).map (codeLen img)
  (forN 15 (([] : List (Nat × Nat × Nat)), 0) (fun (acc, code) i =>
    let len := i + 1
    let ks := (List.range 256).filter (fun k => lens.getD k 0 == len)
    (acc ++ (List.range ks.length).map (fun j => (ks.getD j 0, len, code + j)), (code + ks.length) * 2))).1

/-- R243: a table is valid. -/
def tabValid (img : List Byte) : Bool :=
  let ls := ((List.range 256).map (codeLen img)).filter (fun l => l != 0)
  !ls.isEmpty && decide (sumL (ls.map (fun l => 2 ^ (15 - l))) ≤ 2 ^ 15)

/-- Pack 256 lengths into 128 B. -/
def packLens (lens : List Nat) : List Byte :=
  (List.range 128).map (fun i => BitVec.ofNat 8 (lens.getD (2 * i) 0 + 16 * lens.getD (2 * i + 1) 0))

/-! ### The least code of lengths at most 15 (R250 step 2) -/

/-- Insert by weight, then by symbol value. -/
def insItem (x : Nat × List Nat) : List (Nat × List Nat) → List (Nat × List Nat)
  | [] => [x]
  | y :: t => if x.1 < y.1 then x :: y :: t else y :: insItem x t

/-- Merge two lists that rise in weight; of equal weights the first list's come first. -/
def mergeItems : Nat → List (Nat × List Nat) → List (Nat × List Nat) → List (Nat × List Nat)
  | 0, _, _ => []
  | _ + 1, [], b => b
  | _ + 1, a, [] => a
  | n + 1, x :: a, y :: b => if y.1 < x.1 then y :: mergeItems n (x :: a) b else x :: mergeItems n a (y :: b)

/-- Pair neighbours. -/
def pairItems : List (Nat × List Nat) → List (Nat × List Nat)
  | x :: y :: t => (x.1 + y.1, x.2 ++ y.2) :: pairItems t
  | _ => []

/-- The code lengths of 256 counts, by the package-merge method; equal counts are ordered by symbol value, and of equal
weights a symbol comes before a package (assumption log 33). -/
def bestLens (counts : List Nat) : List Nat :=
  let leaves := (List.range 256).foldl (fun l k => insItem (counts.getD k 0, [k]) l) []
  let top := forN 14 leaves (fun l _ => mergeItems 600 leaves (pairItems l))
  let syms := ((top.take 510).map (·.2)).flatten
  (List.range 256).map (fun k => syms.count k)

/-! ### The table store (R251 to R253) -/

def Tab.empty (tid : Nat) : Tab := ⟨tid, 0, false, false, [], []⟩

/-- The table of a TID in a tower's store. -/
def State.tab (s : State) (t tid : Nat) : Tab := mget (Tab.empty tid) (s.tower t).tabs tid

def State.setTab (s : State) (t tid : Nat) (x : Tab) : State :=
  s.modTower t (fun w => { w with tabs := mset (Tab.empty tid) w.tabs tid x })

/-- The address of image entry tid, as tower t's packer names it. -/
def State.tabAddr (s : State) (t tid : Nat) : Nat := s.reg64 (pkrR t 0x8C) + 512 * tid

def State.histAddr (s : State) (t tid : Nat) : Nat := s.reg64 (pkrR t 0x84) + 1024 * tid

/-- R252, R253: load the entry of a TID from the image into the store of tower t. A generation whose lengths are not
valid, or were read poisoned, is loaded as not valid. An image in a tower out of service loads nothing: the current table
stays in use (R433, assumption log 135). -/
def State.loadTab (s : State) (t tid : Nat) : State :=
  let a := s.tabAddr t tid
  if (s.tower (daTower a)).oos then s else
  let (w, bad, s) := s.readWords a 1
  let w := wd w 0
  if bad || (!fbit w 31 && !fbit w 30) then s.setTab t tid { Tab.empty tid with gen := if bad then 0 else fget w 15 0 }
  else
    let (c, s) := State.read0 128 s (a + 128)
    let (p, s) := State.read0 128 s (a + 256)
    let ok (d : List PB) : Bool := !d.any (·.2) && tabValid (d.map (·.1))
    let cv := fbit w 31 && ok c
    let pv := fbit w 30 && ok p
    let s := s.setTab t tid
      { tid := tid, gen := fget w 15 0, curV := cv, prevV := pv, cur := if cv then c.map (·.1) else [],
        prev := if pv then p.map (·.1) else [] }
    if (fbit w 31 && !cv) || (fbit w 30 && !pv) then s.flagC (.pkr t) 19 else s

/-- R252: reload every table of a tower's store. -/
def State.reloadTabs (s : State) (t : Nat) : State := forN 256 s (fun s tid => s.loadTab t tid)

/-- Write the image entry of a table as tower t's packer names it. -/
def State.writeTabImage (s : State) (t tid : Nat) (x : Tab) : State :=
  let a := s.tabAddr t tid
  let s := s.writeWords a (w32 (b2n x.curV * 2 ^ 31 + b2n x.prevV * 2 ^ 30 + x.gen) :: List.replicate 7 0)
  let lens (l : List Byte) : List PB := (List.range 128).map (fun i => (l.getD i 0, false))
  (s.write0 .tally (a + 128) (lens x.cur)).write0 .tally (a + 256) (lens x.prev)

/-! ### Histograms and the builder -/

/-- R250, R252: write zero to the histogram of a TID. -/
def State.zeroHist (s : State) (t tid : Nat) : State :=
  s.write0 .tally (s.histAddr t tid) (List.replicate 1024 (0, false))

/-- R249: post the counts of a block's codes to the histogram of its TID, unit by unit, from tower t's packer. -/
def State.addHistogram (s : State) (t tid : Nat) (codes : List Byte) : State :=
  forN 32 s (fun s u =>
    let n := (List.range 8).map (fun j => codes.countP (fun c => c.toNat == 8 * u + j))
    if n.all (fun x => x == 0) then s
    else
      let v := natOfWords (n.map w32)
      let a := s.histAddr t tid + 32 * u
      let (d, _, s') := s.readUnit a
      let sat := (List.range 8).any (fun j => (satCode 32 (sext 32 (leNat ((d.drop (4 * j)).take 4)) + (n.getD j 0 : Nat))).2)
      let s := if sat then s'.flagC (.pkr t) 16 else s
      s.atomAdd a .int32 (BitVec.ofNat 256 v) 0xFF)

/-- R250: the histogram as the builder reads it, 1 added to every bin, and whether a unit of it was poisoned. -/
def State.readHist (s : State) (t tid : Nat) : List Nat × Bool × State :=
  let (d, s) := State.read0 1024 s (s.histAddr t tid)
  ((List.range 256).map (fun k => leNat (((d.drop (4 * k)).take 4).map (·.1)) + 1), d.any (·.2), s)

/-- R250: build the table of one TID by its builder tower and install it in every tower of the stall and in the image; was it
built? A poisoned histogram builds nothing. -/
def State.buildTab (s : State) (ts : List Nat) (tid : Nat) : Bool × State :=
  let b := ts.getD (tid % ts.length) 0
  let (counts, bad, s) := s.readHist b tid
  let s := if bad then s else
    let old := s.tab b tid
    let new : Tab := { tid := tid, gen := (old.gen + 1) % 2 ^ 16, curV := true, prevV := old.curV,
                       cur := packLens (bestLens counts), prev := old.cur }
    ((ts.foldl (fun s t => s.setTab t tid new) s).writeTabImage b tid new).bump (pkrR b 0xC4) 1
  (!bad, s.zeroHist b tid)

/-- R250, R433: at the boundary after a committed histogram step, build the tables of the TIDs that received adds; no
table is built while a tower that holds the histograms or the image is out of service. -/
def State.buildTables (s : State) (st : Nat) : State :=
  let ts := s.towersOf st
  let x := s.stall st
  if !x.build then s
  else
    let (n, s) := x.tids.foldl (fun (acc : Nat × State) tid =>
      let s := acc.2
      let b := ts.getD (tid % ts.length) 0
      let gone (a : Nat) : Bool := (s.tower (daTower a)).oos
      if !s.bit (pkrR b 0x80) 1 || gone (s.histAddr b tid) || gone (s.tabAddr b tid) then acc
      else
        let (built, s) := s.buildTab ts tid
        (acc.1 + b2n built, s)) (0, s.setStall st { x with build := false, tids := [] })
    -- the hold of t_tb, where tables are built at all
    if ts.any (fun t => s.bit (pkrR t 0x80) 1) then
      s.modStall st (fun x => { x with carry := x.carry + 2 * cdiv n ts.length + 1 })
    else s

/-- R253: perform the LOADs that are due. -/
def State.doLoads (s : State) (st : Nat) : State :=
  let ls := (s.stall st).loads
  let s := s.modStall st (fun x => { x with loads := [] })
  ls.foldl (fun s l => (s.towersOf st).foldl (fun s t => s.loadTab t (l % 256)) s) s

/-! ### Reading a prefix-coded payload (R244, R245, R254) -/

/-- How the decoding of an ENT payload ends: the codes and the bits they took, or the step of R254 that fails. -/
inductive EntRes where
  | codes (l : List Byte) (bits : Nat)
  | fails (step : Nat)
deriving DecidableEq, Repr

/-- Read one code word at a stream position: the symbol and its length; or the step of R254 that fails first as its bits come:
8 at the end of the group, 9 at the end of the payload, 7 where no word fits. -/
def readSym (words : List (Nat × Nat × Nat)) (stream nbits gend pos : Nat) : Except Nat (Nat × Nat) :=
  let r := forN 15 ((none : Option (Except Nat (Nat × Nat))), 0) (fun (acc, code) i =>
    match acc with
    | some _ => (acc, code)
    | none =>
      if gend ≤ pos + i then (some (.error 8), code)
      else if nbits ≤ pos + i then (some (.error 9), code)
      else
        let code := 2 * code + (stream >>> (pos + i)) % 2
        match words.find? (fun w => w.2.1 == i + 1 && w.2.2 == code) with
        | some w => (some (.ok (w.1, i + 1)), code)
        | none => (none, code))
  match r.1 with
  | some x => x
  | none => .error 7

/-- Decode 2,048 symbols; n counts what is left, start is where the group began. -/
def decodeEnt (words : List (Nat × Nat × Nat)) (stream nbits : Nat) : Nat → Nat → Nat → List Byte → EntRes
  | 0, pos, _, acc => .codes acc.reverse pos
  | n + 1, pos, start, acc =>
    let start := if n % 16 = 15 then pos else start
    match readSym words stream nbits (start + 128) pos with
    | .error k => .fails k
    | .ok (sym, len) => decodeEnt words stream nbits n (pos + len) start (BitVec.ofNat 8 sym :: acc)

/-- The stream of 2,048 codes under a table: the bits in order and the length of the longest group; none where a code
has no word. -/
def encodeEnt (words : List (Nat × Nat × Nat)) (codes : List Byte) : Option (List Bool × Nat) :=
  let ws := codes.map (fun c => words.find? (fun w => w.1 == c.toNat))
  if ws.any (·.isNone) then none
  else
    let bits (w : Option (Nat × Nat × Nat)) : List Bool := match w with
      | some (_, len, code) => (List.range len).map (fun i => (code >>> (len - 1 - i)) % 2 == 1)
      | none => []
    let group (g : Nat) : Nat := ((((ws.drop (16 * g)).take 16).map bits).flatten).length
    some ((ws.map bits).flatten, maxL ((List.range 128).map group))

/-- A bit list as bytes, bit i at bit i % 8 of byte i / 8, filled with zeros to n bytes. -/
def bitsToBytes (n : Nat) (bits : List Bool) : List Byte :=
  leBytes n (bits.foldr (fun b a => b2n b + 2 * a) 0)

end Sys2Proof.Machine
end

