-- ==== Sys2Proof/Machine/Recover.lean ====
section
/-! DEFINITION. What a step boundary makes due and what a fault destroys: voided steps, stall resets, integrity stops,
towers out of service, reconfigurations, partition changes, owner changes, latched writes, transactions and group commits
(R51, R59, R304 to R310, R322 to R325, R431 to R438, R467, R468). -/

namespace Sys2Proof.Machine

/-! ### Phase 4 (R271, R273, R308) -/

/-- The tower of a core key, an aisle key, a region 1 unit number. -/
def coreTower (k : Nat) : Nat := k / 320
def aisleTower (k : Nat) : Nat := k / 32
def unitTower (u : Nat) : Nat := daTower (32 * u)

/-- R271: the written marks of a tower's region 1 are cleared. -/
def State.clearMarks (s : State) (f : Nat → Bool) : State :=
  { s with marks := s.marks.filter (fun u => !f u), sramP := s.sramP.filter (fun u => !f u) }

/-- Reset every aisle, bench sequencer and packer of a tower; issue every owed refresh. -/
def State.resetTowerEngines (s : State) (t : Nat) : State :=
  let s := { s with cores := s.cores.filter (fun (k, _) => coreTower k != t),
                    aisles := s.aisles.filter (fun (k, _) => aisleTower k != t) }
  let s := s.clearMarks (fun u => unitTower u == t)
  let s := (s.closeSet t).modTower t (fun x =>
    { x with bench := { Bench.reset with busy := x.bench.busy, actAt := x.bench.actAt }, bnq := QSt.reset, sem := [], scrub := [] })
  forN 33 s (fun s c => s.payChan t c)

/-- A started expert submission that is discarded is answered with CONTEXT_RESET (R303). -/
def State.discardExperts (s : State) (st : Nat) : State :=
  let mine := s.subs.filter (fun (_, x) => x.stall == st)
  let s := { s with subs := s.subs.filter (fun (_, x) => x.stall != st) }
  mine.foldl (fun s (_, x) =>
    if x.expert then s.answer x.pair (s.formExpert x.pair x.user 3 x.exec 0 7 0 0 x.start false) else s) s

/-- R308 phase 4 for a stall. -/
def State.resetEngines (s : State) (st : Nat) : State :=
  let ts := s.towersOf st
  let s := ts.foldl (fun s t => s.resetTowerEngines t) s
  { s with hostRds := s.hostRds.filter (fun h => match h.dst with
      | .mv q _ => !ts.contains q.core.t.val
      | .toks .. => true) }

/-! ### Phase 5 (R168, R252, R385, R427, R468) -/

/-- Reload the tables of a stall; full: the mirror and key region tables too, and the frame tables that R468 builds. -/
def State.reload (s : State) (st : Nat) (full : Bool) : State :=
  let s := if full then (s.loadMirror st).loadKeys st else s
  -- R433: table images that lie in a tower out of service are lost to a reconfiguration
  let s := if !full then s else
    (s.towersOf st).foldl (fun s t => ((s.lostTable st (s.tabAddr t 0) (512 * 256)).getD s)) s
  let s := if full then (s.towersOf st).foldl (fun s t =>
      if !(s.tower t).built || (s.tower t).mapDirty then s.buildFrames t else s) s else s
  let s := s.loadFmts st
  (s.towersOf st).foldl (fun s t => s.reloadTabs t) s

/-! ### Voided steps (R153, R181, R252, R323) -/

/-- Is a result record the DONE of an expert submission? -/
def isExpertDone (r : Desc) : Bool := recType r == tDone && dfld r 6 31 24 == 1

/-- A session as the step began, with the pages it has by now; one admitted in the step waits again. -/
def State.restoreSes (s : State) (st : Nat) : State :=
  let snap := (s.stall st).snap
  let now := s.ses.filter (fun x => x.stall == st)
  let find (x : Ses) : Option Ses := snap.find? (fun y => y.ctx == x.ctx && y.sid == x.sid)
  let undo := now.filter (fun x => x.st != .wait && (match find x with | some y => y.st == .wait | none => true))
  let s := undo.foldl (fun s x => s.freeSes x) s
  let back (x : Ses) : Option Ses := (find x).map (fun y => if y.st = .wait then y else { y with pages := x.pages })
  { s with ses := s.ses.filterMap (fun x => if x.stall = st then back x else some x) }

/-- R323: void the running step of a stall: it emits nothing, and the records it took are applied in the next step. -/
def State.voidStep (s : State) (st : Nat) : State :=
  let x := s.stall st
  if x.part = 0 || 6 ≤ x.part then s
  else
    let s := s.restoreSes st
    let ks := (List.range 16).filter (fun k => s.ringStall k == st)
    let lost := ks.flatMap (fun k => ((s.ring k).batch.filter isExpertDone).map (fun r => (k, r)))
    let s := ks.foldl (fun s k => s.modRing k (fun r => { r with batch := [] })) s
    let s := s.modStall st (fun y => { y with
      part := 0, taken := y.redo ++ y.taken, redo := [], experts := y.experts.filter (fun h => !y.redo.contains h), snap := [], hist := false, histNext := y.histNext || y.hist, zeroTids := y.tids.foldl sadd y.zeroTids, tids := [], ext := 0, lcRan := false,
      idleAt := s.time })
    let s := { s with hostRds := s.hostRds.filter (fun h => match h.dst with
        | .toks c _ _ => c / 64 != st
        | .mv .. => true) }
    let s := (s.bump (stlR st 0xC8) 1).flagErr (.stl st) 28 0 2 none 0 0
    lost.foldl (fun s (k, r) => s.answer k (s.formExpert k (d64 r 2) 3 0 0 7 0 0 0 false)) s

/-! ### Phases of a reconfiguration (R307, R308) -/

/-- R308 phases 1 and 2 of a stall. -/
def State.reconfPhase12 (s : State) (st : Nat) : State :=
  let s := (s.towersOf st).foldl (fun s t => (s.closeSet t).drainTower t) s
  let mine (p : Pg) : Bool := s.pageStall p == some st
  let s := s.applyLatched mine
  let s := s.applyCommits (fun n => ((pageNo n).map mine).getD false)
  let s := s.applyHeldS st
  match s.sec.heldKey.find? (fun k => k.1 == st) with
  | some (_, src, key) =>
    let s := s.eraseKeys (fun n => n == st) (fun _ => false)
    let s := { s with sec := { s.sec with heldKey := s.sec.heldKey.filter (fun k => k.1 != st),
                                          model := mset (0, 0) s.sec.model st (src, key) } }
    s.setFld (secR (0x8C + 16 * st)) 1 0 src
  | none => s

/-- t_rc in µs (R308); its fraction is rounded freely (assumption log 34). -/
def State.reconfUs (s : State) (st : Nat) : Nat × State :=
  let c := s.fld (stlR st 0x208) 15 0 * 45
  let (r, s) := s.draw 2
  (300 + c / 10000 + (if c % 10000 = 0 then 0 else r), s)

/-- R308 phases 4 and 5 of a stall. -/
def State.reconfPhase45 (s : State) (st : Nat) : State :=
  let s := (s.resetEngines st).discardExperts st
  let s := (s.towersOf st).foldl (fun s t => s.collectFrames t) s
  -- R432: HALT, LOST and OVF are cleared before the reload can find a unit lost
  let s := (s.setReg (stlR st 0x280) 0).setReg64 (stlR st 0x284) 0
  let s := s.modStall st (fun x => { x with lost := [], integ := false, clean := false, checking := false, resets := 0 })
  let s := s.reload st true
  let (us, s) := s.reconfUs st
  -- RECONF_US; FT_MAX_US begins anew (spec/13, STL counters)
  (s.setReg (stlR st 0x98) (w32 us)).setReg (stlR st 0x258) 0

/-! ### Stall resets (R322 to R324, R438) -/

/-- R438: a fault during a reconfiguration restarts it once at phase 1; a second one is fatal. -/
def State.reconfFault (s : State) (st : Nat) : State :=
  if !(s.stall st).reconfOn then s
  else if (s.stall st).again = 0 then
    ((s.modStall st (fun x => { x with again := 1 })).reconfPhase12 st).reconfPhase45 st
  else s.raiseFatal (.stl st) 0x6300 0 0

/-- R323, R438: a stall reset: the running step is voided, phases 4 and 5 are performed, SSTATE is RESET until it
completes. -/
def State.stallReset (s : State) (st : Nat) : State :=
  if s.sstate st ≠ 2 && s.sstate st ≠ 3 then s.reconfFault st
  else
    let s := s.voidStep st
    let s := (s.resetEngines st).discardExperts st
    let s := (s.towersOf st).foldl (fun s t => s.collectFrames t) s
    let s := s.modStall st (fun x => { x with resetOn := true, resets := x.resets + 1 })
    let s := (s.bump (stlR st 0xCC) 1).setSstate st 3
    s.reload st false

/-- R431: the integrity stop takes effect. -/
def State.haltStall (s : State) (st : Nat) : State :=
  ((s.setBit (stlR st 0x280) 24 true).setFld (stlR st 0x280) 27 26 0).modStall st
    (fun x => { x with integ := false, clean := false, checking := false })

/-- R431, R438: where a unit was found lost, void the step, reset the stall and halt it; during a stall reset or a
reconfiguration the stop waits for its end. -/
def State.integStop (s : State) (st : Nat) : State :=
  let x := s.stall st
  if !x.integ || x.resetOn || x.reconfOn then s else (s.stallReset st).haltStall st

/-- Integrity stops of every stall that found a unit lost. -/
def State.integStops (s : State) : State := forN 4 s (fun s st => s.integStop st)

/-! ### Towers out of service (R93, R433, R435) -/

/-- The pages of a tower. -/
def towerPages (t : Nat) : List Nat := (List.range 256).map (fun i => 0x1000 + t * 256 + i)

/-- R433: a tower leaves service, at once or at a step boundary. -/
def State.towerOut (s : State) (t : Nat) (atOnce : Bool) : State :=
  if (s.tower t).oos then s
  else
    let st := s.stallOf t
    let s := s.modTower t (fun x => { x with oos := true, oosDue := false, repair := none, mir := [] })
    let s := s.flagErr (.stl st) 16 0 2 none 0 0
    let s := if atOnce then s.stallReset st else s
    (s.ses.filter (fun x => x.home == t && x.st != .wait)).foldl (fun s x =>
      -- the frames and the ledger part are lost with the tower
      let s := s.putSes { x with pages := 0, slot := 16384 }
      match s.findSes x.ctx x.sid with
      | some y => s.endNow y 3 0x14 none
      | none => s) s

/-- The towers that are to leave service at a step boundary of a stall (R93). -/
def State.towersDue (s : State) (st : Nat) : State :=
  (s.towersOf st).foldl (fun s t => if (s.tower t).oosDue then s.towerOut t false else s) s

/-! ### Repair switch (R92) -/

/-- A bench command engages a bank of a channel. -/
def Chn.engaged (x : Chn) : Bool := x.banks.any (fun y => y.2.bench)

/-- R92: switch a repaired channel at the step boundary, when its copy is complete, the dirty log holds at most 256 rows,
and neither channel retrains or has an engaged bank. -/
def State.repairSwitch (s : State) (t : Nat) : State :=
  match (s.tower t).repair with
  | none => s
  | some r =>
    if !r.ready || decide (256 < r.dirty.length) ||
       [r.old, 32].any (fun c => (s.chan t c).attempt != 0 || (s.chan t c).engaged) then s
    else
      let s := ((s.drainChan t r.old).drainChan t 32).payChan t r.old
      let s := r.dirty.foldl (fun s d => forN 64 s (fun s u =>
        let (data, bad, s) := s.eccRead t r.old (d / 32768) (d % 32768) u 0 []
        s.putUnit (unitKey t 32 (d / 32768) (d % 32768) u) data bad)) s
      let s := (s.setFld (memR t 32 0x98) 23 16 r.logical).setFld (memR t 32 0x14) 31 28 0
      let s := ((s.setFld (memR t r.old 0x98) 23 16 255).setFld (memR t r.old 0x14) 31 28 3).setFld (memR t r.old 0x98) 3 0 3
      let s := s.modTower t (fun x => { x with repair := none })
      -- R321: an extension of the step that follows
      let s := s.modStall (s.stallOf t) (fun x => { x with ext := x.ext + 5 })
      s.putRec (fun p => { p with repair := mset 256 (mset 256 p.repair (33 * t + 32) r.logical) (33 * t + r.old) 255 })

/-! ### Retrains (R86 to R89) -/

/-- R76, R89: a retrain of a channel begins: its buffers are flushed and it is TRAINING. -/
def State.startRetrain (s : State) (t c : Nat) (forced : Bool) : State :=
  let s := s.modChan t c Chn.flushAll
  let back := s.fld (memR t c 0x14) 31 28
  (s.modChan t c (fun x => { x with
    sched := false, forced := false, attempt := 1, wasForced := forced, back := if back = 1 || back = 2 then x.back else back,
    slices := 0 })).setFld (memR t c 0x14) 31 28 2

/-- R87: the scheduled retrains of a tower run; each adds 50 µs to the bound of the step that follows. -/
def State.startScheduled (s : State) (t : Nat) : State :=
  forN 33 s (fun s c =>
    if (s.chan t c).sched && (s.chan t c).attempt == 0 && !(s.chan t c).engaged then
      (s.startRetrain t c false).modStall (s.stallOf t) (fun x => { x with carry := x.carry + 50 })
    else s)

/-! ### Owners (R38, R56, R306) -/

/-- An accepted change of owner takes effect; where the owner stays the same, nothing changes. -/
def State.setOwner (s : State) (st p : Nat) : State :=
  if s.owner st = p then s
  else
    let s := (s.setFld (stlR st 0x80) 2 0 p).clearAcw st
    s.rollWhere (fun n _ => ((pageNo n).bind s.pageStall) == some st)

def State.changeOwners (s : State) (st : Nat) : State :=
  let l := (s.stall st).owners
  let s := s.modStall st (fun x => { x with owners := [] })
  l.foldl (fun s p => s.setOwner st p) s

/-! ### Reconfiguration (R307, R308) -/

/-- Live or waiting sessions, or an unanswered EXPERT_LIST, remain in a stall. -/
def State.workLeft (s : State) (st : Nat) : Bool :=
  s.ses.any (fun x => x.stall == st) || !(s.stall st).experts.isEmpty || s.subs.any (fun (_, x) => x.stall == st) ||
  (s.stall st).taken.any (fun h => dfld h.r 0 31 24 == 16)

/-- R307: FORCE ends every session and answers every EXPERT_LIST not yet started. -/
def State.forceOut (s : State) (st : Nat) : State :=
  let s := (s.ses.filter (fun x => x.stall == st)).foldl (fun s x => s.endNow x 1 0x11 none) s
  let isX (h : Taken) : Bool := dfld h.r 0 31 24 == 16
  let hs := (s.stall st).experts ++ (s.stall st).taken.filter isX
  let s := s.modStall st (fun x => { x with experts := [], taken := x.taken.filter (fun h => !isX h) })
  (hs.foldl (fun s h => s.failExpert h none) s).discardExperts st

/-- A channel of a stall retrains. -/
def State.retraining (s : State) (st : Nat) : Bool :=
  (s.towersOf st).any (fun t => (List.range 33).any (fun c => (s.chan t c).attempt != 0))

/-- R42, R307, R308: begin the reconfiguration that GO asked for; a retrain in the stall ends first, and BAR2 requests that
were accepted. -/
def State.beginReconf (s : State) (st : Nat) : State :=
  match (s.stall st).reconf with
  | none => s
  | some force =>
    if s.retraining st || s.bar2Held st then s else
    let s := s.modStall st (fun x => { x with reconf := none })
    if s.workLeft st && !force then (s.setFld (stlR st 0x84) 25 24 2).flagErr (.stl st) 30 0 0 none 0 0
    else
      let s := s.forceOut st
      let s := (s.setSstate st 1).modStall st (fun x => { x with reconfOn := true, again := 0 })
      -- R38: the access windows that overlap the stall
      ((s.reconfPhase12 st).clearAcw st).reconfPhase45 st

/-! ### Partition changes (R305, R306, R308 phase 3) -/

/-- R308 phase 3: towers go to the new stalls; every context is closed, every owner is none, every ring pair is disabled,
every access window is cleared and every model key is erased (R390). -/
def State.reconfPhase3 (s : State) (ns : Nat) : State :=
  let s := forN 256 s (fun s c =>
    let (st, k) := (c / 64, c % 64)
    if s.ctxState st k = 1 || s.ctxState st k == 2 then
      (s.setBit (ctxCfg st k) 31 false).setFld (ctxStat st k) 31 28 0
    else s)
  let s := forN 4 s (fun s st => (s.zeroSem st (fun slot => decide (slot < 64))).modStall st
    (fun x => { x with owners := [], drains := [], taken := [], experts := [], loads := [] }))
  let s := s.eraseKeys (fun _ => true) (fun _ => true)
  let s := forN 4 s (fun s st => s.setFld (secR (0x8C + 16 * st)) 1 0 0)
  let s := forN 16 s (fun s k => if s.ringEn k then s.ringOff k else s)
  let s := forN s.stalls s (fun s st => (s.setOwner st 7).clearAcw st)
  let s := s.setFld (devR 0xD0) 1 0 ns
  forN 4 s (fun s st => if st < 2 ^ ns then s else s.setSstate st 0)

/-- A stall stands at a step boundary (R467): it runs no step, and no reset or reconfiguration. -/
def State.atBoundary (s : State) (st : Nat) : Bool :=
  let x := s.stall st
  x.part == 0 && !x.resetOn && !x.reconfOn

/-- R305, R307: begin the partition change that a write of NSTALL asked for, once every stall is at its boundary. -/
def State.beginPartition (s : State) : State :=
  match s.partn with
  | none => s
  | some (ns, force) =>
    if s.partnOn || !(List.range s.stalls).all (fun st => s.atBoundary st && !s.retraining st && !s.bar2Held st) then s
    else
      let busy := (List.range s.stalls).filter (fun st => s.workLeft st)
      if !busy.isEmpty && !force then
        let s := busy.foldl (fun s st => (s.setFld (stlR st 0x84) 25 24 2).flagErr (.stl st) 30 0 0 none 0 0) s
        { s.setFld (devR 0xD0) 5 4 2 with partn := none }
      else
        let s := forN s.stalls s (fun s st => s.forceOut st)
        let s := forN s.stalls s (fun s st => s.reconfPhase12 st)
        let s := s.reconfPhase3 ns
        let s := forN (2 ^ ns) s (fun s st =>
          let s := (s.setSstate st 1).modStall st (fun x => { x with reconfOn := true, again := 0, reconf := none })
          s.reconfPhase45 st)
        { s with partnOn := true }

/-! ### Group commits (R59) -/

/-- Is a member of an armed group at its safe point: its stall held, or outside every stall? -/
def State.memberReady (s : State) (n : Nat) : Bool :=
  match (pageNo n).bind s.pageStall with
  | some st => (s.stall st).held || s.sstate st == 0
  | none => true

/-- R59 step 1: a stall at its boundary that holds a member of an armed group is held. -/
def State.holdForGroups (s : State) (st : Nat) : State :=
  forN 16 s (fun s i =>
    let g := i + 1
    if (s.grp g).st = 2 && (s.grpStalls g).contains st then
      let s := s.holdStall st
      if (s.grp g).since.isNone then s.setGrp g { s.grp g with since := some s.time } else s
    else s)

/-- R59 step 3: apply an armed group whose members are all ready. -/
def State.finishGroup (s : State) (g : Nat) : State :=
  let x := s.grp g
  if x.st ≠ 2 || !x.members.all (fun n => s.memberReady n) then s
  else
    (x.members.foldl (fun s n => s.applyTxn n) s).closeGroup g 3

def State.finishGroups (s : State) : State := forN 16 s (fun s i => s.finishGroup (i + 1))

/-! ### The boundary (R51, R325, R467) -/

/-- R432: HALT clears at the boundary after a check that found every unit clean. -/
def State.clearHalt (s : State) (st : Nat) : State :=
  if (s.stall st).clean then
    (((s.setBit (stlR st 0x280) 24 false).setFld (stlR st 0x280) 6 0 0).setBit (stlR st 0x280) 25 false).modStall st
      (fun x => { x with clean := false, lost := [] })
  else s

/-- R312, R313: service counters are per step; a charge ends where its context has no waiting submission. -/
def State.endService (s : State) (st : Nat) : State :=
  { s with aisles := s.aisles.foldl (fun l (k, a) =>
      if s.stallOf (aisleTower k) = st then
        mset AisleSt.reset l k { a with service := [], last := none, charge := a.charge.filter (fun (c, _) =>
          s.subs.any (fun y => y.2.slot == c && y.2.stall == st)) }
      else l) s.aisles }

/-- Everything due at a step boundary of one stall, in the order of R325: closes and teardowns, latched writes and
transactions by R51, what the tower chapters place there, then reconfiguration and changes of owner. -/
def State.boundaryWork (s : State) (st : Nat) : State :=
  -- R407: a stall reset that BLK_CTL.BRST asked for; the rest waits for its end (R325)
  if smem s.rf.brst (0x10 + st) then s.stallReset st
  else
  -- R325: an integrity stop resets the stall, and the rest waits for the end of the reset
  let s := s.integStop st
  if !s.atBoundary st then s
  else
  let s := s.clearHalt st
  let s := s.finishDrains st
  let mine (p : Pg) : Bool := s.pageStall p == some st
  let s := s.applyLatched mine
  let s := s.applyCommits (fun n => ((pageNo n).map mine).getD false && !s.waitsReconf n)
  let s := (s.doLoads st).buildTables st
  let s := (s.towersOf st).foldl (fun s t => (s.repairSwitch t).startScheduled t) s
  let s := s.towersDue st
  let s := (s.zeroSem st (fun slot => decide (64 ≤ slot))).endService st
  let s := s.holdForGroups st
  let s := s.beginReconf st
  s.changeOwners st

/-- R467: what is due in every stall that stands at a step boundary takes effect at once; then groups that are ready and
a partition change. -/
def State.settleIdle (s : State) : State :=
  let s := s.settleEngines.bar2Retry
  let s := forN 4 s (fun s st => if s.atBoundary st then s.orWait (fun s => s.boundaryWork st) else s)
  ((s.finishGroups.beginPartition).integStops).settleEngines

end Sys2Proof.Machine
end

