-- ==== Sys2Proof/Machine/Operands.lean ====
section
/-! DEFINITION. Operand forms of the Stethar units: the fields of a micro-operation and what it reads (R100 to R103,
R109, R114), and its checks and cycles (R102, R116). -/

namespace Sys2Proof.Machine

/-! ### Micro-operation fields (R102) -/

def uOp (u : Word) : Nat := fget u 31 27
def uD (u : Word) : Nat := fget u 26 24
def uA (u : Word) : Nat := fget u 23 21
def uB (u : Word) : Nat := fget u 20 18
/-- Where a source comes from: 0 a register, 1 SEG, 2 BCAST, 3 a constant. -/
def uAsrc (u : Word) : Nat := fget u 17 16
def uBsrc (u : Word) : Nat := fget u 15 14
def uU (u : Word) : Nat := fget u 13 12
def uIdx (u : Word) : Bool := fbit u 11
def uK (u : Word) : Nat := fget u 10 9
def uMen (u : Word) : Bool := fbit u 8
def uMz (u : Word) : Bool := fbit u 7
def uSpan (u : Word) : Nat := fget u 6 4
def uLane (u : Word) : Nat := fget u 3 0

/-- The operation reads source A; source B. -/
def uReadsA (op : Nat) : Bool := (decide (1 ≤ op) && decide (op ≤ 0x13)) || op == 0x15
def uReadsB (op : Nat) : Bool := decide (1 ≤ op) && decide (op ≤ 0x0B)

/-- Reads of SEG and of BCAST that a micro-operation makes. -/
def uSegs (u : Word) : Nat :=
  b2n (uReadsA (uOp u) && uAsrc u == 1) + b2n (uReadsB (uOp u) && uBsrc u == 1)
def uBcasts (u : Word) : Nat :=
  b2n (uReadsA (uOp u) && uAsrc u == 2) + b2n (uReadsB (uOp u) && uBsrc u == 2)

/-- R102: the micro-operation obeys its table under a format. -/
def uValid (isInt : Bool) (u : Word) : Bool :=
  let op := uOp u
  decide (op ≤ 0x15) && decide (uSegs u ≤ 1) &&
  (op != 0x01 || (uAsrc u != 0 && uBsrc u != 0)) &&
  (op != 0x0B || !uMen u) &&
  (!(op == 0x0C || op == 0x0D) || !isInt) &&
  (!(op == 0x10 || op == 0x11) || decide (uSpan u ≤ 4)) &&
  (op != 0x13 || uAsrc u == 0)

/-- Cycles of CK_D of a micro-operation in a set with n_ch (R102, R114). -/
def uCycles (nch : Nat) (u : Word) : Nat :=
  match uOp u with
  | 0x02 | 0x03 | 0x0C | 0x0D => 2
  | 0x0E | 0x0F => 4
  | 0x10 | 0x11 => match uSpan u with | 0 => 4 | 1 => 6 | 2 => 10 | 3 => 18 | _ => 146
  | 0x15 => 2 * nch + 2
  | _ => 1

/-! ### Lanes -/

/-- A lane's value and whether it is poisoned. -/
abbrev Lane := Nat × Bool

def laneAt (l : List Lane) (i : Nat) : Lane := l.getD i (0, false)

/-- A source of 16 lanes, and the lanes that were an infinity of a 16-bit source. -/
structure UnitSrc where
  lanes : List Lane
  inf : List Nat
deriving DecidableEq, Repr

def UnitSrc.at (x : UnitSrc) (i : Nat) : Lane := laneAt x.lanes i
def UnitSrc.infs (x : UnitSrc) (i : Nat) : Nat := b2n (x.inf.contains i)

/-- 16 elements of 16 bits, widened to 32 bits (R100, R101). -/
def widenAll (isInt : Bool) (l : List Nat) (bad : Bool) : UnitSrc :=
  ⟨l.map (fun x => (widen16 isInt x, bad)), (List.range 16).filter (fun i => inf16 isInt (l.getD i 0))⟩

/-- The elements of a 32 B unit. -/
def widenUnit (isInt : Bool) (d : List Byte) (bad : Bool) : UnitSrc :=
  widenAll isInt ((List.range 16).map (fun l => leNat ((d.drop (2 * l)).take 2))) bad

/-- A constant in every lane. -/
def constLanes (isInt : Bool) (c : Nat) : UnitSrc := widenAll isInt (List.replicate 16 c) false

/-! ### Arithmetic of a lane (R101, R104) -/

/-- The result of an operation on 32-bit lanes: FP32, or INT32 where isInt. -/
def laneAdd (isInt : Bool) (a b : Nat) : FR :=
  if isInt then let (v, s) := satCode 32 (sext 32 a + sext 32 b); ⟨v, s, 0⟩ else fpAdd fp32 a b
def laneSub (isInt : Bool) (a b : Nat) : FR :=
  if isInt then let (v, s) := satCode 32 (sext 32 a - sext 32 b); ⟨v, s, 0⟩ else fpSub fp32 a b
def laneMul (isInt : Bool) (a b : Nat) : FR :=
  if isInt then let (v, s) := satCode 32 (sext 32 a * sext 32 b); ⟨v, s, 0⟩ else fpMul fp32 a b
/-- d + a × b, rounded or saturated once. -/
def laneFma (isInt : Bool) (a b d : Nat) : FR :=
  if isInt then let (v, s) := satCode 32 (sext 32 d + sext 32 a * sext 32 b); ⟨v, s, 0⟩ else fpFma fp32 a b d
def laneMax (isInt isMax : Bool) (a b : Nat) : FR :=
  if isInt then ⟨if isMax then (if sext 32 a < sext 32 b then b else a) else (if sext 32 b < sext 32 a then b else a), false, 0⟩
  else fpMinMax fp32 isMax a b

/-- A lane as an input: an infinity reads as the largest finite value, a NaN as the canonical one (R161). -/
def laneTake (isInt : Bool) (a : Nat) : FR :=
  if isInt then ⟨a, false, 0⟩ else let (x, i) := decodeF fp32 a; ⟨(fvTo fp32 x).1, false, b2n i⟩

/-- Compare two lanes; the count of infinite inputs. -/
def laneCmp (isInt : Bool) (c : Cmp) (a b : Nat) : Bool × Nat :=
  if isInt then
    let x := sext 32 a; let y := sext 32 b
    (c.holds (some (if x < y then .lt else if x = y then .eq else .gt)), 0)
  else
    let (x, i) := decodeF fp32 a; let (y, j) := decodeF fp32 b
    (c.holds (fvCmp x y), b2n i + b2n j)

/-- The value of a maximum with no contributing lane (R103). -/
def noMax (isInt : Bool) : Nat := if isInt then 2 ^ 31 else fp32.signW + fp32.maxFin

/-- R102: narrow a register lane to 16 bits: the code, whether it saturated, and what it adds to NONFIN_CNT. -/
def narrow16 (isInt : Bool) (x : Nat) : Conv :=
  if isInt then let (v, s) := satCode 16 (sext 32 x); ⟨v, s, 0⟩
  else let (v, i) := decodeF fp32 x; convTo .bf16 v i

/-! ### Reductions (R103, R114, R115) -/

/-- An accumulation: value, saturations, infinite inputs. -/
structure Acc3 where
  v : Nat
  sat : Nat
  inf : Nat
deriving DecidableEq, Repr

/-- An element that contributes to a maximum. -/
def maxIn (isInt : Bool) (v : Nat) : Acc3 := let r := laneTake isInt v; ⟨r.v, 0, r.inf⟩

/-- Combine two partial results: a sum, or a maximum (none: nothing contributed yet). -/
def joinSum (isInt : Bool) (a b : Acc3) : Acc3 :=
  let r := laneAdd isInt a.v b.v
  ⟨r.v, a.sat + b.sat + b2n r.sat, a.inf + b.inf + r.inf⟩

def joinMax (isInt : Bool) (a b : Option Acc3) : Option Acc3 :=
  match a, b with
  | none, x => x
  | x, none => x
  | some a, some b => let r := laneMax isInt true a.v b.v; some ⟨r.v, a.sat + b.sat, a.inf + b.inf + r.inf⟩

/-- The balanced pairwise tree of HSUM: lanes 2k and 2k + 1 first. -/
def treeSum (isInt : Bool) : Nat → List Acc3 → Acc3
  | 0, l => l.headD ⟨0, 0, 0⟩
  | n + 1, l => treeSum isInt n ((List.range (l.length / 2)).map (fun i =>
      joinSum isInt (l.getD (2 * i) ⟨0, 0, 0⟩) (l.getD (2 * i + 1) ⟨0, 0, 0⟩)))

/-- R115: the left half from its first unit, the right half from its last, then the two halves. -/
def spanSum (isInt : Bool) (l : List Acc3) : Acc3 :=
  let h := l.length / 2
  let acc (x : List Acc3) : Acc3 := match x with
    | [] => ⟨0, 0, 0⟩
    | y :: ys => ys.foldl (joinSum isInt) y
  joinSum isInt (acc (l.take h)) (acc (l.drop h).reverse)

def spanMax (isInt : Bool) (l : List (Option Acc3)) : Option Acc3 :=
  let h := l.length / 2
  joinMax isInt ((l.take h).foldl (joinMax isInt) none) ((l.drop h).reverse.foldl (joinMax isInt) none)

end Sys2Proof.Machine
end

