-- ==== Sys2Proof/Machine/Channel.lean ====
section
/-! DEFINITION. The channel controller: the requests that reach it (R67, R74, R75, R78), the command it issues in each
CK_M cycle (R68 to R72, R96), read returns with mirror substitution (R81, R428 to R431), flush timers (R76, R79), the
patrol scrubber (R83), interface parity (R84, R85) and retraining (R86 to R89). -/

namespace Sys2Proof.Machine

/-! ### One command (R68) -/

/-- The bank of a request. -/
def State.reqBank (s : State) (r : Req) : Nat := (s.loc r.da).b

/-- A command that a controller may issue in a CK_M cycle: a per-bank refresh, a precharge for a request or before a
refresh, the activate of a request, a column command that reads or writes. -/
inductive Cmd where
  | refresh (b : Nat)
  | close (b : Nat) (r : Option Req)
  | open_ (r : Req)
  | column (r : Req) (wr : Bool)
deriving DecidableEq, Repr

/-- R70: a request that arrived earlier and overlaps this one is still to complete. -/
def Chn.behind (x : Chn) (r : Req) : Bool :=
  let before (y : Req) : Bool := decide (y.no < r.no) && overlaps y.da y.len r.da r.len
  x.reqs.any before || (r.wr && x.flight.any before)

/-- The command that a request needs next, where the rules permit it (R66, R69, R70, R91): none otherwise. idle bars
activates, reads and writes (R96). -/
def State.cmdFor (s : State) (t c : Nat) (idle : Bool) (r : Req) : Option Cmd :=
  let x := s.chan t c
  let l := s.loc r.da
  let k := x.bank l.b
  if k.bench || s.refDue t c l.b || x.behind r then none
  else match k.row with
    | some row =>
      if row = l.row then
        let wr := r.wr && (!r.rmw || r.rd)
        let ok := if wr then x.okWr k && ((s.wrChans l.t l.ch).drop 1).all (fun c => (s.chan t c).attempt == 0) else x.okRd k
        if idle || !ok then none else some (.column r wr)
      else if k.okPre x.now then some (.close l.b (some r)) else none
    | none => if idle || !x.okAct l.b then none else some (.open_ r)

/-- The first of some requests that yields a command. -/
def State.cmdFirst (s : State) (t c : Nat) (idle : Bool) (l : List Req) : Option Cmd := l.findSome? (s.cmdFor t c idle)

/-- Refresh a bank, its row closed first (assumption log 36). -/
def State.cmdRefresh (s : State) (t c b : Nat) : Option Cmd :=
  let x := s.chan t c
  let k := x.bank b
  match k.row with
  | some _ => if k.okPre x.now then some (.close b none) else none
  | none => if past x.now k.pre 14 && past x.now k.ref 280 then some (.refresh b) else none

/-- The banks in the fixed order of R71, from the one after the last refreshed. -/
def Chn.refOrder (x : Chn) : List Nat :=
  let last := (List.range 64).foldl (fun m b => if (x.bank m).ref < (x.bank b).ref then b else m) 0
  let from_ := if (x.bank last).ref = 0 then 0 else (last + 1) % 64
  (List.range 64).map (fun i => (from_ + i) % 64)

/-- R68 rule 3: the share of the last 64 command slots that narrow reads may use. -/
def narrowSlots (code : Nat) : Nat := if code = 0 then 8 else if code = 1 then 16 else 32

/-- The atomic entries that are to be written back, as requests. -/
def Chn.backs (x : Chn) : List Req := (x.aq.filter (fun e => e.due)).map AtomE.req

/-- The requests of a direction: reads; or writes and atomic write-backs. -/
def Chn.dirQueue (x : Chn) (w : Bool) : List Req := if w then x.wq ++ x.backs else x.rq

/-- R68 rule 4: the direction, turned round after RUN transfers of 256 B (8 units each) or on an empty queue. -/
def State.turned (s : State) (t c : Nat) : State :=
  let x := s.chan t c
  let turn := decide (8 * s.fld (memR t c 0x84) 15 8 ≤ x.runCnt)
  if ((x.dirQueue x.dirW).isEmpty || turn) && !(x.dirQueue (!x.dirW)).isEmpty then
    s.setChan t c { x with dirW := !x.dirW, runCnt := 0 }
  else if turn then s.setChan t c { x with runCnt := 0 } else s

/-- R68 rules 1 to 4: the command of the first rule that yields one. -/
def State.normalCmd (s : State) (t c : Nat) (idle : Bool) : Option Cmd :=
  let x := s.chan t c
  let due := x.refOrder.filter (fun b => s.refDue t c b && !(x.bank b).bench)
  let old := (x.rq ++ x.wq ++ x.nq ++ x.backs).filter (fun r => decide (r.at_ + 2000 ≤ x.now))
  let recent := x.slots.filter (fun n => decide (x.now < n + 64))
  let q := byNo (x.dirQueue x.dirW)
  let hit (r : Req) : Bool := (x.bank (s.reqBank r)).row == some (s.loc r.da).row
  (due.findSome? (s.cmdRefresh t c))
    |>.or (s.cmdFirst t c idle (byNo old))
    |>.or (if recent.length < narrowSlots (s.fld (memR t c 0x84) 1 0) then s.cmdFirst t c idle (byNo x.nq) else none)
    |>.or (s.cmdFirst t c idle (q.filter hit ++ q.filter (fun r => !hit r)))

/-- R68: the command of a cycle; rule 5 last: a refresh due within 500 ns, to a bank with no waiting request. -/
def State.chooseCmd (s : State) (t c : Nat) (idle : Bool) : Option Cmd :=
  let x := s.chan t c
  let soon := x.refOrder.filter (fun b =>
    let k := x.bank b
    !k.bench && decide (k.ref + s.trefi t (b % 16) ≤ x.now + 501) && !x.reqs.any (fun r => s.reqBank r == b))
  (s.normalCmd t c idle).or (soon.findSome? (s.cmdRefresh t c))

/-- The units that a column command of a request moves. -/
def Req.beats (r : Req) : Nat :=
  match r.kind with
  | .write => (List.range 8).countP (fun u => !(unitBytes r.data u).isEmpty)
  | _ => r.len / 32

/-- A command is issued in the present cycle. -/
def State.issue (s : State) (t c : Nat) (k : Cmd) : State :=
  let bankOf (f : Nat → BankSt → BankSt) (b : Nat) : State := s.modChan t c (fun x => x.setBank b (f x.now (x.bank b)))
  match k with
  | .refresh b => (bankOf (fun n y => { y with ref := n + 1, due := false }) b).modChan t c (fun x => { x with attempts := 0 })
  | .close b _ => bankOf (fun n y => { y with row := none, pre := n + 1 }) b
  | .open_ r =>
    (bankOf (fun n y => { y with row := some (s.loc r.da).row, act := n + 1 }) (s.reqBank r)).modChan t c
      (fun x => { x with slots := if r.kind = .narrow then x.now :: x.slots else x.slots })
  | .column r true =>
    let s := (bankOf (fun n y => { y with wr := n + 1 }) (s.reqBank r)).modChan t c
      (fun x => { x with lastWr := x.now + 1, runCnt := x.runCnt + r.beats })
    (s.touchCopy (s.loc r.da)).perform t c r
  | .column r false =>
    -- a narrow read closes its row by auto-precharge, at the first cycle that tRAS and tRTP permit
    let auto := r.kind == .narrow
    let s := (bankOf (fun n y =>
      { y with rd := n + 1, row := if auto then none else y.row, pre := if auto then max (y.act + 30) (n + 5) else y.pre })
      (s.reqBank r)).modChan t c (fun x =>
        { x with lastRd := x.now + 1, runCnt := if r.kind = .read then x.runCnt + r.beats else x.runCnt,
                 slots := if auto then x.now :: x.slots else x.slots })
    if r.wr then s.modChan t c (fun x => x.modReq r.no (fun r => { r with rd := true })) else s.perform t c r

/-- The channel moves data: no retrain, not FAILED, its tower in service (R89, R93). -/
def State.chanWorks (s : State) (t c : Nat) : Bool :=
  (s.chan t c).attempt == 0 && s.fld (memR t c 0x14) 31 28 != 4 && !(s.tower t).oos && s.bit (memR t c 0x10) 0

/-- The command that a controller chooses in the present cycle, and the state with its direction settled. -/
def State.cycle (s : State) (t c : Nat) : Option Cmd × State :=
  if s.chanWorks t c then
    let s := s.turned t c
    (s.chooseCmd t c (idleSlot (s.tower t).dstep (s.chan t c).now), s)
  else (none, s)

/-- R66, R68, R96: CHANNEL_COMMAND_ISSUE: one CK_M cycle of a controller. -/
def execChannelCommandIssue (t : Tower) (c : Chan) (s : State) : Host.Outcome State Fault Refusal :=
  let n := (s.chan t.val c.val).now
  let (k, s) := s.cycle t.val c.val
  .next ((match k with | some k => s.issue t.val c.val k | none => s).passTo t.val c.val (n + 1))

/-! ### Requests -/

/-- A request of region 0 of a tower in service. -/
def State.daLive (s : State) (da : Nat) : Bool := inR0 da && !(s.tower (daTower da)).oos

/-- R67: MEM_READ_REQUEST: whole units within one line. -/
def execMemReadRequest (da : Da) (units : Fin 9) (tag : Nat) (s : State) : Host.Outcome State Fault Refusal :=
  let a := da.toNat
  if s.daLive a && a % 32 == 0 && decide (0 < units.val) && decide (a % 256 + 32 * units.val ≤ 256) then
    .next (s.queueRead .read a (32 * units.val) tag)
  else .next s

/-- R74: NARROW_READ: one aligned unit. -/
def execNarrowRead (da : Da) (tag : Nat) (s : State) : Host.Outcome State Fault Refusal :=
  if s.daLive da.toNat && da.toNat % 32 == 0 then .next (s.queueRead .narrow da.toNat 32 tag) else .next s

/-- R75, R387: MEM_WRITE_REQUEST: bytes within one line, through the crypt port. -/
def execMemWriteRequest (da : Da) (data : List Byte) (poison : Bool) (s : State) : Host.Outcome State Fault Refusal :=
  let a := da.toNat
  if s.daLive a && !data.isEmpty && decide (a % 256 + data.length ≤ 256) then
    .next (s.write0 .tally a (data.map (fun b => (b, poison))))
  else .next s

/-- R78, R79, R387: ATOMIC_ADD: one aligned unit; an add to a key region is dropped. -/
def execAtomicAdd (da : Da) (af : AddFmt) (addend : BitVec 256) (mask : BitVec 16) (s : State) :
    Host.Outcome State Fault Refusal :=
  let a := da.toNat
  if s.daLive a && a % 32 == 0 && (s.keyAt a).isNone then .next (s.atomAdd a af addend mask) else .next s

/-! ### Read returns and mirrors -/

/-- Poison a unit in place, unless it was written since the read took it. -/
def State.poisonStored (s : State) (k : Nat) (seen data : List Byte) : State :=
  if s.rawUnit k = seen then s.putUnit k data true else s

/-- R81, R83, R387: decode one unit of a read that returns: its plain data, whether it is poisoned, the state. -/
def State.returnUnit (s : State) (t c da : Nat) (seen : List Byte) (errs : Errs) : List Byte × Bool × State :=
  let l := s.loc da
  let k := unitKey t c l.b l.row l.unit
  let plain (s : State) (d : List Byte) : List Byte × Bool × State :=
    match s.keyAt da with
    | none => (d, false, s)
    | some e => match s.keyHeld da e with
      | none => (List.replicate 32 0, true, s)
      | some key => (xts false key (da / 32) d, false, s)
  match decodeUnit (applyErrs seen errs) with
  | (.clean, cw) => plain s (cw.drop 4)
  | (.corrected, cw) =>
    let s := if s.rawUnit k = seen then s.setRawUnit k cw else s
    plain (s.countCe t c 1) (cw.drop 4)
  | (.poisoned, cw) => (cw.drop 4, true, (s.bump (memR t c 0xA8) 1).flagErr (.mem t c) 18 0 1 none da c)
  | (.uncorrectable, cw) =>
    (cw.drop 4, true, ((s.poisonStored k seen (cw.drop 4)).bump (memR t c 0xA4) 1).flagErr (.mem t c) 17 0 1 none da c)

/-- R428, R431: a unit that an enabled mirror entry covers and that was found bad is substituted; one with no usable copy
is lost. A unit that no entry covers is delivered poisoned (assumption log 37). -/
def State.substitute (s : State) (da : Nat) (d : List Byte) : List Byte × Bool × State :=
  let st := s.stallOf (daTower da)
  match s.copyOf da with
  | none => (d, true, s)
  | some m =>
    if (s.tower (daTower m)).oos then (d, true, s.noteLost st da)
    else
      let (d', bad, s) := s.readUnit m
      if bad then (d, true, s.noteLost st da) else (d', false, (s.queueRepair da m).countSub st)

/-- A read in flight returns its data; errs alters its first unit. -/
def State.readReturns (s : State) (t c : Nat) (r : Req) (errs : Errs) : State :=
  let bytes := r.data.map (·.2)
  let (d, p, s) := forN (r.len / 32) (([] : List Byte), false, s) (fun (acc : List Byte × Bool × State) i =>
    let a := r.da + 32 * i
    let seen := (bytes.drop (36 * i)).take 36
    let (d, bad, s) := acc.2.2.returnUnit t c a seen (if i = 0 then errs else [])
    let (d, bad, s) := if bad then s.substitute a d else (d, bad, s)
    (acc.1 ++ d, acc.2.1 || bad, s))
  (s.emit (.data r.tag d p)).integStops

/-- R81, R89, R428: READ_DATA_RETURN: the oldest read in flight returns; a channel that retrains moves no data. -/
def execReadDataReturn (t : Tower) (c : Chan) (errs : Errs) (s : State) : Host.Outcome State Fault Refusal :=
  match (s.chan t.val c.val).flight with
  | [] => .next s
  | r :: rest =>
    if (s.chan t.val c.val).attempt ≠ 0 then .next s
    else .next (s.orWait (fun s =>
      (s.modChan t.val c.val (fun x => { x with flight := rest })).readReturns t.val c.val r errs))

/-- Take a unit out of mirror repair. -/
def State.dropMir (s : State) (t bad : Nat) : State :=
  s.modTower t (fun x => { x with mir := x.mir.filter (fun m => m.bad != bad) })

/-- Decrypt at one address and encrypt at another (R387). -/
def State.recrypt (s : State) (src dst : Nat) (d : List Byte) : List Byte :=
  let key (a : Nat) : Option (BitVec 512) := (s.keyAt a).bind (fun e => s.keyHeld a e)
  let plain := match key src with | some k => xts false k (src / 32) d | none => d
  match key dst with | some k => xts true k (dst / 32) plain | none => plain

/-- R428, R429: MIRROR_READ_RETURN: the copy of the first unit in repair arrives and is written whole into the bad unit. -/
def execMirrorReadReturn (t : Tower) (errs : Errs) (s : State) : Host.Outcome State Fault Refusal :=
  match (s.tower t.val).mir.find? (fun m => m.reading) with
  | none => .next s
  | some m =>
    if m.cancelled then .next (s.dropMir t.val m.bad)
    else if (s.tower (daTower m.copy)).oos then .next (((s.dropMir t.val m.bad).noteLost m.stall m.bad).integStops)
    else .next (s.orWait (fun s =>
      let (d, bad, s) := s.unitRead m.copy errs
      if bad then ((s.dropMir t.val m.bad).noteLost m.stall m.bad).integStops
      else
        (s.unitWrite m.bad (s.recrypt m.copy m.bad d) false).modTower t.val (fun x =>
          { x with mir := mapFirst (fun y => y == m) (fun y => { y with reading := false }) x.mir })))

/-- R429: MIRROR_REPAIR_READBACK. -/
def execMirrorRepairReadback (t : Tower) (errs : Errs) (s : State) : Host.Outcome State Fault Refusal :=
  match (s.tower t.val).mir.find? (fun m => !m.reading) with
  | none => .next s
  | some m =>
    if m.cancelled then .next (s.dropMir t.val m.bad)
    else
      let l := s.loc m.bad
      let c := s.phys l.t l.ch
      .next (s.orWait (fun s =>
        let (d, bad, s) := (s.dropMir t.val m.bad).unitRead m.bad errs
        if bad then ((s.unitWrite m.bad d true).bump (stlR m.stall 0x2A8) 1).flagErr (.stl m.stall) 19 2 1 none m.bad c
        else (s.bump (stlR m.stall 0x2A4) 1).flagErr (.stl m.stall) 19 1 0 none m.bad c))

/-! ### Timers, refresh and the patrol scrubber -/

/-- R76, R77: WCB_TIMEOUT_FLUSH: the oldest write-combining entry, 2 µs after its first write. -/
def execWcbTimeoutFlush (t : Tower) (c : Chan) (s : State) : Host.Outcome State Fault Refusal :=
  match (s.chan t.val c.val).wcb with
  | [] => .next s
  | e :: _ =>
    if (s.chan t.val c.val).now < e.at_ + 2000 then .next s
    else .next (s.orWait (fun s => (s.settle e.line).bump (memR t.val c.val 0xB8) 1))

/-- R79: ATOMIC_IDLE_WRITEBACK: the atomic entry that has been idle longest, after 1 µs. -/
def execAtomicIdleWriteback (t : Tower) (c : Chan) (s : State) : Host.Outcome State Fault Refusal :=
  match (s.chan t.val c.val).aq with
  | [] => .next s
  | e :: rest =>
    let o := rest.foldl (fun (m : AtomE) y => if y.at_ < m.at_ then y else m) e
    if (s.chan t.val c.val).now < o.at_ + 1000 then .next s
    else .next (s.orWait (fun s => s.serveTo t.val c.val o.req))

/-- R71, R120: REFRESH_DUE: a bank reaches tREFI since its last refresh, or since the last one postponed. -/
def execRefreshDue (t : Tower) (c : Chan) (b : Bank) (s : State) : Host.Outcome State Fault Refusal :=
  let x := s.chan t.val c.val
  let k := x.bank b.val
  if x.now + 1 < k.ref + (k.owed + 1) * s.trefi t.val (b.val % 16) then .next s
  else if k.bench then
    .next ((s.modChan t.val c.val (fun x => x.setBank b.val { k with owed := k.owed + 1 })).bump (bsqR t.val 0xA4) 1)
  else .next (s.modChan t.val c.val (fun x => x.setBank b.val { k with due := true }))

/-- The device address of a physical location: of the logical channel it serves, none for a channel that serves none. -/
def State.physDa (s : State) (t c b row unit : Nat) : Option Nat :=
  let l := s.logical t c
  if l < 32 then some (s.daOfLoc ⟨t, l, b, row, 32 * unit⟩) else none

/-- The time between two reads of the patrol scrubber: the period over the 2^27 units of a channel, ns. -/
def State.patrolGap (s : State) (t c : Nat) : Nat := (s.fld (memR t c 0x80) 5 4 + 1) * 21600000000000 / 2 ^ 27

/-- R83, R428, R431: a unit that the scrubber finds bad is repaired from the other copy of its pair. -/
def State.patrolFix (s : State) (t da : Nat) : State :=
  let st := s.stallOf t
  let fix (m lost : Nat) : State :=
    if (s.tower (daTower m)).oos then s
    else
      let (_, bad, s) := s.unitRead m []
      (if bad then s.noteLost st lost else s.queueRepair da m).integStops
  match s.copyOf da, s.primaryOf da with
  | some m, _ => fix m da
  | none, some p => fix p p
  | none, none => s

/-- R68, R83: PATROL_SCRUB_READ: in a cycle that rules 1 to 4 leave free, once the pace of the period permits it. -/
def execPatrolScrubRead (t : Tower) (c : Chan) (b : Bank) (row : Fin 32768) (unit : Fin 64) (errs : Errs) (s : State) :
    Host.Outcome State Fault Refusal :=
  let x := s.chan t.val c.val
  let idle := idleSlot (s.tower t.val).dstep x.now
  if !s.chanWorks t.val c.val || !s.bit (memR t.val c.val 0x80) 9 || (x.bank b.val).bench || idle ||
     decide (s.time < x.patrolAt + s.patrolGap t.val c.val) || ((s.turned t.val c.val).normalCmd t.val c.val idle).isSome then .next s
  else .next (s.orWait (fun s =>
    let s := (s.modChan t.val c.val (fun x => { x with patrolAt := s.time })).touch t.val c.val b.val row.val false
    let da := s.physDa t.val c.val b.val row.val unit.val
    let (_, bad, s) := s.eccRead t.val c.val b.val row.val unit.val (da.getD 0) errs
    match da with
    | some da => if bad then s.patrolFix t.val da else s
    | none => s))

/-! ### Parity and retraining (R84 to R89) -/

/-- R87: a retrain is scheduled; it runs at the next step boundary, or at once. -/
def State.schedule (s : State) (t c : Nat) : State := s.modChan t c (fun x => { x with sched := true })

/-- Even parity of some bytes. -/
def evenParity (bs : List Byte) : Bool := (bs.map (fun b => (List.range 8).countP (fun i => b.getLsbD i))).foldl (· + ·) 0 % 2 == 1

/-- R65: the parity bits of a beat: of each of eight groups of data, and of the check bytes. -/
def beatParity (cw : List Byte) : List Bool :=
  (List.range 8).map (fun g => evenParity (((cw.drop 4).drop (4 * g)).take 4)) ++ [evenParity (cw.take 4)]

/-- R84: a beat whose bits, and whose parity bits, were altered on the way fails its check. -/
def beatFails (cw : List Byte) (flips : Errs) (par : BitVec 9) : Bool :=
  let sent := beatParity cw
  let got := beatParity (applyErrs cw flips)
  (List.range 9).any (fun g => got.getD g false != (sent.getD g false != par.getLsbD g))

/-- R84, R85, R87: an attempt of a transfer fails after n others; set writes the number of failed attempts. The fifth marks
the channel DEGRADED and asks for a forced retrain, after which the transfer is reissued. -/
def State.attemptFails (s : State) (t c n : Nat) (set : Nat → Chn → Chn) : State :=
  if 4 ≤ n then
    let st := s.fld (memR t c 0x14) 31 28
    ((s.modChan t c (fun x => { set 0 x with forced := true, back := if st = 1 then x.back else st })).setFld
      (memR t c 0x14) 31 28 1).flagErr (.mem t c) 19 0 0 none 0 c
  else
    let ts := (s.time :: (s.chan t c).retries).filter (fun r => decide (s.time < r + 1000000))
    let s := (s.modChan t c (fun x => { set (n + 1) x with retries := ts })).bump (memR t c 0xAC) 1
    if 8 ≤ ts.length then (s.schedule t c).settleIdle else s

/-- The failed attempts of the transfer that a command belongs to, and how they are written. -/
def Cmd.tries (x : Chn) : Cmd → Nat × (Nat → Chn → Chn)
  | .refresh _ | .close _ none => (x.attempts, fun n y => { y with attempts := n })
  | .close _ (some r) | .open_ r | .column r _ => (r.tries, fun n y => y.modReq r.no (fun r => { r with tries := n }))

/-- The data beat of a write column: the first unit as it will stand in the array. -/
def State.writeBeat (s : State) (t c : Nat) (k : Cmd) : Option Nat :=
  match k with
  | .column r true =>
    let u := ((List.range 8).find? (fun u => !(unitBytes r.data u).isEmpty)).getD 0
    let l := s.loc (r.da + 32 * u)
    some (unitKey t c l.b l.row l.unit)
  | _ => none

/-- R65, R84, R85: PARITY_ERROR: bits are altered on the interface: of the command of a cycle, of its first write beat, or of
the first beat of the oldest read in flight. e.flips and e.par tell the bits of the beat and of its parity (a command fails its
check; assumption log 124). A command that fails is discarded, a read that fails is issued again; what no parity bit shows
passes. -/
def execParityError (t : Tower) (c : Chan) (e : ParErr) (s : State) : Host.Outcome State Fault Refusal :=
  let t := t.val
  let c := c.val
  if !s.chanWorks t c then .next s
  else match e.kind with
    | .readData =>
      match (s.chan t c).flight with
      | [] => .next s
      | r :: rest =>
        let s := s.modChan t c (fun x => { x with flight := rest })
        if beatFails ((r.data.map (·.2)).take 36) e.flips e.par then
          let s := s.modChan t c (fun x =>
            if r.kind = .narrow then { x with nq := byNo (r :: x.nq) } else { x with rq := byNo (r :: x.rq) })
          .next (s.attemptFails t c r.tries (fun n y => y.modReq r.no (fun r => { r with tries := n })))
        else .next (s.orWait (fun s => s.readReturns t c r e.flips))
    | _ =>
      let n := (s.chan t c).now
      match s.cycle t c with
      | (none, s) => .next (s.passTo t c (n + 1))
      | (some k, s) =>
        let s1 := (s.issue t c k).passTo t c (n + 1)
        let (tries, set) := k.tries (s.chan t c)
        let lost := (s.passTo t c (n + 1)).attemptFails t c tries set
        match e.kind, s.writeBeat t c k with
        | .command, _ => .next lost
        | _, none => .next s1
        | _, some key =>
          if beatFails (s1.rawUnit key) e.flips e.par then .next lost
          else .next (s1.setRawUnit key (applyErrs (s1.rawUnit key) e.flips))

/-- R88, R90: FORCED_RETRAIN_START: at a boundary of the bench commands of the channel. -/
def execForcedRetrainStart (t : Tower) (c : Chan) (s : State) : Host.Outcome State Fault Refusal :=
  let x := s.chan t.val c.val
  if !x.forced || x.attempt != 0 || x.engaged then .next s
  else
    let s := (s.startRetrain t.val c.val true).extend (s.stallOf t.val) 50
    let ts := (s.time :: x.forcedAt).filter (fun r => decide (s.time < r + 10000000000))
    let s := s.modChan t.val c.val (fun x => { x with forcedAt := ts })
    .next (if 3 ≤ ts.length && s.bit (memR t.val c.val 0x80) 8 then (s.repairCond t.val c.val).settleIdle else s)

/-- R86: RETRAIN_SLICE_END: every refresh that has fallen due is issued. -/
def execRetrainSliceEnd (t : Tower) (c : Chan) (s : State) : Host.Outcome State Fault Refusal :=
  if (s.chan t.val c.val).attempt = 0 then .next s
  else
    let s := forN 64 s (fun s b => if s.refDue t.val c.val b then s.refreshBank t.val c.val b else s)
    .next (s.modChan t.val c.val (fun x => { x with slices := x.slices + 1 }))

/-- The hottest deck and its temperature in half degrees, once every deck has reported (R96). -/
def State.hottest (s : State) (t : Nat) : Option (Nat × Nat) :=
  let l := (s.tower t).temp
  if l.length < 16 then none
  else some (l.foldl (fun (m : Nat × Nat) (d, v) => if m.2 < v - 1 then (d, v - 1) else m) (0, 0))

/-- LAST_TEMP of a channel becomes the hottest deck in whole °C (R86, R406). -/
def State.noteTemp (s : State) (t c : Nat) : State :=
  s.setFld (memR t c 0x94) 23 16 (match s.hottest t with | some (_, h) => min 255 (h / 2) | none => 0)

/-- A retrain of a channel is over; TRAIN.COUNT counts it. -/
def State.retrainOver (s : State) (t c : Nat) : State :=
  (s.modChan t c (fun x => { x with attempt := 0, wasForced := false, slices := 0 })).setFld (memR t c 0x94) 15 0
    (min 65535 (s.fld (memR t c 0x94) 15 0 + 1))

/-- R93: a channel has become FAILED. DESIGN CHOICE (assumption log 125): a spare that becomes FAILED while it is filled ends
the repair (STATE 4) and leaves the tower in service without a spare. -/
def State.chanFailed (s : State) (t c : Nat) : State :=
  let s := s.setFld (memR t c 0x14) 31 28 4
  match (s.tower t).repair with
  | some r =>
    if r.old = c then s.modTower t (fun x => { x with oosDue := true })
    else if c = 32 then
      (s.setFld (memR t r.old 0x98) 3 0 4).modTower t (fun x => { x with repair := none })
    else if s.logical t c < 32 then s.towerOut t true else s
  | none => if s.logical t c < 32 then s.towerOut t true else s

/-- R86, R89, R93: RETRAIN_ATTEMPT_END. DESIGN CHOICE (assumption log 126): a channel that serves no logical channel returns
to the state it had (SPARE or RETIRED), where R89 says NORMAL. -/
def execRetrainAttemptEnd (t : Tower) (c : Chan) (converged : Bool) (s : State) : Host.Outcome State Fault Refusal :=
  let x := s.chan t.val c.val
  if x.attempt = 0 then .next s
  else if converged then
    let s := s.retrainOver t.val c.val
    .next ((s.setFld (memR t.val c.val 0x14) 31 28 (if s.logical t.val c.val < 32 then 0 else x.back)).noteTemp t.val c.val).settleIdle
  else
    let s := s.flagErr (.mem t.val c.val) 20 0 0 none 0 c.val
    if x.attempt < 3 then
      .next ((s.setChan t.val c.val { x with attempt := x.attempt + 1, slices := 0 }).extend (s.stallOf t.val) 50)
    else .next ((s.retrainOver t.val c.val).chanFailed t.val c.val).settleIdle

end Sys2Proof.Machine
end

