-- ==== Sys2Proof/Machine/Repair.lean ====
section
/-! DEFINITION. Spare-channel repair as software and the repair engine drive it (R90, R91, R94), and the traffic generator
and checker of a channel (R95). -/

namespace Sys2Proof.Machine

/-! ### Repair (R90 to R94) -/

/-- R90: START in the page of controller c, while the spare is free; elsewhere than on the controller that serves a
channel it is ignored. DESIGN CHOICE (assumption log 127): it is ignored too in a tower that is out of service. -/
def State.repairGo (s : State) (t c : Nat) : State :=
  if s.logical t c < 32 && !(s.tower t).oos then s.repairCond t c else s

/-- R94: ABORT during the copy: the spare is free again. -/
def State.repairStop (s : State) (t c : Nat) : State :=
  match (s.tower t).repair with
  | some r =>
    if r.old = c then
      ((s.setFld (memR t c 0x98) 3 0 4).modTower t (fun x => { x with repair := none })).flagErr (.mem t c) 22 0 0 none 0 c
    else s
  | none => s

/-- Rows of a channel: 64 banks of 32,768 rows. -/
def chanRows : Nat := 2097152

/-- Copy one row from the old channel into the spare. -/
def State.copyRow (s : State) (t old b row : Nat) : State :=
  forN 64 ((s.touch t old b row false).touch t 32 b row true) (fun s u =>
    let (d, bad, s) := s.eccRead t old b row u ((s.physDa t old b row u).getD 0) []
    s.putUnit (unitKey t 32 b row u) d bad)

/-- R91: a row takes 8 cycles of the data path; the share of the old channel that the copy may use spaces the rows. -/
def State.copyGap (s : State) (t old : Nat) : Nat := 8 * (32 >>> s.fld (memR t old 0x80) 11 10)

/-- R91, R92: REPAIR_ROW_COPY: the next row; after the whole channel, the rows of the bench region that an overflow of the
dirty log asked for; then the switch is awaited. -/
def execRepairRowCopy (t : Tower) (s : State) : Host.Outcome State Fault Refusal :=
  match (s.tower t.val).repair with
  | none => .next s
  | some r =>
    let g := 256 * s.gib t.val
    let i := if r.rows < chanRows then some (r.rows / 32768, r.rows % 32768)
             else if 0 < r.redo && decide (0 < g) then
               (let j := 64 * g - r.redo
                some (j / g % 64, 32768 - g + j % g))
             else none
    match i with
    | none => .next s
    | some (b, row) =>
      if !s.chanWorks t.val r.old || decide ((s.chan t.val r.old).now < r.next) then .next s
      else .next (s.orWait (fun s =>
        let s := s.copyRow t.val r.old b row
        -- corrected symbols may meet a condition that ends this repair: the record is read again
        match (s.tower t.val).repair with
        | none => s
        | some r =>
          let r' := if r.rows < chanRows then { r with rows := r.rows + 1 } else { r with redo := r.redo - 1 }
          let r' := { r' with ready := r'.rows == chanRows && r'.redo == 0,
                              next := (s.chan t.val r.old).now + s.copyGap t.val r.old }
          let s := s.modTower t.val (fun x => { x with repair := some r' })
          let s := s.setFld (memR t.val r.old 0x98) 15 8 (min 255 (r'.rows / 8192))
          if r'.ready then (s.setFld (memR t.val r.old 0x98) 3 0 2).settleIdle else s))

/-! ### Traffic generator (R95) -/

/-- May the generator of a channel run? -/
def State.tgAllowed (s : State) (t c : Nat) : Bool :=
  [3, 5].contains (s.fld (memR t c 0x14) 31 28) || (s.tower t).oos

/-- R95: GO. DESIGN CHOICE (assumption log 128): a GO while a run is BUSY is ignored and sets no flag; one on the spare while a
repair fills it is taken, since its state is SPARE. -/
def State.tgStart (s : State) (t c : Nat) : State :=
  if !s.tgAllowed t c then s.flagWhileRun (.mem t c)
  else if s.bit (memR t c 0x100) 0 then s
  else
    let s := s.modChan t c (fun x => { x with tgStop := false })
    ((((s.setFld (memR t c 0x100) 1 0 1).setReg (memR t c 0x10C) 0).setReg (memR t c 0x110) 0).setReg (memR t c 0x114) 0)

/-- R95: STOP. -/
def State.tgHalt (s : State) (t c : Nat) : State :=
  if s.bit (memR t c 0x100) 0 then s.modChan t c (fun x => { x with tgStop := true }) else s

/-- The channel-local unit that a pass visits i-th (assumption log 35): 2^27 units, 2^21 of a bank. -/
def tgUnit (ctl seed : Word) (i : Nat) : Nat :=
  match fget ctl 27 26 with
  | 1 => Config.tgAddr seed.toNat i % 2 ^ 27
  | 2 => (16 * fget ctl 19 18 + fget ctl 23 20) * 2 ^ 21 + i % 2 ^ 21
  | _ => i % 2 ^ 27

/-- The data a unit is to hold: a walking one is one set bit, one place on from unit to unit, from a first place that the
model leaves free (assumption log 35). -/
def tgExpect (ctl seed : Word) (u : Nat) : List Byte :=
  match fget ctl 25 24 with
  | 1 => List.replicate 32 0
  | 2 => List.replicate 32 0xFF
  | 3 => leBytes 32 (2 ^ ((Config.tgWalk seed.toNat + u) % 256))
  | k => leBytes 32 (Config.tgData seed.toNat k u).toNat

/-- The stored unit of a channel-local unit. -/
def tgKey (t c u : Nat) : Nat := unitKey t c (u / 2 ^ 21) (u / 64 % 32768) (u % 64)

/-- R95: TG_RUN_DONE: a run of cycles finishes: its writes and checks stand. A stopped run ends after a number of
transfers of each pass that the model leaves free. -/
def execTgRunDone (t : Tower) (c : Chan) (cycles : Nat) (s : State) : Host.Outcome State Fault Refusal :=
  let a := memR t.val c.val
  if !s.bit (a 0x100) 0 then .next s
  else if !s.tgAllowed t.val c.val then
    -- the channel serves a tower again: the run is over and reaches no row
    .next ((s.modChan t.val c.val (fun x => { x with tgStop := false })).setFld (a 0x100) 1 0 2)
  else
    let ctl := s.reg (a 0x100)
    let seed := s.reg (a 0x104)
    let len := (s.reg (a 0x108)).toNat
    let (n, s) := if (s.chan t.val c.val).tgStop then s.draw (len + 1) else (len, s)
    let op := fget ctl 29 28
    let s := if op = 1 then s else
      forN n s (fun s i => s.putUnit (tgKey t.val c.val (tgUnit ctl seed i)) (tgExpect ctl seed (tgUnit ctl seed i)) false)
    let s := if op = 2 then s else
      forN n s (fun s i =>
        let u := tgUnit ctl seed i
        let (d, _, s) := s.eccRead t.val c.val (u / 2 ^ 21) (u / 64 % 32768) (u % 64) 0 []
        if d = tgExpect ctl seed u then s
        else
          let s := if (s.reg (a 0x10C)).toNat = 0 then s.setReg (a 0x110) (w32 u) else s
          (s.bump (a 0x10C) 1).flagErr (.mem t.val c.val) 24 0 0 none 0 c.val)
    let s := s.modChan t.val c.val (fun x => { x with tgStop := false })
    .next ((s.setReg (a 0x114) (w32 (min cycles 0xFFFFFFFF))).setFld (a 0x100) 1 0 2)

end Sys2Proof.Machine
end

