-- ==== Sys2Proof/Machine/Queues.lean ====
section
/-! DEFINITION. Queues, submissions and resources: owner slots (R269), scheduling of resources (R270 to R273, R311 to
R313), semaphores and their waiters (R267, R273, R276, R277), what every descriptor meets at the head of its queue
(R265 to R267), completion (R267, R279, R303), and the failure of a submission (R287, R288, R322, R324). -/

namespace Sys2Proof.Machine

/-! ### Names of queues and resources -/

def kIdx : QKind → Nat
  | .mx => 0 | .vx => 1 | .mv => 2 | .sy => 3 | .bn => 4

/-- The key of a queue: core key × 8 + kind; (10,240 + tower) × 8 + 4 for a BN queue. -/
def qKey (q : QueueId) : Nat :=
  match q.k with
  | .bn => (10240 + q.core.t.val) * 8 + 4
  | k => coreKey q.core.t.val q.core.a.val q.core.c.val * 8 + kIdx k

/-- The tower of a queue key. -/
def keyTower (k : Nat) : Nat := if k / 8 < 10240 then k / 8 / 320 else k / 8 - 10240

/-- The resource of a queue key: tower × 32 + aisle, or + 31 for the bench queue. -/
def keyRes (k : Nat) : Nat :=
  if k / 8 < 10240 then k / 8 / 320 * 32 + k / 8 / 16 % 20 else (k / 8 - 10240) * 32 + 31

/-- The queues of a resource. -/
def resKeys (r : Nat) : List Nat :=
  if r % 32 = 31 then [(10240 + r / 32) * 8 + 4]
  else (List.range 64).map (fun i => coreKey (r / 32) (r % 32) (i / 4) * 8 + i % 4)

def State.qGet (s : State) (k : Nat) : QSt :=
  if k / 8 < 10240 then (s.core (k / 8)).queue (k % 8) else (s.tower (k / 8 - 10240)).bnq

def State.qSet (s : State) (k : Nat) (q : QSt) : State :=
  if k / 8 < 10240 then s.modCore (k / 8) (fun c => c.setQueue (k % 8) q)
  else s.modTower (k / 8 - 10240) (fun x => { x with bnq := q })

/-- The page whose error ring a queue's events enter. -/
def keyPage (k : Nat) : Pg :=
  if k / 8 < 10240 then .ais (k / 8 / 320) (k / 8 / 16 % 20) else .bsq (k / 8 - 10240)

/-! ### Who acts -/

def State.subAt (s : State) (i : Nat) : Option Sub := (s.subs.find? (fun x => x.1 == i)).map (·.2)
def State.putSub (s : State) (i : Nat) (x : Sub) : State :=
  { s with subs := s.subs.map (fun y => if y.1 = i then (i, x) else y) }

/-- The submission that a resource serves. -/
def State.served (s : State) (r : Nat) : Option (Nat × Sub) :=
  (s.aisle r).cur.bind (fun i => (s.subAt i).map (fun x => (i, x)))

/-- On whose behalf a queue acts: a submission, or the Tallyman's slot 64 where none is served (assumption log 38). -/
structure Actor where
  sub : Option Nat
  st : Nat
  slot : Nat
  ctx : Nat
  expert : Bool
  be : Bool
deriving DecidableEq, Repr

def State.actor (s : State) (k : Nat) : Actor :=
  match s.served (keyRes k) with
  | some (i, x) => ⟨some i, x.stall, x.slot, x.ctx, x.expert, x.be⟩
  | none => ⟨none, s.stallOf (keyTower k), 64, 0, false, false⟩

/-- The accessor of R389. -/
def Actor.who (a : Actor) (mxw : Bool) : Who := .sub a.st a.slot mxw

/-- The context of an actor that acts for one context. -/
def Actor.ctx? (a : Actor) : Option Nat := if a.slot < 64 then some a.ctx else none

/-! ### Resources (R270, R271, R311 to R313) -/

/-- R271: clear an aisle: written marks, tiles, tags, poison; masks all ones. -/
def State.clearAisle (s : State) (t a : Nat) : State :=
  let s := s.clearMarks (fun u => unitTower u == t && sramAisle (32 * u) == some a)
  forN 16 s (fun s c => s.setCore (coreKey t a c) CoreSt.reset)

/-- The submissions that wait for a resource. -/
def State.waitersOf (s : State) (r : Nat) : List (Nat × Sub) :=
  s.subs.filter (fun (i, x) =>
    x.stall == s.stallOf (r / 32) && x.failed.isNone && (s.aisle r).cur != some i &&
    (!x.expert || x.lists.any (fun (k, q) => keyRes k == r && decide (q.idx < q.n) && q.st != 3)))

/-- R312 rule 1: the place of an owner slot in the ascending order of a resource, which starts from a slot that advances at
each step and goes on after the slot served last. -/
def State.slotRank (s : State) (r st slot : Nat) : Nat :=
  let first := match (s.aisle r).last with | some l => l + 1 | none => (s.stall st).rotS
  (slot + 72 - first % 72) % 72

/-- The first of a list by a strict order. -/
def bestOf {α : Type} (lt : α → α → Bool) : List α → Option α
  | [] => none
  | x :: xs => some (xs.foldl (fun m y => if lt y m then y else m) x)

/-- CTX_CFG.WEIGHT of a slot. -/
def State.weight (s : State) (st slot : Nat) : Nat := if slot < 64 then max 1 (s.fld (ctxCfg st slot) 7 0) else 1

/-- SLICE_US in ns. -/
def State.sliceNs (s : State) (st : Nat) : Nat := s.fld (stlR st 0x88) 31 24 * 1000

/-- R312: submission x goes before y at a resource: LC before BE, LC by owner slot, BE by service over WEIGHT. -/
def State.before (s : State) (r : Nat) (x y : Sub) : Bool :=
  if x.be != y.be then !x.be
  else if !x.be then decide (s.slotRank r x.stall x.slot < s.slotRank r y.stall y.slot)
  else
    let key (x : Sub) : Nat × Nat := (mget 0 (s.aisle r).service x.slot, s.weight x.stall x.slot)
    decide ((key x).1 * (key y).2 < (key y).1 * (key x).2) ||
      ((key x).1 * (key y).2 == (key y).1 * (key x).2 && decide (x.slot < y.slot))

/-- R312, R313: the first submission in order; a context whose charge is a whole slice gives up its turn while another
waits. -/
def State.pickFrom : Nat → State → Nat → List (Nat × Sub) → Option Nat × State
  | 0, s, _, _ => (none, s)
  | fuel + 1, s, r, l =>
    match bestOf (fun x y => s.before r x.2 y.2) l with
    | none => (none, s)
    | some (i, x) =>
      let c := mget 0 (s.aisle r).charge x.slot
      if c < s.sliceNs x.stall || l.length ≤ 1 then (some i, s)
      else
        let s := s.modAisle r (fun a => { a with charge := mset 0 a.charge x.slot (c - s.sliceNs x.stall) })
        State.pickFrom fuel s r (l.filter (fun y => y.1 != i))

/-- R312: the submission that a resource takes next. -/
def State.pickNext (s : State) (r : Nat) : Option Nat × State :=
  let l := s.waitersOf r
  State.pickFrom l.length s r l

/-- R313: what a submission may keep of a resource: a slice, less what is charged to its context there. -/
def State.sliceLeft (s : State) (r : Nat) (x : Sub) : Nat := s.sliceNs x.stall - mget 0 (s.aisle r).charge x.slot

/-- R313: the submission that a resource serves has held it for its slice. -/
def State.sliceOver (s : State) (r : Nat) : Bool :=
  match s.served r with
  | some (_, x) => decide ((s.aisle r).since + s.sliceLeft r x ≤ s.time)
  | none => false

/-- R313: an overrun adds to STL.OVERRUN_US; what is less than 1 µs is kept for the next. -/
def State.overrun (s : State) (st ns : Nat) : State :=
  let n := (s.stall st).overNs + ns
  let s := if ns = 0 then s else s.modStall st (fun x => { x with overNs := n % 1000 })
  if n / 1000 = 0 then s else s.bump (stlR st 0xD8) (n / 1000)

/-- R270: the state of a queue as it is saved: a word-0 wait begins again when the queue resumes. -/
def QSt.saved (q : QSt) : QSt := if q.st = 2 && !q.go then { q with st := 1, cur := none } else q

/-- A resource leaves its submission: the queue states are saved, the time served and the overrun are charged. -/
def State.leaveRes (s : State) (r : Nat) : State :=
  match s.served r with
  | none => s.modAisle r (fun a => { a with cur := none, expired := false })
  | some (i, x) =>
    let a := s.aisle r
    let ran := s.time - a.since
    let late := if a.expired || !(s.waitersOf r).isEmpty then ran - s.sliceLeft r x else 0
    let s := s.putSub i { x with lists := x.lists.map (fun (k, q) => if keyRes k = r then (k, (s.qGet k).saved) else (k, q)) }
    (s.setAisle r { a with
      cur := none, expired := false, service := mset 0 a.service x.slot (mget 0 a.service x.slot + ran),
      charge := mset 0 a.charge x.slot late, last := if x.be then a.last else some x.slot }).overrun x.stall late

/-- A resource starts or resumes a submission (R271). -/
def State.enterRes (s : State) (r i : Nat) : State :=
  let s := if r % 32 = 31 then s else s.clearAisle (r / 32) (r % 32)
  let s := s.modAisle r (fun a => { a with cur := some i, since := s.time, expired := false })
  match s.subAt i with
  | none => s
  | some x =>
    let s := if x.started then s else s.putSub i { x with started := true, start := s.time }
    x.lists.foldl (fun s (k, q) => if keyRes k = r then s.qSet k q else s) s

/-- A resource that serves nothing takes the next submission. -/
def State.ensureRes (s : State) (r : Nat) : State :=
  if (s.served r).isSome then s
  else match s.pickNext r with
    | (some i, s) => s.enterRes r i
    | (none, s) => s

/-- Every queue of the resource that holds a list of its submission stands at a switch point (R270). -/
def State.atSwitchPoint (s : State) (r : Nat) : Bool :=
  match s.served r with
  | none => true
  | some (_, x) =>
    let at_ (k : Nat) : Bool :=
      let q := s.qGet k
      q.st == 3 || (q.atSwitch && (q.cur.isNone || (q.st == 2 && !q.go)))
    if x.expert then x.lists.all (fun (k, _) => keyRes k != r || at_ k) else (resKeys r).all at_

/-- R112: a bench queue does not leave a submission whose program is open. -/
def State.mayLeave (s : State) (r : Nat) : Bool := !(r % 32 == 31 && (s.tower (r / 32)).bench.open_)

/-- R316: a bench queue of a BE submission stands at a program boundary, and an LC submission waits for it. -/
def State.atProgram (s : State) (r : Nat) (x : Sub) : Bool :=
  r % 32 == 31 && x.be && (s.tower (r / 32)).bnq.cur.isNone && (s.waitersOf r).any (fun y => !y.2.be)

/-- R312, R313, R316: at a switch point, a resource passes on where an LC submission waits behind a BE one, where its slice
has ended and another waits, or where its submission has no list left there; a bench queue passes on to an LC submission at
a program boundary as well. A switch takes 1 µs of the resource's time. -/
def State.switchRes (s : State) (r : Nat) : State :=
  match s.served r with
  | none => s.ensureRes r
  | some (_, x) =>
    if !(s.atSwitchPoint r || s.atProgram r x) || !s.mayLeave r then s
    else
      let w := s.waitersOf r
      let done := x.failed.isSome || (x.expert && x.lists.all (fun (k, _) => keyRes k != r || decide ((s.qGet k).n ≤ (s.qGet k).idx)))
      if done || (!w.isEmpty && ((s.aisle r).expired || s.sliceOver r || (x.be && w.any (fun y => !y.2.be)))) then
        let s := s.leaveRes r
        match s.pickNext r with
        | (some i, s) => ((s.enterRes r i).modAisle r (fun a => { a with since := a.since + 1000 })).bump (stlR x.stall 0xD4) 1
        | (none, s) => s
      else s

def resNo : Resource → Nat
  | .aisle t a => t.val * 32 + a.val
  | .bench t => t.val * 32 + 31

/-- R313: SLICE_EXPIRY: the slice of a submission that holds a resource while another waits has ended; before that nothing
happens. -/
def execSliceExpiry (r : Resource) (s : State) : Host.Outcome State Fault Refusal :=
  let k := resNo r
  if !s.sliceOver k || (s.waitersOf k).isEmpty then .next s
  else .next ((s.modAisle k (fun a => { a with expired := true })).switchRes k)

/-! ### Semaphores (R273, R276, R277) -/

def State.sem (s : State) (t slot i : Nat) : Nat := mget 0 (s.tower t).sem (slot * 32 + i)
def State.setSem (s : State) (t slot i v : Nat) : State :=
  s.modTower t (fun x => { x with sem := mset 0 x.sem (slot * 32 + i) v })

/-- What the head of a waiting queue needs: index and count. -/
def QSt.need (q : QSt) : Option (Nat × Nat) :=
  match q.cur with
  | some d =>
    if q.st ≠ 2 then none
    else if q.go then some (dfld d 1 21 17, dfld d 1 15 0) else some (dfld d 0 18 14, 1)
  | none => none

/-- The queues of a tower that wait on semaphore i of a slot, as place and key. -/
def State.semWaiters (s : State) (t slot i : Nat) : List (Nat × Nat) :=
  let cores := s.cores.flatMap (fun (ck, c) => if ck / 320 = t then c.q.map (fun (j, q) => (ck * 8 + j, q)) else [])
  (((10240 + t) * 8 + 4, (s.tower t).bnq) :: cores).filterMap (fun (k, q) =>
    match q.need with
    | some (j, _) => if j = i && (s.actor k).slot == slot then some (q.since, k) else none
    | none => none)

/-- Serve the waiters of a semaphore in the order in which they reached the heads of their queues (R277). -/
def State.grantSem : Nat → State → Nat → Nat → Nat → State
  | 0, s, _, _, _ => s
  | fuel + 1, s, t, slot, i =>
    match bestOf (fun (x y : Nat × Nat) => decide (x.1 < y.1)) (s.semWaiters t slot i) with
    | none => s
    | some (_, k) =>
      let q := s.qGet k
      match q.need with
      | none => s
      | some (_, n) =>
        let v := s.sem t slot i
        if v < n then s
        else
          let s := s.setSem t slot i (v - n)
          -- a granted word-0 wait has its effect still to come; a granted SY WAIT is ready to complete
          State.grantSem fuel (s.qSet k { q with st := 1, go := !q.go }) t slot i

/-- Add to a semaphore, saturating (R276): the state, and whether it overflowed. -/
def State.post (s : State) (t slot i n : Nat) : State × Bool :=
  let v := s.sem t slot i + n
  let s := s.setSem t slot i (min v 65535)
  (State.grantSem (s.semWaiters t slot i).length s t slot i, decide (65535 < v))

/-- The next place among the waiters. -/
def State.nextPlace (s : State) : Nat :=
  let cores := s.cores.flatMap (fun (_, c) => c.q.map (fun (_, q) => if q.st = 2 then q.since else 0))
  let bns := s.tw.map (fun (_, x) => if x.bnq.st = 2 then x.bnq.since else 0)
  maxL (cores ++ bns) + 1

/-! ### Bench programs end (R112) -/

/-- The end of a bench program: rows that are still open close (R121), and the sequencer clears. -/
def State.programEnd (s : State) (t : Nat) : State :=
  (s.closeSet t).modBench t (fun b => { b with
    open_ := false, ctx := 0, slot := 0, cmds := 0, sets := [], bcast := [], bcastP := [], units := [], outN := 0, wait := none, paused := false })

/-! ### The end of submissions -/

/-- The host reads of these queues that are still out are no longer waited for. -/
def State.dropReads (s : State) (ks : List Nat) : State :=
  { s with hostRds := s.hostRds.filter (fun h => match h.dst with | .mv q _ => !ks.contains (qKey q) | .toks .. => true) }

/-- Release every resource that serves a submission. -/
def State.releaseSub (s : State) (i : Nat) : State :=
  (s.aisles.filter (fun (_, a) => a.cur == some i)).foldl (fun s (r, _) =>
    (s.modAisle r (fun a => { a with cur := none, expired := false })).ensureRes r) s

/-- A queue of a failed submission is executing a descriptor. -/
def QSt.executing (q : QSt) : Bool := q.st == 1 && q.cur.isSome && !q.go

/-- R279, R303: an expert submission ends: its leftover semaphores are zeroed, its DONE record is written. -/
def State.endExpert (s : State) (i : Nat) : State :=
  match s.subAt i with
  | none => s
  | some x =>
    let mine (k : Nat) : Bool := k / 32 == x.slot
    let left := (s.towersOf x.stall).any (fun t => (s.tower t).sem.any (fun (k, _) => mine k))
    let s := if x.failed.isNone then (s.towersOf x.stall).foldl (fun s t => s.modTower t (fun y =>
        { y with sem := y.sem.filter (fun (k, _) => !mine k) })) s else s
    let s := x.lists.foldl (fun s (k, _) => if (s.aisle (keyRes k)).cur = some i then (s.qSet k QSt.reset).dropReads [k] else s) s
    let s := (x.lists.filter (fun (k, _) => k / 8 ≥ 10240)).foldl (fun s (k, _) =>
      let t := keyTower k
      if (s.aisle (keyRes k)).cur = some i && (s.tower t).bench.open_ then s.programEnd t else s) s
    let s := ({ s with subs := s.subs.filter (fun y => y.1 != i) }).releaseSub i
    match x.failed with
    | none => s.answer x.pair (s.formExpert x.pair x.user 0 x.exec 0 0 0 0 x.start left)
    | some (fent, fcause, fdesc, ftag) =>
      s.answer x.pair (s.formExpert x.pair x.user 3 x.exec fent fcause fdesc ftag x.start false)

/-- A basic submission leaves its resources; its queues go idle. -/
def State.endBasic (s : State) (i : Nat) : State :=
  let rs := (s.aisles.filter (fun (_, a) => a.cur == some i)).map (·.1)
  let s := rs.foldl (fun s r =>
    let s := ((resKeys r).foldl (fun s k => s.qSet k QSt.reset) s).dropReads (resKeys r)
    if r % 32 = 31 && (s.tower (r / 32)).bench.open_ then s.programEnd (r / 32) else s) s
  ({ s with subs := s.subs.filter (fun y => y.1 != i) }).releaseSub i

/-- The queues that work for a submission: those of its lists that their resource serves; under basic control every queue
of the resources that serve it. -/
def State.liveKeys (s : State) (i : Nat) (x : Sub) : List Nat :=
  if x.expert then (x.lists.map (·.1)).filter (fun k => (s.aisle (keyRes k)).cur == some i)
  else (s.aisles.filter (fun (_, a) => a.cur == some i)).flatMap (fun (r, _) => resKeys r)

/-- R288: stop every queue of a failed submission that executes nothing; where none executes any more, it ends. -/
def State.stopSub (s : State) (i : Nat) : State :=
  match s.subAt i with
  | none => s
  | some x =>
    let ks := s.liveKeys i x
    let s1 := ks.foldl (fun s k =>
      if !(s.qGet k).executing then
        -- a bench queue that stops leaves no row open (R121)
        (if 10240 ≤ k / 8 then s.closeSet (keyTower k) else s).qSet k { s.qGet k with st := 3, cur := none, go := false }
      else s) s
    if ks.any (fun k => (s1.qGet k).executing) then s1 else if x.expert then s1.endExpert i else s1.endBasic i

/-! ### Failure (R287, R288, R322 to R324) -/

/-- R324: the sequences that a failing descriptor of a merged list serves: a free choice of the Tallyman's record
(assumption log 39); none is marked when it serves all of the batch. -/
def State.servedBy (s : State) (st : Nat) : List Ses × State :=
  let l := s.ses.filter (fun x => x.stall == st && x.inStep)
  let (m, s) := l.foldl (fun (acc : List Ses × State) x =>
    let (b, s) := acc.2.draw 2
    (if b = 1 then acc.1 ++ [x] else acc.1, s)) (([] : List Ses), s)
  (if m.length = l.length then [] else m, s)

/-- R324: mark a sequence; one marked twice within 64 steps is ended. -/
def State.markSes (s : State) (step : Nat) (x : Ses) : State :=
  match s.findSes x.ctx x.sid with
  | none => s
  | some y =>
    if y.marks.any (fun m => decide ((step + 2 ^ 32 - m) % 2 ^ 32 ≤ 64)) then s.endNow y 3 0x13 none
    else s.putSes { y with marks := step :: y.marks }

/-- R323, R324: a fault of a merged submission: the step is voided and the stall reset. -/
def State.mergedFault (s : State) (st : Nat) : State :=
  let step := s.stepNo st
  let (m, s) := s.servedBy st
  let s := s.stallReset st
  m.foldl (fun s x => s.markSes step x) s

/-- R288, R322: the submission that a queue works for fails: cause by R303, descriptor index and TAG. -/
def State.failSub (s : State) (k cause fdesc tag : Nat) : State :=
  let a := s.actor k
  match a.sub with
  | none => (s.qSet k { s.qGet k with st := 0, cur := none, go := false }).mergedFault a.st
  | some i =>
    match s.subAt i with
    | none => s
    | some x =>
      if x.expert || decide (x.slot < 64) then
        let s := (s.qSet k { s.qGet k with st := 3, cur := none, go := false }).dropReads [k]
        let fent := (x.lists.findIdx? (fun y => y.1 == k)).getD 0
        let s :=
          if x.failed.isSome then s
          else
            let s := s.putSub i { x with failed := some (fent, cause, fdesc, tag) }
            if x.expert then s
            else
              -- the torn-down context's sequences take no further part in the step
              ((s.ses.filter (fun y => y.ctx == x.ctx && y.inStep)).foldl (fun s y => s.putSes { y with inStep := false, drop := true }) s).tearDown
                a.st x.slot
        s.stopSub i
      else s.mergedFault a.st

/-- The record of a failing descriptor (R288, R422): bit 0 where the queue's page has no bit for it. -/
def State.failRecord (s : State) (k bit : Nat) (d : Desc) : State :=
  let q := s.qGet k
  let info := q.idx % 65536 * 65536 + dfld d 0 6 0
  let c := (s.actor k).ctx?
  if bit = 0 then s.record (keyPage k) 0 2 c q.list info true else s.flagErr (keyPage k) bit 0 2 c q.list info

/-- A failing descriptor: recorded, and its submission fails. -/
def State.failDesc (s : State) (k bit cause : Nat) (d : Desc) : State :=
  let idx := (s.qGet k).idx
  (s.failRecord k bit d).failSub k cause idx (dfld d 0 6 0)

/-! ### The head of a queue (R265 to R267) -/

/-- What a descriptor at the head of its queue meets. -/
inductive Head where
  /-- it cannot begin, or it waits -/
  | wait (s : State)
  /-- it fails R266 -/
  | refuse (s : State)
  /-- it fails the checks of its own family -/
  | bad (s : State)
  /-- it begins -/
  | run (s : State)

/-- R268: the list of queue k has d at its head. The lists that the Tallyman builds are not part of the interface (R311). -/
def State.heads (s : State) (k : Nat) (d : Desc) : Bool :=
  let q := s.qGet k
  if q.n = 0 then !(s.actor k).expert else decide (q.idx < q.n) && q.descs[q.idx]? == some d

/-- R265 to R268: a descriptor of family fam at the head of queue k. ok are the checks of its family, made as it reaches the
head; a descriptor that was held there is the one that goes on. -/
def State.head (s : State) (k fam : Nat) (ok : State → Bool) (d : Desc) : Head :=
  let s := s.ensureRes (keyRes k)
  let q := s.qGet k
  if q.st = 3 then .wait s
  else if q.st = 1 && q.cur.isSome then
    if q.go && q.cur == some d then .run (s.qSet k { q with go := false, at_ := s.time }) else .wait s
  else if q.st = 2 || !s.heads k d then .wait s
  else
    let s := s.qSet k { q with st := 1, cur := some d, go := false, at_ := s.time, bad := none }
    if dfld d 0 31 24 != 1 || dfld d 0 23 20 != fam then .refuse s
    else if !ok s then .bad s
    else if dbit d 0 19 then
      let a := s.actor k
      let t := keyTower k
      let i := dfld d 0 18 14
      let v := s.sem t a.slot i
      if 0 < v && (s.semWaiters t a.slot i).isEmpty then .run (s.setSem t a.slot i (v - 1))
      else .wait (s.qSet k { s.qGet k with st := 2, since := s.nextPlace })
    else .run s

/-! ### Completion (R267, R268, R279) -/

/-- A queue's host reads are outstanding. -/
def State.readsOut (s : State) (k : Nat) : Bool :=
  s.hostRds.any (fun h => match h.dst with | .mv q _ => qKey q == k | .toks .. => false)

/-- A descriptor of queue k completes: it posts, the queue moves on, and its list or submission may end. -/
def State.complete (s : State) (k : Nat) (d : Desc) : State :=
  let a := s.actor k
  let q := s.qGet k
  let last := decide (q.n ≤ q.idx + 1)
  let st := if q.n = 0 || last then 0 else 1
  let s := s.qSet k { q with
    st := st, cur := none, go := false, idx := if q.n = 0 then 0 else q.idx + 1, atSwitch := dbit d 0 7 || (last && q.n != 0) }
  let s := match a.sub with
    | some i => (match s.subAt i with | some x => s.putSub i { x with exec := x.exec + 1 } | none => s)
    | none => s
  let (s, past) := if dbit d 0 13 then s.post (keyTower k) a.slot (dfld d 0 12 8) 1 else (s, false)
  let fin (s : State) : State :=
    match a.sub with
    | none => s
    | some i =>
      match s.subAt i with
      | none => s
      | some x =>
        if x.failed.isSome then s.stopSub i
        else if x.expert && q.n != 0 && last then
          let x := { x with left := x.left - 1 }
          let s := s.putSub i x
          if x.left = 0 then s.endExpert i else s
        else s
  if past then
    let info := q.idx % 65536 * 65536 + dfld d 0 6 0
    let s := if k / 8 < 10240 then s.flagErr (keyPage k) 18 0 2 a.ctx? q.list info
             else s.record (keyPage k) 0 2 a.ctx? q.list info true
    (s.failSub k 3 q.idx (dfld d 0 6 0)).switchRes (keyRes k)
  else (fin s).switchRes (keyRes k)

/-- The counters of completed commands: MX_CMD_CNT, VX_CMD_CNT, PACK_CNT. -/
def State.countDone (s : State) (k : Nat) (d : Desc) : State :=
  let t := keyTower k
  let a := k / 8 / 16 % 20
  match dfld d 0 23 20 with
  | 1 => s.bump (aisR t a 0x110) 1
  | 2 => s.bump (aisR t a 0x210) 1
  | 4 => if dfld d 1 31 28 = 8 then s.bump (pkrR t 0xA0) 1 else s
  | _ => s

/-! ### Device addresses of descriptors (R19, R20, R266, R281, R317) -/

/-- [da, da + n - 1] lies in region 0 of towers of a stall. -/
def State.stallMem (s : State) (st da n : Nat) : Bool :=
  inR0 da && inR0 (da + n - 1) && (towersIn da n).all (fun t => (s.towersOf st).contains t)

/-- [da, da + n - 1] lies in the scratchpad of a core or the shelf of its aisle. -/
def ownSram (c : CoreId) (da n : Nat) : Bool :=
  inSram da n && daTower da == c.t.val &&
  (let o := daOff da
   if o < 320 * 0x40000 then o / 0x40000 == 16 * c.a.val + c.c.val else (o - 0x8000000) / 0x200000 == c.a.val)

/-- R317: a descriptor of an expert submission keeps to the ways of its class. -/
def State.wayOk (s : State) (a : Actor) (da n : Nat) : Bool :=
  !a.expert || daRegion da != 1 || decide (daOff da < 320 * 0x40000) ||
  (let lc := s.fld (stlR a.st 0x88) 15 11
   let w0 := (daOff da - 0x8000000) % 0x200000 / 0x20000
   let w1 := (daOff (da + n - 1) - 0x8000000) % 0x200000 / 0x20000
   if a.be then decide (lc ≤ w0) else decide (w1 < lc))

/-- R281: an address that an engine of a core may name. -/
def State.engineMem (s : State) (a : Actor) (c : CoreId) (da n : Nat) : Bool :=
  (s.stallMem a.st da n || ownSram c da n) && s.wayOk a da n

end Sys2Proof.Machine
end

