-- ==== Sys2Proof/Machine/Bench.lean ====
section
/-! DEFINITION. The bench: unit registers, SEG, BCAST and masks (R99 to R103, R109, R124 to R127), the micro-operations
(R102 to R104, R114, R115), bench sets and programs (R105 to R113, R131), and a RUN from its admission to its boundary
(R69, R106, R116, R120 to R122, R128, R129). -/

namespace Sys2Proof.Machine

/-! ### Unit registers (R99) -/

def UnitSt.reg (x : UnitSt) (r : Nat) : List Lane :=
  (List.range 16).map (fun l => ((mget 0 x.v (r * 16 + l)).toNat, smem x.vp (r * 16 + l)))

def UnitSt.setLane (x : UnitSt) (r l : Nat) (v : Lane) : UnitSt :=
  { x with v := mset 0 x.v (r * 16 + l) (w32 v.1), vp := if v.2 then sadd x.vp (r * 16 + l) else sdel x.vp (r * 16 + l) }

/-- A mask bit and its poison; every bit is 1 at the start of a program (R103). -/
def UnitSt.mbit (x : UnitSt) (k l : Nat) : Bool × Bool :=
  (bitOf (mget 0xFFFF x.m k).toNat l, bitOf (mget 0 x.mp k).toNat l)

def setB16 (w : BitVec 16) (l : Nat) (b : Bool) : BitVec 16 :=
  if b then w ||| BitVec.ofNat 16 (2 ^ l) else w &&& ~~~BitVec.ofNat 16 (2 ^ l)

def UnitSt.setMask (x : UnitSt) (k l : Nat) (b p : Bool) : UnitSt :=
  { x with m := mset 0xFFFF x.m k (setB16 (mget 0xFFFF x.m k) l b), mp := mset 0 x.mp k (setB16 (mget 0 x.mp k) l p) }

/-- How a mask governs a lane: whether the lane is taken, and the poison of its mask bit. -/
def UnitSt.gov (x : UnitSt) (u : Word) (l : Nat) : Bool × Bool := if uMen u then x.mbit (uK u) l else (true, false)

def unitNo (cg deck seg : Nat) : Nat := (cg * 16 + deck) * 16 + seg

def State.unitSt (s : State) (t n : Nat) : UnitSt := mget UnitSt.reset (s.tower t).bench.units n
def State.setUnitSt (s : State) (t n : Nat) (x : UnitSt) : State :=
  s.modBench t (fun b => { b with units := mset UnitSt.reset b.units n x })

/-! ### The engaged set -/

/-- A row of the bank was written by the command (R91). -/
def State.wrote (s : State) (t : Nat) (k : Bk) : State :=
  let r := (s.bkChan t k * 64 + bkB k) * 32768 + k.1.row
  s.modBench t (fun b => { b with written := sadd b.written r })

/-- R124: the close phase is to write a codeword back. -/
def State.toFix (s : State) (t : Nat) (k : Bk) (key : Nat) (cw : List Byte) : State :=
  (s.wrote t k).modBench t (fun b => { b with fix := mset [] b.fix key cw })

/-- R100, R124: a unit of a segment: data, whether it delivers poison, and the state. -/
def State.segRead (s : State) (t : Nat) (k : Bk) (seg u : Nat) : List Byte × Bool × State :=
  let c := s.bkChan t k
  let un := 4 * seg + u
  let key := unitKey t c (bkB k) k.1.row un
  match decodeUnit (s.rawUnit key) with
  | (.clean, cw) => (cw.drop 4, false, s)
  | (.corrected, cw) => (cw.drop 4, false, ((s.toFix t k key cw).countCe t c 1).bump (bsqR t 0xB0) 1)
  | (.poisoned, cw) => (cw.drop 4, true, s)
  | (.uncorrectable, cw) =>
    let s := (s.toFix t k key (encodeUnit (cw.drop 4) true)).bump (memR t c 0xA4) 1
    (cw.drop 4, true, (s.bump (bsqR t 0xB4) 1).flagErr (.bsq t) 17 0 1 none ((s.physDa t c (bkB k) k.1.row un).getD 0) c)

/-- What a micro-operation runs under: tower, descriptor, banks, iteration, BCAST reads before it. -/
structure UCtx where
  t : Nat
  d : Desc
  banks : List Bk
  i : Nat
  m : Nat

def UCtx.isInt (c : UCtx) : Bool := dbit c.d 1 21

/-- R109: the broadcast vector that the m-th BCAST read delivers to segment seg. -/
def bcastNo (d : Desc) (i m seg : Nat) : Nat :=
  (dfld d 2 10 0 + i * dfld d 2 26 16 + m + (seg &&& dfld d 7 3 0) * dfld d 7 14 4) % 2048

/-- A vector of the broadcast buffer. -/
def Bench.vec (b : Bench) (n : Nat) : List Byte := (List.range 32).map (fun i => mget 0 b.bcast (n * 32 + i))

/-- One source of a micro-operation: 0 register r, 1 SEG, 2 BCAST read number m, 3 the constant. -/
def State.source (s : State) (c : UCtx) (k : Bk) (seg : Nat) (x : UnitSt) (src r m cst u : Nat) : UnitSrc × State :=
  match src with
  | 0 => (⟨x.reg r, []⟩, s)
  | 1 =>
    let (d, bad, s) := s.segRead c.t k seg ((u + c.i * dfld c.d 2 31 30) % 4)
    (widenUnit c.isInt d bad, s)
  | 2 =>
    let n := bcastNo c.d c.i m seg
    let b := (s.tower c.t).bench
    (widenUnit c.isInt (b.vec n) (smem b.bcastP n), s)
  | _ => (constLanes c.isInt cst, s)

/-- Sources A and B of a unit. -/
def State.sources (s : State) (c : UCtx) (u : Word) (k : Bk) (seg : Nat) (x : UnitSt) : UnitSrc × UnitSrc × State :=
  let (a, s) := if uReadsA (uOp u) then s.source c k seg x (uAsrc u) (uA u) c.m (dfld c.d 3 15 0) (uU u) else (⟨[], []⟩, s)
  let m := c.m + b2n (uReadsA (uOp u) && uAsrc u == 2)
  let (b, s) := if uReadsB (uOp u) then s.source c k seg x (uBsrc u) (uB u) m (dfld c.d 3 31 16) (uU u) else (⟨[], []⟩, s)
  (a, b, s)

/-- Saturations set the command's SAT status; infinite inputs and NaNs count by R161. -/
def State.unitStats (s : State) (t sat inf : Nat) : State :=
  let s := if sat = 0 then s else (s.bump (bsqR t 0xBC) sat).flagErr (.bsq t) 16 0 0 none 0 0
  s.nonfin (s.stallOf t) inf

/-- The units that a micro-operation reaches. -/
def UCtx.units (c : UCtx) : List (Bk × Nat) := c.banks.flatMap (fun k => (List.range 16).map (fun g => (k, g)))

def bkUnit (k : Bk) (seg : Nat) : Nat := unitNo k.1.cg k.2 seg

/-- A lane-wise operation: f gives a lane's result from A, B and D, which it reads where readsD says so. -/
def State.laneOp (s : State) (c : UCtx) (u : Word) (readsD : Bool) (f : Nat → Nat → Nat → FR) : State :=
  c.units.foldl (fun s (k, g) =>
    let n := bkUnit k g
    let x := s.unitSt c.t n
    let (a, b, s) := s.sources c u k g x
    let d := x.reg (uD u)
    let (x', sat, inf) := forN 16 (x, 0, 0) (fun (p : UnitSt × Nat × Nat) l =>
      let (on, mp) := x.gov u l
      let dl := laneAt d l
      if on then
        let r := f (a.at l).1 (b.at l).1 dl.1
        let bad := (a.at l).2 || (b.at l).2 || (readsD && dl.2) || mp
        (p.1.setLane (uD u) l (r.v, bad), p.2.1 + b2n r.sat, p.2.2 + r.inf + a.infs l + b.infs l)
      else if uMz u then (p.1.setLane (uD u) l (0, mp), p.2)
      else (p.1.setLane (uD u) l (dl.1, dl.2 || mp), p.2))
    (s.setUnitSt c.t n x').unitStats c.t sat inf) s

/-- A compare: it writes mask D[1:0] (R101, R125). -/
def State.cmpOp (s : State) (c : UCtx) (u : Word) (cmp : Cmp) : State :=
  c.units.foldl (fun s (k, g) =>
    let n := bkUnit k g
    let x := s.unitSt c.t n
    let (a, b, s) := s.sources c u k g x
    let dm := uD u % 4
    let (x', inf) := forN 16 (x, 0) (fun (p : UnitSt × Nat) l =>
      let (on, mp) := x.gov u l
      let (ob, op) := x.mbit dm l
      if on then
        let (r, i) := laneCmp c.isInt cmp (a.at l).1 (b.at l).1
        (p.1.setMask dm l r ((a.at l).2 || (b.at l).2 || mp), p.2 + i + a.infs l + b.infs l)
      else if uMz u then (p.1.setMask dm l false mp, p.2)
      else (p.1.setMask dm l ob (op || mp), p.2))
    (s.setUnitSt c.t n x').unitStats c.t 0 inf) s

/-- SEL: lane by lane A where mask K is 1, else B (R125). -/
def State.selOp (s : State) (c : UCtx) (u : Word) : State :=
  c.units.foldl (fun s (k, g) =>
    let n := bkUnit k g
    let x := s.unitSt c.t n
    let (a, b, s) := s.sources c u k g x
    let (x', inf) := forN 16 (x, 0) (fun (p : UnitSt × Nat) l =>
      let (on, mp) := x.mbit (uK u) l
      let y := if on then a else b
      let v := laneTake c.isInt (y.at l).1
      (p.1.setLane (uD u) l (v.v, (y.at l).2 || mp), p.2 + v.inf + y.infs l))
    (s.setUnitSt c.t n x').unitStats c.t 0 inf) s

/-- The lanes of A that contribute to a reduction: value if it contributes, and the poison it brings (R103, R125). -/
def UnitSt.contrib (x : UnitSt) (c : UCtx) (u : Word) (isMax : Bool) (a : UnitSrc) (l : Nat) : Option Acc3 × Bool :=
  let (on, mp) := x.gov u l
  let v := (a.at l).1
  let r : Acc3 := if isMax then maxIn c.isInt v else ⟨v, 0, 0⟩
  if on then (some { r with inf := r.inf + a.infs l }, (a.at l).2 || mp) else (none, mp)

/-- HSUM, HMAX: the 16 lanes of A into one lane of D (R102, R115). -/
def State.foldOp (s : State) (c : UCtx) (u : Word) (isMax : Bool) : State :=
  c.units.foldl (fun s (k, g) =>
    let n := bkUnit k g
    let x := s.unitSt c.t n
    let (a, _, s) := s.sources c u k g x
    let l := (List.range 16).map (fun i => x.contrib c u isMax a i)
    let bad := l.any (·.2)
    let r : Acc3 :=
      if isMax then ((l.map (·.1)).foldl (joinMax c.isInt) none).getD ⟨noMax c.isInt, 0, 0⟩
      else treeSum c.isInt 4 (l.map (fun y => y.1.getD ⟨0, 0, 0⟩))
    let (dr, dl) := if uIdx u then ((uD u + c.i / 16) % 8, c.i % 16) else (uD u, uLane u)
    (s.setUnitSt c.t n (x.setLane dr dl (r.v, bad))).unitStats c.t r.sat r.inf) s

/-- The spans of R114: lists of units that are combined. -/
def spansOf (u : Word) (banks : List Bk) : List (List (Bk × Nat)) :=
  match uSpan u with
  | 4 =>
    let sorted := banks.foldl (fun acc (k : Bk) =>
      acc.takeWhile (fun (y : Bk) => decide (y.1.cg ≤ k.1.cg)) ++ k :: acc.dropWhile (fun (y : Bk) => decide (y.1.cg ≤ k.1.cg))) ([] : List Bk)
    (List.range 16).filterMap (fun d =>
      let l := (sorted.filter (fun k => k.2 == d)).flatMap (fun k => (List.range 16).map (fun g => (k, g)))
      if l.isEmpty then none else some l)
  | sp =>
    let w := 2 ^ (sp + 1)
    banks.flatMap (fun k => (List.range (16 / w)).map (fun j => (List.range w).map (fun g => (k, j * w + g))))

/-- RSUM, RMAX: along the rope over a span (R114, R115); every unit of the span receives the result. -/
def State.ropeOp (s : State) (c : UCtx) (u : Word) (isMax : Bool) : State :=
  (spansOf u c.banks).foldl (fun s span =>
    let (ins, s) := span.foldl (fun (acc : List (UnitSt × UnitSrc) × State) (k, g) =>
      let x := acc.2.unitSt c.t (bkUnit k g)
      let (a, _, s) := acc.2.sources c u k g x
      (acc.1 ++ [(x, a)], s)) (([] : List (UnitSt × UnitSrc)), s)
    let res := (List.range 16).map (fun l =>
      let cs := ins.map (fun (x, a) => x.contrib c u isMax a l)
      let r : Acc3 :=
        if isMax then (spanMax c.isInt (cs.map (·.1))).getD ⟨noMax c.isInt, 0, 0⟩
        else spanSum c.isInt (cs.map (fun y => y.1.getD ⟨0, 0, 0⟩))
      (r, cs.any (·.2)))
    let s := span.foldl (fun s (k, g) =>
      let n := bkUnit k g
      let x := forN 16 (s.unitSt c.t n) (fun x l =>
        let (r, bad) := res.getD l (⟨0, 0, 0⟩, false)
        { x.setLane (uD u) l (r.v, bad) with rope := mset 0 x.rope l (w32 r.v) })
      s.setUnitSt c.t n x) s
    s.unitStats c.t (sumL (res.map (fun r => r.1.sat))) (sumL (res.map (fun r => r.1.inf)))) s

/-- ST: A narrowed into a unit of the segment (R102, R103, R126). -/
def State.stOp (s : State) (c : UCtx) (u : Word) : State :=
  c.units.foldl (fun s (k, g) =>
    let x := s.unitSt c.t (bkUnit k g)
    let a := x.reg (uA u)
    let un := (uU u + c.i * dfld c.d 2 31 30) % 4
    let (old, bad, s) := if uMen u then s.segRead c.t k g un else ([], false, s)
    let cv := (List.range 16).map (fun l => (narrow16 c.isInt (laneAt a l).1, x.gov u l))
    let bytes := (List.range 16).flatMap (fun l =>
      match cv[l]? with
      | some (r, (true, _)) => leBytes 2 r.code
      | _ => (old.drop (2 * l)).take 2)
    let poison := bad || (List.range 16).any (fun l => let (on, mp) := x.gov u l; mp || (on && (laneAt a l).2))
    let taken := cv.filter (fun y => y.2.1)
    let key := unitKey c.t (s.bkChan c.t k) (bkB k) k.1.row (4 * g + un)
    let s := ((s.putUnit key bytes poison).wrote c.t k).modBench c.t (fun b => { b with fix := mset [] b.fix key [] })
    s.unitStats c.t (taken.countP (fun y => y.1.sat)) (sumL (taken.map (fun y => y.1.nonfin)))) s

/-- The bench queue of a tower. -/
def bnKey (t : Nat) : Nat := (10240 + t) * 8 + 4

/-- The actor of a tower's bench queue. -/
def State.bnActor (s : State) (t : Nat) : Actor := s.actor (bnKey t)

/-- OUT: the unit in segment LANE of each bank sends A (R102, R111, R127). The write of each record may be refused: the
cause by R303 of the first refusal. -/
def State.outOp (s : State) (c : UCtx) (u : Word) : State × Option Nat :=
  c.banks.foldl (fun (acc : State × Option Nat) k =>
    let s := acc.1
    let g := uLane u
    let x := s.unitSt c.t (bkUnit k g)
    let (a, _, s) := s.sources c u k g x
    let lanes := (List.range 16).map (fun l =>
      let (on, mp) := x.gov u l
      if on then ((a.at l).1, (a.at l).2 || mp) else (0, mp))
    let n := lanes.countP (·.2)
    let da := d64 c.d 4 + 64 * (s.tower c.t).bench.outN
    let who := s.bnActor c.t
    let (r, s) := s.store (who.who false) who.sub da (lanes.flatMap (fun l => (leBytes 4 l.1).map (fun b => (b, l.2))))
    let s := s.modBench c.t (fun b => { b with outN := b.outN + 1 })
    let s := if n = 0 then s else (s.bump (bsqR c.t 0xB8) n).flagErr (.bsq c.t) 18 0 1 none da 0
    (s, acc.2.or (match r with | .ok => none | .key => some 1 | .drop => some 4))) (s, none)

/-- R102: one micro-operation in every unit of the set; the cause of a refused write, if any. -/
def State.unitOp (s : State) (c : UCtx) (u : Word) : State × Option Nat :=
  let i := c.isInt
  let cp (f : Nat → FR) : State := s.laneOp c u false (fun a _ _ => f a)
  match uOp u with
  | 0x00 => (s, none)
  | 0x01 => (s.laneOp c u true (fun a b d => laneFma i a b d), none)
  | 0x02 => (s.laneOp c u false (fun a b _ => laneMul i a b), none)
  | 0x03 => (s.laneOp c u true (fun a b d => laneFma i a b d), none)
  | 0x04 => (s.laneOp c u false (fun a b _ => laneAdd i a b), none)
  | 0x05 => (s.laneOp c u false (fun a b _ => laneSub i a b), none)
  | 0x06 => (s.laneOp c u false (fun a b _ => laneMax i true a b), none)
  | 0x07 => (s.laneOp c u false (fun a b _ => laneMax i false a b), none)
  | 0x08 => (s.cmpOp c u .gt, none)
  | 0x09 => (s.cmpOp c u .ge, none)
  | 0x0A => (s.cmpOp c u .eq, none)
  | 0x0B => (s.selOp c u, none)
  | 0x0C => (cp unitExp2, none)
  | 0x0D => (cp unitLog2, none)
  | 0x0E => (s.foldOp c u false, none)
  | 0x0F => (s.foldOp c u true, none)
  | 0x10 => (s.ropeOp c u false, none)
  | 0x11 => (s.ropeOp c u true, none)
  | 0x12 => (cp (laneTake i), none)
  | 0x13 => (s.stOp c u, none)
  | 0x14 => (cp (fun _ => ⟨0, false, 0⟩), none)
  | 0x15 => s.outOp c u
  | _ => (s, none)

/-! ### Refusal of a BN descriptor (R113) -/

/-- R113: descriptors of an owner slot are discarded from now on, or no longer. -/
def Bench.discards (b : Bench) (slot : Nat) (on : Bool) : Bench :=
  { b with discard := if on then sadd b.discard slot else sdel b.discard slot }

/-- A refusal: the program ends with clearing, later descriptors up to END are discarded, the submission fails. more
names a BLK_ERR bit beside REFUSED. -/
def State.bnRefuse (s : State) (t : Nat) (d : Desc) (more : Nat) : State :=
  let k := bnKey t
  let q := s.qGet k
  let info := q.idx % 65536 * 65536 + dfld d 0 6 0
  let a := s.actor k
  let c := a.ctx?
  let s := (s.programEnd t).modBench t (fun b => { b with taken := false }.discards a.slot (!dbit d 1 22))
  let s := if more = 0 then s else s.flagErr (.bsq t) more 0 2 c q.list info
  let s := (s.flagErr (.bsq t) 21 0 2 c q.list info).ringRecord (.twr t) 21 2 c q.list info false
  s.failSub k 1 q.idx (dfld d 0 6 0)

/-- A BN descriptor at the head of the queue: of the row's KIND (0 RUN, 1 SETLOAD, 2 BLOAD): it opens the program if none is open,
and is counted (R112, R113; assumption log 41). -/
def State.bnTake (s : State) (t kind : Nat) (d : Desc) (body : State → State) : State :=
  let k := bnKey t
  let kd := dfld d 1 25 24
  if kd != 3 && kd != kind then s else
  let s := s.ensureRes (keyRes k)
  let b := (s.tower t).bench
  if b.run.isSome || (b.open_ && b.slot != (s.actor k).slot) then s
  else match s.head k 3 (fun _ => kd != 3) d with
    | .wait s => s
    | .refuse s | .bad s => s.bnRefuse t d 0
    | .run s =>
      let a := s.actor k
      if smem b.discard a.slot then s.modBench t (fun b => b.discards a.slot (!dbit d 1 22))
      else
        let s := s.modBench t (fun b =>
          let b := if b.open_ then b else { b with open_ := true, ctx := a.ctx, slot := a.slot, cmds := 0 }
          if b.taken then b else { b with cmds := b.cmds + 1 })
        let s := s.modBench t (fun b => { b with taken := false })
        if s.fld (bsqR t 0x80) 15 8 < (s.tower t).bench.cmds then s.bnRefuse t d 0 else body s

/-- A row of a BN descriptor: it waits as a whole where its accesses meet a channel that takes no request; what it leaves due
then takes effect. -/
def State.bnRow (s : State) (t kind : Nat) (d : Desc) (body : State → State) : State :=
  (s.orWait (fun s => s.bnTake t kind d body)).settleIdle

/-- [da, da + n - 1] lies in region 0 or 1 of a tower. -/
def ownMem (t da n : Nat) : Bool :=
  (inR0 da && inR0 (da + n - 1) && daTower da == t && daTower (da + n - 1) == t) || (inSram da n && daTower da == t)

/-- A BN descriptor may address [da, da + n - 1]: memory of its tower, in the ways of its class (R113, R317). -/
def State.bnMem (s : State) (t da n : Nat) : Bool := ownMem t da n && s.wayOk (s.bnActor t) da n

/-! ### SETLOAD, BLOAD (R105, R106, R110) -/

/-- TWR.BENCH_WIN.MAX_BANKS and ACT_WIN. -/
def State.maxBanks (s : State) (t : Nat) : Nat := s.fld (twrR t 0x88) 4 0
def State.actWin (s : State) (t : Nat) : Nat := s.fld (twrR t 0x88) 12 8

/-- The set that a list of 32 words names, if it obeys R105. -/
def parseSet (ws : List Word) : Option (List SetE) :=
  let n := fget (wd ws 0) 20 16
  let decks := fget (wd ws 0) 15 0
  let es := (List.range n).map (fun e => (⟨fget (wd ws (e + 1)) 30 24, fget (wd ws (e + 1)) 14 0, decks⟩ : SetE))
  let rsv := fget (wd ws 0) 31 21 == 0 && (List.range n).all (fun e => !fbit (wd ws (e + 1)) 31 && fget (wd ws (e + 1)) 23 15 == 0) &&
    (List.range 15).all (fun i => wd ws (i + 17) == 0)
  if decide (1 ≤ n) && decide (n ≤ 16) && decks != 0 && rsv && decide ((es.map (·.cg)).Nodup) then some es else none

/-- A refused store or load of an engine: the cause by R303. -/
def Acx.cause : Acx → Option Nat
  | .ok => none | .key => some 1 | .drop => some 4

/-- R110: BN_SETLOAD. -/
def execBnSetload (t : Tower) (d : Desc) (s : State) : Host.Outcome State Fault Refusal :=
  .next (s.bnRow t.val 1 d (fun s =>
    let da := d64 d 4
    let rsv := dfld d 1 23 23 == 0 && dfld d 1 21 0 == 0 && dzero d 2 3 && dzero d 6 15
    if !rsv || !s.bnMem t.val da 128 then s.bnRefuse t.val d 0
    else
      let (bs, r, s) := s.load ((s.bnActor t.val).who false) da 128
      if r != .ok || bs.any (·.2) then s.bnRefuse t.val d 0
      else match parseSet (wordsOf 32 (bs.map (·.1))) with
        | none => s.bnRefuse t.val d 20
        | some es =>
          if s.maxBanks t.val < es.length then s.bnRefuse t.val d 20
          else s.modBench t.val (fun b => { b with sets := mset [] b.sets (dfld d 1 31 26) es })))

/-- R110: BN_BLOAD. -/
def execBnBload (t : Tower) (d : Desc) (s : State) : Host.Outcome State Fault Refusal :=
  .next (s.bnRow t.val 2 d (fun s =>
    let da := d64 d 4
    let len := (dw d 6).toNat
    let boff := dfld d 2 10 0
    let rsv := dfld d 1 31 26 == 0 && dfld d 1 23 23 == 0 && dfld d 1 21 0 == 0 && dfld d 2 31 11 == 0 && dzero d 3 3 && dzero d 7 15
    if !rsv || len = 0 || len % 32 != 0 || decide (65536 < boff * 32 + len) || !s.bnMem t.val da len then s.bnRefuse t.val d 0
    else
      let (bs, r, s) := s.load ((s.bnActor t.val).who false) da len
      if r != .ok then s.bnRefuse t.val d 0
      else s.modBench t.val (fun b => { b with
        bcast := forN len b.bcast (fun m i => mset 0 m (boff * 32 + i) (bs.getD i (0, false)).1),
        bcastP := forN (len / 32) b.bcastP (fun l j =>
          if ((bs.drop (32 * j)).take 32).any (·.2) then sadd l (boff + j) else sdel l (boff + j)) })))

/-! ### RUN (R106 to R108, R111, R113, R116) -/

def runIter (d : Desc) : Nat := dfld d 1 9 0 + 1
def runOps (d : Desc) : List Word := (List.range (dfld d 1 20 18 + 1)).map (fun j => dw d (8 + j))

/-- n_ch of R102. -/
def nCh (es : List SetE) : Nat := maxL ((List.range 32).map (fun c => es.countP (fun e => e.cg % 32 == c)))

/-- tCMD of R116, ns. -/
def tCmd (actWin : Nat) (es : List SetE) (d : Desc) : Nat :=
  200 * (cdiv es.length actWin - 1) + 80 + 2 * (runIter d * sumL ((runOps d).map (uCycles (nCh es))) + 6) + 26

/-- R111: the size of the OUT records of a RUN. -/
def outSize (es : List SetE) (d : Desc) : Nat :=
  runIter d * (runOps d).countP (fun u => uOp u == 0x15) * (setBanks es).length * 64

def popcount4 (n : Nat) : Nat := ((List.range 4).filter (fun i => bitOf n i)).length

/-- R113: the fields of a RUN that are wrong whatever its set. -/
def runBad (d : Desc) : Bool :=
  let n := dfld d 1 20 18
  dfld d 1 17 10 != 0 || dfld d 2 29 27 != 0 || dfld d 2 15 11 != 0 || dfld d 7 31 15 != 0 || decide (2 < popcount4 (dfld d 7 3 0)) ||
  (runOps d).any (fun u => !uValid (dbit d 1 21) u) || (decide (n < 7) && !dzero d (9 + n) 15)

/-- A channel of the set retrains, or waits for a forced retrain (R88, R129). -/
def State.setBlocked (s : State) (t : Nat) (es : List SetE) : Bool :=
  es.any (fun e => let x := s.chan t (s.phys t (e.cg % 32)); x.attempt != 0 || x.forced)

/-- R106, R129: a set is opened for a command of the Tallyman's own programs; it waits for EFF_BANKS and for a retrain. -/
def State.opened (s : State) (t : Nat) (es : List SetE) : State :=
  if s.setBlocked t es || decide ((s.tower t).effBanks < es.length) then { s with hit := true }
  else (s.openSet t (s.actWin t) es).modBench t (fun b => { b with rows := es })

/-- A RUN that engaged banks for some ns is counted (CMD_CNT, BUSY_US). -/
def State.countRun (s : State) (t ns : Nat) : State :=
  let ns := (s.tower t).bench.busy + ns
  let s := s.bump (bsqR t 0xA0) 1
  (if ns / 1000 = 0 then s else s.bump (bsqR t 0xC0) (ns / 1000)).modBench t (fun b => { b with busy := ns % 1000 })

/-- The owner slot of the Tallyman's own bench programs: that of no submission. -/
def tallySlot : Nat := 65536

/-- The loop of a RUN; it stops at a refused write. -/
def State.runLoop (s : State) (t : Nat) (d : Desc) (banks : List Bk) : State × Option Nat :=
  forN (runIter d) (s, none) (fun (acc : State × Option Nat) i =>
    let (s, bad, _) := (runOps d).foldl (fun (p : State × Option Nat × Nat) u =>
      let (s, b) := p.1.unitOp ⟨t, d, banks, i, p.2.2⟩ u
      (s, p.2.1.or b, p.2.2 + uBcasts u)) (acc.1, acc.2, 0)
    (s.modBench t (fun b => { b with iter := i }), bad))

/-- R106, R116: BN_RUN: it is checked, waits for EFF_BANKS or a retrain, opens its set and runs its loop. -/
def execBnRun (t : Tower) (d : Desc) (s : State) : Host.Outcome State Fault Refusal :=
  let t := t.val
  .next (s.bnRow t 0 d (fun s =>
    let es := mget [] (s.tower t).bench.sets (dfld d 1 31 26)
    if runBad d || es.isEmpty || decide (s.maxBanks t < es.length) then s.bnRefuse t d 0
    else if 1500 < tCmd (s.actWin t) es d then s.bnRefuse t d 19
    else if 0 < outSize es d && (decide ((dw d 6).toNat < outSize es d) || !s.bnMem t (d64 d 4) (outSize es d)) then s.bnRefuse t d 0
    else
      -- R129: rows that a chained boundary left open close, so that a retrain can begin
      let again (s : State) : State :=
        let s := (s.closeSet t).modBench t (fun b => { b with taken := true })
        s.qSet (bnKey t) { s.qGet (bnKey t) with go := true }
      if (s.tower t).effBanks < es.length then
        again (s.modBench t (fun b => { b with wait := some (b.wait.getD s.time) }))
      else
        let s := match (s.tower t).bench.wait with
          | some w => (if (s.time - w) / 1000 = 0 then s else s.bump (thmR t 0xAC) ((s.time - w) / 1000)).modBench t (fun b => { b with wait := none })
          | none => s
        if s.setBlocked t es then again s
        else
          let banks := setBanks es
          let s := if (s.tower t).bench.rows = es then s else (s.closeSet t).openSet t (s.actWin t) es
          let s := s.modBench t (fun b => { b with run := some d, rows := es, outN := 0, paused := false })
          let (s, bad) := s.runLoop t d banks
          match bad with
          | none => s
          | some cause =>
            let q := s.qGet (bnKey t)
            s.failSub (bnKey t) cause q.idx (dfld d 0 6 0)))

/-! ### The boundary (R121, R122) -/

/-- The next descriptor of the BN queue, as its list holds it. -/
def State.nextBn (s : State) (t : Nat) : Option Desc :=
  let q := s.qGet (bnKey t)
  if q.idx + 1 < q.n then q.descs[q.idx + 1]? else none

/-- R121: the rows stay open for the next RUN. -/
def State.chains (s : State) (t : Nat) (d : Desc) : Bool :=
  let es := (s.tower t).bench.rows
  dbit d 1 23 && !dbit d 1 22 && s.bit (bsqR t 0x80) 0 &&
  !(match (s.actor (bnKey t)).sub.bind s.subAt with | some y => y.failed.isSome | none => false) &&
  (match s.nextBn t with
   | some n => dfld n 0 23 20 == 3 && dfld n 1 25 24 == 0 && dfld n 1 31 26 == dfld d 1 31 26
   | none => false) &&
  (setBanks es).all (fun k =>
    let c := s.bkChan t k
    let x := s.chan t c
    let y := s.fld (memR t c 0x84) 23 16 * 100
    decide ((x.bank (bkB k)).owed < 4) && !x.forced &&
    !x.reqs.any (fun r => (s.loc r.da).b == bkB k && decide (r.at_ + y ≤ x.now))) &&
  (match (s.tower t).repair with
   | some r => !(r.ready && es.any (fun e => s.phys t (e.cg % 32) == r.old))
   | none => true)

/-- R119, R121, R122: BN_RUN_COMPLETE: the boundary of the RUN in progress. -/
def execBnRunComplete (t : Tower) (s : State) : Host.Outcome State Fault Refusal :=
  let t := t.val
  match (s.tower t).bench.run with
  | none => .next s
  | some d =>
    let es := (s.tower t).bench.rows
    let pause := (setBanks es).any (fun k => decide (4 ≤ ((s.chan t (s.bkChan t k)).bank (bkB k)).owed))
    let chain := s.chains t d
    let s := (s.countRun t (tCmd (s.actWin t) es d)).modBench t (fun b => { b with run := none, paused := pause && !chain })
    let s := if chain then s else s.closeSet t
    let s := if pause && !chain then s.bump (bsqR t 0xA8) 1 else s
    .next (if dbit d 1 23 && !chain then s.bump (bsqR t 0xAC) 1 else s).settleIdle

end Sys2Proof.Machine
end

