-- ==== Sys2Proof/Machine/SyRows.lean ====
section
/-! DEFINITION. What every row of an engine queue shares, the SY family (R274 to R278), ST descriptors (R286) and the
timeouts of waits (R267, R277). -/

namespace Sys2Proof.Machine

/-- A descriptor at the head of queue k whose row is `code` of the codes `legal` of its family: one that names another
legal code is not that row's event and changes nothing. One that fails R266 sets MVSY_REFUSED; one that names no legal code
or fails the family's own checks `ok` sets `bit`, the family's BLK_ERR bit of the queue's page (assumption log 41). -/
def State.rowAt (s : State) (k fam op code : Nat) (legal : List Nat) (bit : Nat) (d : Desc) (ok : State → Bool)
    (body : State → State) : State :=
  if legal.contains op && op != code then s
  else
    let ok (s : State) : Bool := legal.contains op && ok s
    if k / 8 < 10240 then
      match s.head k fam ok d with
      | .wait s => s
      | .refuse s => (s.failDesc k 19 1 d).settleIdle
      | .bad s => (s.failDesc k bit 1 d).settleIdle
      | .run s => (body s).settleIdle
    else
      let t := keyTower k
      let b := (s.tower t).bench
      if b.run.isSome || (b.open_ && b.slot != (s.actor k).slot) then s
      else match s.head k fam ok d with
        | .wait s => s
        | .refuse s | .bad s => (s.bnRefuse t d 0).settleIdle
        | .run s => (body s).settleIdle

/-- The row of a descriptor: it waits as a whole where its accesses meet a channel that takes no request. -/
def State.engineRow (s : State) (k fam op code : Nat) (legal : List Nat) (bit : Nat) (d : Desc) (ok : State → Bool)
    (body : State → State) : State :=
  s.orWait (fun s => s.rowAt k fam op code legal bit d ok body)

/-- A descriptor of queue k is refused while it executes. -/
def State.refuseDesc (s : State) (k bit : Nat) (d : Desc) : State :=
  if k / 8 < 10240 then s.failDesc k bit 1 d else s.bnRefuse (keyTower k) d 0

/-- What a refused access does to the submission of the queue that made it: R389 (cause REFUSED), R272 (R1_DROP). -/
def State.accessFail (s : State) (k : Nat) (r : Acx) (d : Desc) : State :=
  match r.cause with
  | none => s
  | some c => s.failDesc k 0 c d

/-! ### SY (R274 to R278) -/

/-- R274: the fields of an SY descriptor that its OP does not use are zero, COUNT and TMO_US are not. -/
def syBad (op : Nat) (d : Desc) : Bool :=
  dbit d 1 16 || dfld d 2 31 16 != 0 || !dzero d 5 15 ||
  (op != 1 && dbit d 1 27) || (op != 3 && dfld d 1 26 22 != 0) ||
  (!(op == 2 || op == 3) && (dfld d 1 21 17 != 0 || dfld d 1 15 0 != 0)) || ((op == 2 || op == 3) && dfld d 1 15 0 == 0) ||
  (if op == 2 then dfld d 2 15 0 == 0 else dfld d 2 15 0 != 0) || (op != 4 && !dzero d 3 4)

/-- An SY row. -/
def State.syRow (s : State) (q : QueueId) (code : Nat) (d : Desc) (body : State → State) : State :=
  let k := qKey q
  s.engineRow k 5 (dfld d 1 31 28) code [1, 2, 3, 4] 19 d (fun _ => !syBad code d) body

/-- R275: FENCE. With MEM = 1 the write-combining and atomic entries of the stall's towers go to the array (assumption
log 42). It completes by DESCRIPTOR_COMPLETE. -/
def execSyFence (q : QueueId) (d : Desc) (s : State) : Host.Outcome State Fault Refusal :=
  .next (s.syRow q 1 d (fun s =>
    if dbit d 1 27 then (s.towersOf (s.actor (qKey q)).st).foldl (fun s t => s.drainTower t) s else s))

/-- R277: WAIT. -/
def execSyWait (q : QueueId) (d : Desc) (s : State) : Host.Outcome State Fault Refusal :=
  .next (s.syRow q 2 d (fun s =>
    let k := qKey q
    let t := keyTower k
    let slot := (s.actor k).slot
    let i := dfld d 1 21 17
    let n := dfld d 1 15 0
    let v := s.sem t slot i
    if n ≤ v && (s.semWaiters t slot i).isEmpty then s.setSem t slot i (v - n)
    else s.qSet k { s.qGet k with st := 2, go := true, since := s.nextPlace, at_ := s.time }))

/-- R276: POST. -/
def execSyPost (q : QueueId) (d : Desc) (s : State) : Host.Outcome State Fault Refusal :=
  .next (s.syRow q 3 d (fun s =>
    let k := qKey q
    let a := s.actor k
    let t := dfld d 1 26 22
    if !(s.towersOf a.st).contains t then s.refuseDesc k 19 d
    else
      let (s, past) := s.post t a.slot (dfld d 1 21 17) (dfld d 1 15 0)
      if past then s.failDesc k (if k / 8 < 10240 then 18 else 0) 3 d else s))

/-- R278: STAMP. -/
def execSyStamp (q : QueueId) (d : Desc) (s : State) : Host.Outcome State Fault Refusal :=
  .next (s.syRow q 4 d (fun s =>
    let k := qKey q
    let a := s.actor k
    let da := d64 d 3
    let own := match q.k with | .bn => inSram da 8 && daTower da == keyTower k | _ => ownSram q.core da 8
    if da % 8 != 0 || !(s.stallMem a.st da 8 || own) || !s.wayOk a da 8 then s.refuseDesc k 19 d
    else
      let (r, s) := s.store (a.who false) a.sub da ((leBytes 8 s.time).map (fun b => (b, false)))
      s.accessFail k r d))

/-! ### ST (R286) -/

/-- R286: an ST descriptor runs only in a list that the Tallyman builds; a host list that holds one is refused there.
What a Tallyman's one does is no part of the interface beyond running to its completion (assumption log 43). -/
def execStDescriptor (q : QueueId) (d : Desc) (s : State) : Host.Outcome State Fault Refusal :=
  let k := qKey q
  .next (s.engineRow k 6 0 0 [0] 19 d (fun s => !(s.actor k).expert) id)

/-! ### Timeouts -/

/-- R267, R277: how long a queue may wait, in ns: TMO_US of an SY WAIT, STL.QCFG.TMO_US of a word-0 wait. -/
def State.waitNs (s : State) (k : Nat) (sy : Bool) (d : Desc) : Nat :=
  1000 * (if sy then dfld d 2 15 0 else s.fld (stlR (s.actor k).st 0x108) 15 0)

/-- A wait of queue k times out: WAIT_TMO, and the submission fails; before its time nothing happens. -/
def State.waitFails (s : State) (k : Nat) (sy : Bool) : State :=
  let x := s.qGet k
  match x.cur with
  | some d =>
    if x.st == 2 && x.go == sy && decide (x.at_ + s.waitNs k sy d ≤ s.time) then
      (s.failDesc k (if k / 8 < 10240 then 17 else 0) 2 d).settleIdle
    else s
  | none => s

/-- R277: TMO_US passes before a WAIT is satisfied. -/
def execWaitTimeout (q : QueueId) (s : State) : Host.Outcome State Fault Refusal := .next (s.waitFails (qKey q) true)

/-- R267: a word-0 wait lasts longer than STL.QCFG.TMO_US. -/
def execWord0WaitTimeout (q : QueueId) (s : State) : Host.Outcome State Fault Refusal := .next (s.waitFails (qKey q) false)

end Sys2Proof.Machine
end

