-- ==== Sys2Proof/Machine/Formats.lean ====
section
/-! DEFINITION. Format descriptors in their roles (R173, R174), operand pairs (R171), vector-quantised codes (R169, R170)
and the tags of tiles (R199). -/

namespace Sys2Proof.Machine

/-! ### Fields of a format descriptor (R173) -/

def FmtC.code (f : FmtC) : Nat := fget (wd f.ws 0) 31 28
def FmtC.entry (f : FmtC) : Nat := fget (wd f.ws 0) 27 26
def FmtC.sparse (f : FmtC) : Bool := fbit (wd f.ws 0) 25
def FmtC.rescale (f : FmtC) : Bool := fbit (wd f.ws 0) 24
def FmtC.rowscale (f : FmtC) : Bool := fbit (wd f.ws 0) 23
def FmtC.cbCount (f : FmtC) : Nat := fget (wd f.ws 0) 8 0
def FmtC.defE (f : FmtC) : Int := sext 8 (fget (wd f.ws 1) 31 24)
def FmtC.sp (f : FmtC) : Nat := fget (wd f.ws 1) 10 0
def FmtC.cbBase (f : FmtC) : Nat := wd64 f.ws 2
def FmtC.chtBase (f : FmtC) : Nat := wd64 f.ws 4
def FmtC.cbiBase (f : FmtC) : Nat := wd64 f.ws 6

/-- The cached descriptor with an index below STL.FMT_CFG.COUNT. -/
def State.fmtAt (s : State) (st i : Nat) : Option FmtC :=
  if i < s.fld (stlR st 0x208) 15 0 then ((s.stall st).fmts.find? (fun x => x.1 == i)).map (·.2) else none

/-- The codebook fields fit a format: CB_COUNT, and CB_BASE zero or 16 B aligned. -/
def FmtC.cbOk (f : FmtC) : Bool :=
  match f.code with
  | 7 => decide (1 ≤ f.cbCount) && decide (f.cbCount ≤ 256) && f.cbBase % 16 == 0
  | 8 | 9 | 10 => f.cbCount == 1 && f.cbBase % 16 == 0
  | _ => f.cbCount == 0 && f.cbBase == 0

/-- ENTRY: any but the reserved code for C4, FP8 for C8, zero otherwise (R165, R174). -/
def FmtC.entryOk (f : FmtC) : Bool :=
  match f.code with
  | 7 => f.entry != 3
  | 8 => f.entry == 1 || f.entry == 2
  | _ => f.entry == 0

/-- R174: valid as a weight. -/
def FmtC.weightOk (f : FmtC) : Bool :=
  !f.bad && decide (1 ≤ f.code) && decide (f.code ≤ 8) && f.entryOk && f.cbOk && !f.rowscale && fget (wd f.ws 0) 22 9 == 0 &&
  (wd f.ws 1) == 0 && (!f.sparse || decide (3 ≤ f.code)) && (f.rescale || f.chtBase == 0) && f.chtBase % 256 == 0 &&
  (f.code == 7 || f.cbiBase == 0)

/-- R174: valid as a quantisation point. -/
def FmtC.quantOk (f : FmtC) : Bool :=
  !f.bad && [3, 4, 5, 9, 10].contains f.code && f.entry == 0 && f.cbOk && f.rowscale && !f.sparse && !f.rescale &&
  fget (wd f.ws 0) 22 9 == 0 && fget (wd f.ws 1) 23 11 == 0 && decide (-126 ≤ f.defE) && f.chtBase == 0 && f.cbiBase == 0

/-- R174: valid as a plain tensor; ENTRY says how a C4 or C8 source is read (assumption log 45). -/
def FmtC.plainOk (f : FmtC) : Bool :=
  !f.bad && decide (f.code ≤ 12) && f.entryOk && f.cbOk && !f.rowscale && !f.sparse && !f.rescale && fget (wd f.ws 0) 22 9 == 0 &&
  (wd f.ws 1) == 0 && f.chtBase == 0 && (f.code == 7 || f.cbiBase == 0)

/-- A byte of the codebook is poisoned: a search through all of it is. -/
def FmtC.cbBad (f : FmtC) : Bool := f.cb.any (·.2)

/-- The format in which the entries of a C4 or C8 codebook are read. -/
def FmtC.entryFmt (f : FmtC) : NFmt := match f.entry with | 0 => .int8 | 1 => .e4m3 | _ => .e5m2

/-- The format of a weight's values: of the entries for C4 and C8. -/
def FmtC.valFmt (f : FmtC) : NFmt :=
  if f.code = 7 || f.code = 8 then f.entryFmt else (NFmt.ofCode f.code).getD .int8

/-! ### Operand pairs (R171, R188) -/

/-- A pair's accumulator is INT32, and its rate is a quarter; none where the pair is reserved. -/
def pairOf (act w : NFmt) : Option (Bool × Bool) :=
  let eight := [NFmt.int8, .int4, .e4m3, .e5m2].contains w
  match act with
  | .int8 => if w = .int8 || w = .int4 then some (true, false) else if w = .e4m3 || w = .e5m2 then some (false, false) else none
  | .e4m3 | .e5m2 => if eight then some (false, false) else none
  | .bf16 => if eight || w = .bf16 then some (false, true) else none
  | .fp16 => if eight || w = .fp16 then some (false, true) else none
  | _ => none

/-! ### Codes -/

/-- The i-th code of w bits in packed bytes (R163), and whether its byte is poisoned. -/
def codeAt (w : Nat) (bs : List PB) (i : Nat) : Nat × Bool :=
  match w with
  | 2 => let b := bs.getD (i / 4) (0, false); ((b.1.toNat >>> (2 * (i % 4))) % 4, b.2)
  | 4 => let b := bs.getD (i / 2) (0, false); ((b.1.toNat >>> (4 * (i % 2))) % 16, b.2)
  | _ => let l := (bs.drop (i * (w / 8))).take (w / 8); (leNat (l.map (·.1)), l.any (·.2))

/-- R169: the elements of a run of VQ codes under a codebook: 2 of each 4-bit code, or 4 of each 8-bit code, each poisoned
where its code or its entry is. -/
def vqExpand (vq8 : Bool) (cb : List PB) (codes : List (Nat × Bool)) : List (Nat × Bool) :=
  codes.flatMap (fun (k, p) =>
    let n := if vq8 then 4 else 2
    (List.range n).map (fun i => let b := cb.getD (n * k + i) (0, false); (b.1.toNat, p || b.2)))

/-- R170: the code of a group of 2 or 4 scaled values: the vector with the smallest sum of squared differences, computed
in FP32; the lower of equals. -/
def vqEncode (vq8 : Bool) (cb : List PB) (xs : List FV) : Nat :=
  let n := if vq8 then 4 else 2
  let dist (k : Nat) : Nat := (List.range n).foldl (fun acc i =>
    let v := (decodeF e4m3 (cb.getD (n * k + i) (0, false)).1.toNat).1
    let d := (fvAddTo fp32 (xs.getD i (.fin false 0 0)) v.neg).1
    (fpAdd fp32 acc (fpMul fp32 d d).v).v) 0
  ((List.range (if vq8 then 256 else 16)).foldl (fun (best : Nat × Nat) k =>
    let d := dist k
    match fvCmp (decodeF fp32 d).1 (decodeF fp32 best.2).1 with
    | some .lt => (k, d)
    | _ => best) (0, dist 0)).1

/-! ### Exact sums -/

/-- The exact sum of a list of numbers: a NaN if any is one; a zero sum is minus zero only if every term is. -/
def fvSum (l : List FV) : FV :=
  if l.any FV.isNan then .nan
  else
    let d := (l.map FV.dy).foldl Dy.add ⟨0, 0⟩
    let allNeg := !l.isEmpty && l.all (fun v => match v with | .fin n _ _ => n | .nan => false)
    if d.m = 0 then .fin allNeg 0 0 else .fin (decide (d.m < 0)) d.m.natAbs d.e

/-- The value of a code in a tile: FP32, or INT32. -/
def tileFV (isInt : Bool) (x : Nat) : FV × Bool :=
  if isInt then decodeN .int32 x else decodeF fp32 x

/-! ### Tiles (R199) -/

/-- The tag of an FP32 tile; a cleared tile reads as INT32 (assumption log 44). -/
def CoreSt.isFp (c : CoreSt) (tile : Nat) : Bool := mget 0 c.tag tile == 1
def CoreSt.setFp (c : CoreSt) (tile : Nat) (fp : Bool) : CoreSt := { c with tag := mset 0 c.tag tile (b2n fp) }

def tileIx (tile row col : Nat) : Nat := tile * 1024 + row * 64 + col

/-- An element of a tile and its poison. -/
def CoreSt.elem (c : CoreSt) (tile row col : Nat) : Lane :=
  let i := tileIx tile row col
  ((mget 0 c.tile i).toNat, smem c.tileP i)

def CoreSt.setElem (c : CoreSt) (tile row col : Nat) (v : Lane) : CoreSt :=
  let i := tileIx tile row col
  { c with tile := mset 0 c.tile i (w32 v.1), tileP := if v.2 then sadd c.tileP i else sdel c.tileP i }

/-- The row tag ER, signed. -/
def CoreSt.er (c : CoreSt) (tile row : Nat) : Int := sext 8 (mget 0 c.rowE (tile * 16 + row))
def CoreSt.setEr (c : CoreSt) (tile row : Nat) (e : Int) : CoreSt :=
  { c with rowE := mset 0 c.rowE (tile * 16 + row) (trunc 8 e) }

def CoreSt.setSat (c : CoreSt) (tile : Nat) (b : Bool) : CoreSt :=
  { c with sat := setB16 c.sat tile b }

/-! ### Bounds (R213, R444) -/

/-- The CK_A floor of a stall, MHz. -/
def State.ckA (s : State) (st : Nat) : Nat := ((s.fuses.ops[s.fld (wghR (0xA0 + 4 * st)) 2 0]?).map (·.1)).getD 1200

/-- Time in units of 1 / (56544 F) ns, F the floor in MHz: cycles of CK_A, bytes at 24.32 B/ns, bytes at 23.808 B/ns, ns. -/
def tCyc (n : Nat) : Nat := n * 56544000
def tRead (f n : Nat) : Nat := n * 2325 * f
def tWrite (f n : Nat) : Nat := n * 2375 * f
def tNs (f n : Nat) : Nat := n * 56544 * f

/-- A bound lies above a limit in µs. -/
def overUs (f t us : Nat) : Bool := decide (us * 1000 * 56544 * f < t)

end Sys2Proof.Machine
end

