-- ==== Sys2Proof/Machine/Unpack.lean ====
section
/-! DEFINITION. The unpacker: the blocks of packed slots (R240 to R242), the checks of R254, damage (R255, R256). -/

namespace Sys2Proof.Machine

/-- An unpacked slot: 2,048 codes, the exponent, and whether it came from a ZERO block. -/
structure Blk where
  vals : List Lane
  e : Int
  zero : Bool

def Blk.damaged : Blk := ⟨List.replicate 2048 (0, true), 0, false⟩

/-- The fields of a block header (R241). -/
def hdrMode (h : List Word) : Nat := fget (wd h 0) 31 29
def hdrE (h : List Word) : Int := sext 8 (fget (wd h 1) 31 24)
def hdrCfmt (h : List Word) : Nat := fget (wd h 1) 23 20
def hdrLen (h : List Word) : Nat := fget (wd h 1) 6 0

/-- R254 step 2. -/
def hdrOk (h : List Word) : Bool :=
  decide (hdrMode h ≤ 4) && fget (wd h 0) 28 24 == 0 && fget (wd h 1) 19 7 == 0 && fget (wd h 2) 31 4 == 0 &&
  fget (wd h 3) 31 16 == 0 && (wd h 6) == 0 && (wd h 7) == 0 && decide (-126 ≤ hdrE h) && decide (hdrE h ≤ 127)

/-- R254 step 3. -/
def lenOk (h : List Word) : Bool :=
  match hdrMode h with
  | 0 => hdrLen h == 64
  | 1 => decide (1 ≤ hdrLen h) && decide (hdrLen h ≤ 64)
  | 2 => hdrLen h == 0
  | _ => hdrLen h == 16

/-- R251: the lengths under which an ENT block of this generation decodes in a tower; none where it is stale. -/
def State.tabFor (s : State) (t tid gen : Nat) : Option (List Byte) :=
  let x := s.tab t tid
  if x.curV && x.gen == gen then some x.cur
  else if x.prevV && (gen + 1) % 2 ^ 16 == x.gen then some x.prev else none

/-- R255, R421: a damaged block met by tower t's unpacker for a context: the failing step of R254, the slot and SCP, in the
ring of the page whose bit it sets and in the tower's error ring. -/
def State.damage (s : State) (t : Nat) (ctx : Option Nat) (step da scp : Nat) : State :=
  let bit := if step = 6 then 20 else 21
  ((s.bump (pkrR t (if step = 6 then 0xBC else 0xB8)) 1).flagErr (.pkr t) bit step 1 ctx da scp).ringRecord (.twr t)
    (256 * step + bit) 1 ctx da scp false

/-- R254 to R256: unpack the slot at a region 1 address for a command of stall st and a context on tower t whose activation format is
act; tid is the TID of the command's first ENT block. -/
def State.unpack (s : State) (st t : Nat) (ctx : Option Nat) (act : NFmt) (tid : Option Nat) (da : Nat) : Blk × Option Nat × State :=
  let hb := s.read1 da 32
  let h := wordsOf 8 (hb.map (·.1))
  let scp := wd64 h 4
  let bad (step : Nat) (tid : Option Nat) : Blk × Option Nat × State := (Blk.damaged, tid, s.damage t ctx step da scp)
  if hb.any (·.2) then bad 1 tid
  else if !hdrOk h then bad 2 tid
  else if !lenOk h then bad 3 tid
  else
    let m := hdrMode h
    let fidx := fget (wd h 3) 15 0
    let cb : Option FmtC := (s.fmtAt st fidx).filter (fun f => f.code == hdrCfmt h && !f.bad)
    let vq := m == 3 || m == 4
    let fmtOk := (NFmt.ofCode (hdrCfmt h) == some act || (act == .e4m3 && (hdrCfmt h == 9 || hdrCfmt h == 10))) &&
      (!vq || (cb.isSome && hdrCfmt h == (if m = 3 then 9 else 10)))
    if !fmtOk then bad 4 tid
    else
      let pb := s.read1 (da + 32) (32 * hdrLen h)
      match m with
      | 0 => (⟨pb.map (fun b => (b.1.toNat, b.2)), hdrE h, false⟩, tid, s)
      | 1 =>
        let x := fget (wd h 0) 23 16
        let tid' := some (tid.getD x)
        if tid' != some x then bad 5 tid'
        else match s.tabFor t x (fget (wd h 0) 15 0) with
          | none => bad 6 tid'
          | some lens =>
            if pb.any (·.2) then bad 1 tid'
            else
              let nbits := 256 * hdrLen h
              let stream := leNat (pb.map (·.1))
              match decodeEnt (codeWords lens) stream nbits 2048 0 0 [] with
              | .fails k => bad k tid'
              | .codes l bits =>
                if 256 ≤ nbits - bits then bad 10 tid'
                else if stream >>> bits != 0 then bad 11 tid'
                else (⟨l.map (fun b => (b.toNat, false)), hdrE h, false⟩, tid', s)
      | 2 => (⟨List.replicate 2048 (0, false), hdrE h, true⟩, tid, s)
      | _ =>
        let codes := (List.range (if m = 3 then 1024 else 512)).map (fun i => codeAt (if m = 3 then 4 else 8) pb i)
        -- the poison of a granule reaches its 128 values
        let vals := vqExpand (m == 4) ((cb.map (·.cb)).getD []) codes
        let vals := (List.range 2048).map (fun i =>
          let v := vals.getD i (0, false)
          (v.1, v.2 || ((pb.drop (i / 128 * 32)).take 32).any (·.2)))
        (⟨vals, hdrE h, false⟩, tid, s)

end Sys2Proof.Machine
end

