-- ==== Sys2Proof/Machine/Matrix.lean ====
section
/-! DEFINITION. The matrix engine: weight blocks (R189 to R193), the activation operand (R195 to R198), products and
accumulators (R186, R187, R203, R204), initial contents (R202), epilogue and stores (R205, R206), the checks of R210 and
the bound of R212. -/

namespace Sys2Proof.Machine

/-! ### Busy marks (R201, R238) -/

/-- The tiles that an MX or VX descriptor changes, and those it reads besides. -/
def descTiles (d : Desc) : List Nat × List Nat :=
  let run (first n : Nat) : List Nat := (List.range n).map (fun i => (first + i) % 16)
  match dfld d 0 23 20 with
  | 1 => (run (dfld d 1 3 0) (((dfld d 1 15 8 + 1 + 15) / 16) * (dfld d 1 7 4 + 1)), [])
  | 2 =>
    let op := dfld d 1 31 26
    let n := dfld d 1 11 8 + 1
    let dst := if (decide (1 ≤ op) && decide (op ≤ 7)) || (decide (0x0E ≤ op) && decide (op ≤ 0x13)) || op == 0x15 || op == 0x16
               then run (dfld d 1 3 0) n else []
    let a := if dfld d 1 25 24 == 0 && op != 0 && op != 0x0B && op != 0x0C && op != 0x0D && op != 0x13 && op != 0x1C
             then run (dfld d 2 31 28) n else []
    let b := if dfld d 1 23 22 == 0 && decide (1 ≤ op) && decide (op ≤ 0x0A) then run (dfld d 2 27 24) n else []
    (dst, a ++ b ++ (if op == 4 then run (dfld d 2 23 20) n else []))
  | _ => ([], [])

/-- Another queue of the core of queue k executes a descriptor that marks a tile d names, so d waits. -/
def State.tilesBusy (s : State) (k : Nat) (d : Desc) : Bool :=
  let c := s.core (k / 8)
  let mine := descTiles d
  [0, 1].any (fun j =>
    let q := c.queue j
    decide (j ≠ k % 8) && q.executing &&
    (match q.cur with
     | some x => (descTiles x).1.any (fun t => mine.1.contains t || mine.2.contains t)
     | none => false))

/-- A granted descriptor that must wait stays at the head of its queue. -/
def State.holdHead (s : State) (k : Nat) : State := s.qSet k { s.qGet k with go := true }

/-- A record also enters the error ring of the queue's tower (R166, R192). -/
def State.twrToo (s : State) (k bit sev : Nat) (da info : Nat) : State :=
  s.ringRecord (.twr (keyTower k)) bit sev (s.actor k).ctx? da info false

/-! ### What an MX descriptor asks for (R208) -/

/-- A command with its formats. -/
structure MxC where
  k : Nat
  core : CoreId
  d : Desc
  act : NFmt
  w : FmtC
  isInt : Bool
  quarter : Bool

def MxC.t (c : MxC) : Nat := c.core.t.val
def MxC.init (c : MxC) : Nat := dfld c.d 1 23 22
def MxC.epi (c : MxC) : Nat := dfld c.d 1 21 20
def MxC.dmap (c : MxC) : Bool := dbit c.d 1 19
def MxC.packed (c : MxC) : Bool := dbit c.d 1 18
def MxC.m (c : MxC) : Nat := dfld c.d 1 15 8 + 1
def MxC.nb (c : MxC) : Nat := dfld c.d 1 7 4 + 1
def MxC.mb (c : MxC) : Nat := (c.m + 15) / 16
def MxC.tile (c : MxC) (mb nb : Nat) : Nat := dfld c.d 1 3 0 + mb * c.nb + nb
def MxC.ks (c : MxC) : Nat := dfld c.d 3 31 16 + 1
def MxC.ke (c : MxC) : Nat := if c.w.sparse then 32 else 16
def MxC.kk (c : MxC) : Nat := c.ks * c.ke
def MxC.col0 (c : MxC) : Nat := dfld c.d 4 23 0
def MxC.wbase (c : MxC) : Nat := d64 c.d 5
def MxC.panel (c : MxC) : Nat := (dw c.d 7).toNat
def MxC.abase (c : MxC) : Nat := d64 c.d 8
def MxC.apitch (c : MxC) : Nat := (dw c.d 10).toNat
def MxC.pre (c : MxC) : Nat := dfld c.d 11 17 0
def MxC.dst (c : MxC) : Nat := d64 c.d 12
def MxC.dpitch (c : MxC) : Nat := (dw c.d 14).toNat
/-- Bits of a weight code; the code area and the block in bytes (R191). -/
def MxC.wbits (c : MxC) : Nat := ((NFmt.ofCode c.w.code).map NFmt.width).getD 8
def MxC.area (c : MxC) : Nat := 128 * c.wbits
def MxC.bb (c : MxC) : Nat := c.area + (if c.w.sparse then 256 else 0)
/-- Slots of a packed row. -/
def MxC.slots (c : MxC) : Nat := cdiv c.kk 2048

/-- The base device address of the own scratchpad. -/
def spBase (c : CoreId) : Nat := 2 ^ 42 + c.t.val * 2 ^ 37 + (16 * c.a.val + c.c.val) * 0x40000

/-- R212: the bound in the units of tCyc. -/
def MxC.bound (c : MxC) (f : Nat) : Nat :=
  let tiles := c.mb * c.nb
  let cpr := if c.quarter then 4 else 1
  let tab := match c.w.code with
    | 7 => c.nb * 64 + 16 * min c.w.cbCount (c.nb * 64)
    | 8 => 256
    | _ => 0
  let ini := match c.init with | 0 => 4 * tiles | 1 => 16 * tiles | 2 => tiles | _ => 0
  let blk := max (tCyc (c.m * cpr)) (tRead f c.bb)
  let unp := tCyc (c.m * c.ke) / 16
  let scales := c.epi == 1 || c.epi == 3
  let stores := c.epi == 2 || c.epi == 3
  -- with a row map the destination is taken to be region 0 (assumption log 49)
  let toR0 := c.dmap || inR0 c.dst
  tRead f tab + tCyc ini + (tRead f c.bb + unp) + c.ks * max (c.nb * blk) unp +
  (if scales then tRead f (256 * c.nb) + tCyc (4 * tiles) else 0) +
  (if c.dmap then tCyc c.m else 0) +
  (if stores then
    (if toR0 then tWrite f (c.m * 256 * c.nb) + tNs f 120 else tCyc (16 * tiles))
   else 0) + tCyc 48

/-- R210: the formats of a command, or none where it is refused for them or for a reserved field. -/
def State.mxFormats (s : State) (k : Nat) (core : CoreId) (d : Desc) : Option MxC :=
  let st := (s.actor k).st
  let rsv := dfld d 1 31 24 == 0 && dfld d 1 17 16 == 0 && dfld d 3 15 0 == 0 && dfld d 4 31 24 == 0 && dfld d 11 31 18 == 0
  match s.fmtAt st (dfld d 2 15 0), s.fmtAt st (dfld d 2 31 16) with
  | some a, some w =>
    let packed := dbit d 1 18
    let actOk := if packed then a.quantOk && [3, 4, 5].contains a.code else a.plainOk && [1, 2, 3, 4, 5].contains a.code
    match NFmt.ofCode a.code with
    | none => none
    | some af =>
      match pairOf af w.valFmt with
      | none => none
      | some (i, q) => if rsv && actOk && w.weightOk then some ⟨k, core, d, af, w, i, q⟩ else none
  | _, _ => none

/-- R190: the weight range lies in the interleaved region of the own tower. -/
def State.weightsHome (s : State) (c : MxC) : Bool :=
  (List.range c.nb).all (fun nb =>
    let a := c.wbase + nb * c.panel
    inR0 a && daTower a == c.t && decide (daOff a + c.ks * c.bb ≤ s.benchBase c.t))

/-- R206: where the rows of a store may lie; a poisoned row map is refused (R426). -/
def State.mxDst (s : State) (c : MxC) : Bool :=
  let n := 256 * c.nb
  if c.dmap then ownSram c.core c.dst (8 * c.m) && !(s.read1 c.dst (8 * c.m)).any (·.2)
  else
    c.dpitch % 32 == 0 && decide (n ≤ c.dpitch) && decide ((c.m - 1) * c.dpitch + n ≤ (dw c.d 15).toNat) &&
    (List.range c.m).all (fun m => s.engineMem (s.actor c.k) c.core (c.dst + m * c.dpitch) n)

/-- R210: the other checks. The channels of a C4 tensor are a free value of its format descriptor (assumption log 46). -/
def State.mxOk (s : State) (c : MxC) : Bool :=
  let a := s.actor c.k
  let x := s.core (c.k / 8)
  let tiles := c.mb * c.nb
  let rowB := if c.packed then 4096 * c.slots else c.kk * c.act.width / 8
  let own (da n : Nat) : Bool := ownSram c.core da n && s.wayOk a da n
  decide (dfld c.d 1 3 0 + tiles ≤ 16) && (c.w.code != 7 || decide (c.col0 + 64 * c.nb ≤ Config.channels c.w.ws)) && c.wbase % 32 == 0 && c.panel % 32 == 0 && s.weightsHome c &&
  (c.init != 3 || (List.range tiles).all (fun i => x.isFp (dfld c.d 1 3 0 + i) == !c.isInt)) &&
  (!c.packed || (c.apitch % 4096 == 0 && c.abase % 4096 == 0)) &&
  (List.range c.m).all (fun m => own (c.abase + m * c.apitch) rowB) &&
  (match c.init with
   | 1 => c.pre % 256 == 0 && decide (c.pre + 4096 * tiles ≤ 0x40000)
   | 2 => c.pre % 256 == 0 && decide (c.pre + 256 * c.nb ≤ 0x40000)
   | _ => true) &&
  (c.epi < 2 || s.mxDst c) &&
  !overUs (s.ckA a.st) (c.bound (s.ckA a.st)) (s.fld (aisR c.t c.core.a.val 0x100) 23 16)

/-! ### Operands -/

/-- A row of activations: its codes, ER, whether its blocks' exponents clash, and for each slot whether it was ZERO. -/
structure ARow where
  vals : List Lane
  er : Int
  clash : Bool
  zero : List Bool

/-- R195: read the activation rows; packed slots in the order in which the unpacker meets them. -/
def State.mxRows (s : State) (c : MxC) : List ARow × State :=
  if c.packed then
    let st := (s.actor c.k).st
    let (bs, _, s) := forN (c.slots * c.m) (([] : List Blk), (none : Option Nat), s)
      (fun (acc : List Blk × Option Nat × State) i =>
        let (b, tid, s) := acc.2.2.unpack st c.t (s.actor c.k).ctx? c.act acc.2.1 (c.abase + (i % c.m) * c.apitch + 4096 * (i / c.m))
        (acc.1 ++ [b], tid, s))
    ((List.range c.m).map (fun m =>
      let l := (List.range c.slots).map (fun i => bs.getD (i * c.m + m) Blk.damaged)
      let e := (l.headD Blk.damaged).e
      ⟨(l.flatMap Blk.vals).take c.kk, e, l.any (fun b => b.e != e), l.map Blk.zero⟩), s)
  else
    let w := c.act.width
    ((List.range c.m).map (fun m =>
      let bs := s.read1 (c.abase + m * c.apitch) (c.kk * w / 8)
      ⟨(List.range c.kk).map (fun i => codeAt w bs i), 0, false, []⟩), s)

/-- R198: slice kb is skipped. -/
def skipSlice (on : Bool) (ke : Nat) (rows : List ARow) (kb : Nat) : Bool :=
  on && rows.all (fun r => r.zero.getD (kb * ke / 2048) false)

/-- One weight block: the value of physical element 64k + c, whether it was infinite, and its poison; and the metadata. -/
structure WBlk where
  w : List (FV × Bool × Bool)
  meta_ : List (Nat × Bool)

/-- R193: the codebook of a column: its index, or none where R166 rejects it; a poisoned index poisons the column. -/
abbrev ColTab := Option Nat × Bool

/-- The columns of column block nb; an index that R166 rejects is recorded. -/
def State.colTabs (s : State) (c : MxC) (nb : Nat) : List ColTab × State :=
  if c.w.code = 7 then
    let a := s.actor c.k
    let (bs, s) := s.tabRead a.st 64 (c.w.cbiBase + c.col0 + 64 * nb)
    bs.foldl (fun (acc : List ColTab × State) b =>
      if b.2 then (acc.1 ++ [(none, true)], acc.2)
      else if b.1.toNat < c.w.cbCount then (acc.1 ++ [(some b.1.toNat, false)], acc.2)
      else (acc.1 ++ [(none, false)],
        (acc.2.flagErr (.ais c.t c.core.a.val) 28 0 1 a.ctx? c.w.cbiBase 0).twrToo c.k 28 1 c.w.cbiBase 0)) (([] : List ColTab), s)
  else (List.replicate 64 (some 0, false), s)

/-- R189, R191, R193: fetch a block. -/
def State.fetchBlk (s : State) (c : MxC) (tabs : List ColTab) (kb nb : Nat) : WBlk × State :=
  let (bs, s) := s.readSubN true c.bb (c.wbase + nb * c.panel + kb * c.bb)
  let vf := c.w.valFmt
  let w := (List.range 1024).map (fun i =>
    let (code, bad) := codeAt c.wbits bs i
    let e : Lane := if c.w.code = 7 || c.w.code = 8 then
        let b := c.w.cb.getD (16 * (((tabs.getD (i % 64) (some 0, false)).1).getD 0) + code) (0, false)
        (b.1.toNat, b.2)
      else (code, false)
    let (v, inf) := decodeN vf e.1
    (v, inf, bad || e.2))
  let md := bs.drop c.area
  (⟨w, if c.w.sparse then (List.range 1024).map (fun i => codeAt 2 md i) else []⟩, s)

/-- R192: the pairs of a column obey their order. -/
def WBlk.pairsOk (b : WBlk) (col : Nat) : Bool :=
  (List.range 8).all (fun g => decide ((b.meta_.getD (128 * g + col) (0, false)).1 < (b.meta_.getD (128 * g + 64 + col) (0, false)).1))

/-- The products of a row with a column of a block: R186. -/
def WBlk.products (b : WBlk) (sparse : Bool) (slice : List FV) (col : Nat) : List FV :=
  (List.range 16).map (fun k =>
    let x := if sparse then 4 * (k / 2) + (b.meta_.getD (64 * k + col) (0, false)).1 else k
    fvMul (slice.getD x (.fin false 0 0)) (b.w.getD (64 * k + col) (.fin false 0 0, false, false)).1)

/-- R187: an accumulator takes a slice: the exact sum, rounded once; the infinity that a preloaded accumulator may hold is
counted (R161). -/
def accumulate (isInt : Bool) (acc : Nat) (prods : List FV) : FR :=
  if isInt then let (v, sat) := satCode 32 ((fvSum ((tileFV true acc).1 :: prods)).dy.floor); ⟨v, sat, 0⟩
  else
    let (x, inf) := decodeF fp32 acc
    let (v, sat) := fvTo fp32 (fvSum (x :: prods))
    ⟨v, sat, b2n inf⟩

/-! ### Tiles -/

/-- R202: the starting contents of tile (mb, nb), from the bytes of the preload. -/
def initTile (x : CoreSt) (c : MxC) (s : State) (mb nb : Nat) : CoreSt :=
  let t := c.tile mb nb
  let fill (f : Nat → Nat → Lane) : CoreSt :=
    let x := forN 1024 x (fun x i => x.setElem t (i / 64) (i % 64) (f (i / 64) (i % 64)))
    let x := forN 16 x (fun x r => x.setEr t r 0)
    (x.setSat t false).setFp t (!c.isInt)
  let word (bs : List PB) (i : Nat) : Lane := codeAt 32 bs i
  match c.init with
  | 0 => fill (fun _ _ => (0, false))
  | 1 =>
    let bs := s.read1 (spBase c.core + c.pre + 4096 * (mb * c.nb + nb)) 4096
    fill (fun r j => word bs (64 * r + j))
  | 2 =>
    let bs := s.read1 (spBase c.core + c.pre + 256 * nb) 256
    fill (fun _ j => word bs j)
  | _ => x

/-- R172: an accumulator as an output value, under an optional rescale factor and an optional exponent: the code, whether
it saturated, and the infinite inputs. -/
def outValue (isInt : Bool) (acc : Nat) (rs : Option Nat) (e : Option Int) : FR :=
  let (v, i) := tileFV isInt acc
  let f := fvTo fp32 v
  let (f, i, sat) := match rs with
    | none => (f.1, b2n i, f.2)
    | some r => let m := fpMul fp32 f.1 r; (m.v, b2n i + m.inf, f.2 || m.sat)
  match e with
  | none => ⟨f, sat, i⟩
  | some e =>
    match (decodeF fp32 f).1 with
    | .nan => ⟨fp32.nan, sat, i⟩
    | .fin n m x => let (c, s2) := roundF fp32 n m (x + e); ⟨c, sat || s2, i⟩

/-- Store rows of elements: each row's address and its lanes. A refused write ends the command's submission. -/
def State.storeRows (s : State) (k : Nat) (rows : List (Nat × List Lane)) : Acx × State :=
  let a := s.actor k
  rows.foldl (fun (acc : Acx × State) r =>
    let bs := r.2.flatMap (fun l => (leBytes 4 l.1).map (fun b => (b, l.2)))
    let (x, s) := acc.2.store (a.who false) a.sub r.1 bs
    (if acc.1 == .ok then x else acc.1, s)) (.ok, s)

/-- R206: the destination of each row; a row that a bad map entry names is dropped. -/
def State.mxTargets (s : State) (c : MxC) : List (Option Nat) × State :=
  let n := 256 * c.nb
  if c.dmap then
    let a := s.actor c.k
    forN c.m (([] : List (Option Nat)), s) (fun (acc : List (Option Nat) × State) m =>
      let e := acc.2.read1 (c.dst + 8 * m) 8
      let da := leNat (e.map (·.1))
      if !e.any (·.2) && acc.2.engineMem a c.core da n then (acc.1 ++ [some da], acc.2)
      else (acc.1 ++ [none], acc.2.flagErr (.ais c.t c.core.a.val) 26 0 0 a.ctx? da m))
  else ((List.range c.m).map (fun m => some (c.dst + m * c.dpitch)), s)

/-! ### The command (R209) -/

/-- What the products of one column block leave: the accumulators by row and column, saturated elements, and the columns
that are poisoned. -/
structure NbRes where
  acc : List (List Nat)
  sat : List (List Bool)
  colP : List Bool

def NbRes.zero : NbRes := ⟨[], [], []⟩

/-- The column blocks before the first slice: the accumulators stand as the tiles do; a column without a codebook is
poisoned. -/
def MxC.begins (c : MxC) (x : CoreSt) (tabs : List (List ColTab)) : List NbRes :=
  (List.range c.nb).map (fun nb =>
    ⟨(List.range c.m).map (fun m => (List.range 64).map (fun j => (x.elem (c.tile (m / 16) nb) (m % 16) j).1)),
     List.replicate c.m (List.replicate 64 false), (tabs.getD nb []).map (fun (i, bad) => i.isNone || bad)⟩)

/-- R186, R187, R191, R192, R203, R204: block (kb, nb) is used for every row of the command. -/
def State.mxBlock (s : State) (c : MxC) (slices : List (List FV)) (tabs : List ColTab) (kb nb : Nat) (p : NbRes) :
    NbRes × State :=
  let a := s.actor c.k
  let (b, s) := s.fetchBlk c tabs kb nb
  let s := s.nonfin a.st ((b.w.filter (fun w => w.2.1)).length)
  let badMeta := (List.range 64).map (fun j => c.w.sparse && !b.pairsOk j)
  let s := if badMeta.any id then
      let da := c.wbase + nb * c.panel + kb * c.bb
      (s.flagErr (.ais c.t c.core.a.val) 27 0 1 a.ctx? da 0).twrToo c.k 27 1 da 0 else s
  let colP := (List.range 64).map (fun j => p.colP.getD j false || badMeta.getD j false ||
    (List.range 16).any (fun i => (b.w.getD (64 * i + j) (.fin false 0 0, false, false)).2.2 || (b.meta_.getD (64 * i + j) (0, false)).2))
  let cells := (List.range c.m).map (fun m =>
    let sl := ((slices.getD m []).drop (kb * c.ke)).take c.ke
    (List.range 64).map (fun j => accumulate c.isInt ((p.acc.getD m []).getD j 0) (b.products c.w.sparse sl j)))
  (⟨cells.map (fun r => r.map (·.v)),
    (List.range c.m).map (fun m => (List.range 64).map (fun j =>
      ((p.sat.getD m []).getD j false) || ((cells.getD m []).getD j ⟨0, false, 0⟩).sat)), colP⟩,
   s.nonfin a.st (sumL (cells.map (fun r => sumL (r.map (·.inf))))))

/-- R209: every K slice in order, and in it every column block; a slice whose rows all come from ZERO blocks is skipped
(R198). -/
def State.mxSlices (s : State) (c : MxC) (x : CoreSt) (rows : List ARow) (slices : List (List FV)) (tabs : List (List ColTab)) :
    List NbRes × State :=
  let on := c.packed && s.bit (aisR c.t c.core.a.val 0x100) 0
  forN c.ks (c.begins x tabs, s) (fun (p : List NbRes × State) kb =>
    if skipSlice on c.ke rows kb then p
    else forN c.nb p (fun (p : List NbRes × State) nb =>
      let (r, s) := p.2.mxBlock c slices (tabs.getD nb []) kb nb (p.1.getD nb .zero)
      (p.1.set nb r, s)))

/-- R205: scale the tiles in place, with the channel table of each column block. -/
def State.mxScale (s : State) (c : MxC) (chts : List (List PB)) (x : CoreSt) : CoreSt × State :=
  forN (c.mb * c.nb) (x, s) (fun (p : CoreSt × State) i =>
    let t := dfld c.d 1 3 0 + i
    let rs := chts.getD (i % c.nb) []
    let (x, n) := forN 1024 (p.1, 0) (fun (q : CoreSt × Nat) j =>
      let e := p.1.elem t (j / 64) (j % 64)
      let r : Option Lane := if c.w.rescale then some (codeAt 32 rs (j % 64)) else none
      let o := outValue c.isInt e.1 (r.map (·.1)) (if c.packed then some (p.1.er t (j / 64)) else none)
      (q.1.setElem t (j / 64) (j % 64) (o.v, e.2 || (r.map (·.2)).getD false), q.2 + o.inf))
    (forN 16 (x.setFp t true) (fun x r => x.setEr t r 0), p.2.nonfin (s.actor c.k).st n))

/-- R209: the tables that a command loads first: the column tables, and for a scale epilogue the channel tables. -/
def State.mxTables (s : State) (c : MxC) : List (List ColTab) × List (List PB) × State :=
  let (tabs, s) := forN c.nb (([] : List (List ColTab)), s) (fun (p : List (List ColTab) × State) nb =>
    let (t, s) := p.2.colTabs c nb
    (p.1 ++ [t], s))
  if (c.epi == 1 || c.epi == 3) && c.w.rescale then
    let (l, s) := forN c.nb (([] : List (List PB)), s) (fun (p : List (List PB) × State) nb =>
      let (t, s) := p.2.tabRead (p.2.actor c.k).st 256 (c.w.chtBase + 4 * (c.col0 + 64 * nb))
      (p.1 ++ [t], s))
    (tabs, l, s)
  else (tabs, [], s)

/-- The elements of a command's tiles that carry poison (R204). -/
def MxC.poisoned (c : MxC) (x : CoreSt) : Nat :=
  sumL ((List.range (c.mb * c.nb)).map (fun i =>
    ((List.range 1024).filter (fun j => (x.elem (dfld c.d 1 3 0 + i) (j / 64) (j % 64)).2)).length))

/-- R209: the product and its epilogue. -/
def State.mxRun (s : State) (c : MxC) : State :=
  let page := Pg.ais c.t c.core.a.val
  let ctx := (s.actor c.k).ctx?
  let st := (s.actor c.k).st
  let ck := c.k / 8
  let (tabs, chts, s) := s.mxTables c
  let x0 := s.core ck
  let x1 := forN (c.mb * c.nb) x0 (fun x i => initTile x c s (i / c.nb) (i % c.nb))
  let (rows, s) := s.mxRows c
  -- R196: clashing exponents
  let clash (m : Nat) : Bool :=
    let r := rows.getD m ⟨[], 0, false, []⟩
    r.clash || (c.packed && c.init == 3 && (List.range c.nb).any (fun nb => x0.er (c.tile (m / 16) nb) (m % 16) != r.er))
  let s := (List.range c.m).foldl (fun s m => if clash m then s.flagErr page 25 0 1 ctx (c.abase + m * c.apitch) m else s) s
  let dec := rows.map (fun r => r.vals.map (fun v => decodeN c.act v.1))
  let s := s.nonfin st (sumL (dec.map (fun r => (r.filter (·.2)).length)))
  let (res, s) := s.mxSlices c x1 rows (dec.map (fun r => r.map (·.1))) tabs
  let rowP := (List.range c.m).map (fun m => clash m || (rows.getD m ⟨[], 0, false, []⟩).vals.any (·.2))
  let x2 := forN (c.m * c.nb) x1 (fun x i =>
    let m := i / c.nb
    let nb := i % c.nb
    let t := c.tile (m / 16) nb
    let r := res.getD nb .zero
    let x := (forN 64 x (fun x j =>
      let old := x1.elem t (m % 16) j
      x.setElem t (m % 16) j ((r.acc.getD m []).getD j 0, old.2 || rowP.getD m false || r.colP.getD j false))).setEr t (m % 16)
        (rows.getD m ⟨[], 0, false, []⟩).er
    if (r.sat.getD m []).any id then x.setSat t true else x)
  let sats := sumL (res.map (fun r => sumL (r.sat.map (fun l => (l.filter id).length))))
  let s := if sats = 0 then s else (s.bump (aisR c.t c.core.a.val 0x114) sats).flagErr page 30 0 0 ctx c.wbase 0
  let skips := ((List.range c.ks).filter (fun kb =>
    skipSlice (c.packed && s.bit (aisR c.t c.core.a.val 0x100) 0) c.ke rows kb)).length
  let s := if skips = 0 then s else s.bump (aisR c.t c.core.a.val 0x120) skips
  -- the epilogue
  let (x3, s) := if c.epi == 1 || c.epi == 3 then s.mxScale c chts x2 else (x2, s)
  let pois := c.poisoned x3
  let s := if pois = 0 then s else (s.bump (aisR c.t c.core.a.val 0x118) pois).flagErr page 29 0 1 ctx c.wbase 0
  let s := s.setCore ck { x3 with q := (s.core ck).q }
  if c.epi < 2 then s
  else
    let (ts, s) := s.mxTargets c
    let out := (List.range c.m).filterMap (fun m => ((ts.getD m none).map (fun da =>
      (da, (List.range (64 * c.nb)).map (fun n => x3.elem (c.tile (m / 16) (n / 64)) (m % 16) (n % 64))))))
    let (r, s) := s.storeRows c.k out
    s.accessFail c.k r c.d

/-- R210: what the sequencer checks of an MX descriptor as it reaches the head. -/
def State.mxMay (s : State) (q : CoreId) (d : Desc) : Bool :=
  match s.mxFormats (qKey ⟨q, .mx⟩) q d with
  | some c => s.mxOk c
  | none => false

/-- R209, R210: an MX descriptor that begins at core q. -/
def State.mxStart (s : State) (q : CoreId) (d : Desc) : State :=
  let k := qKey ⟨q, .mx⟩
  match s.mxFormats k q d with
  | none => s.refuseDesc k 31 d
  | some c =>
    if s.tilesBusy k d then s.holdHead k
    else
      let who := (s.actor k).who true
      match ((List.range c.nb).map (fun nb => s.keyBad who false (c.wbase + nb * c.panel) (c.ks * c.bb))).find? (·.isSome) with
      | some (some a) => (s.keyDeny a).failDesc k 0 1 d
      | _ => (s.mxRun c).integStops

/-- R209, R210: an MX descriptor at the head of its queue. -/
def execMxCommand (q : CoreId) (d : Desc) (s : State) : Host.Outcome State Fault Refusal :=
  .next (s.engineRow (qKey ⟨q, .mx⟩) 1 0 0 [0] 31 d (fun s => s.mxMay q d) (fun s => s.mxStart q d))

end Sys2Proof.Machine
end

