-- ==== Sys2Proof/Machine/Quant.lean ====
section
/-! DEFINITION. Quantisation at a scale point: codes and clipping (R170, R176), the exponent a row needs (R175), and the
statistics that the quantiser posts (R178). -/

namespace Sys2Proof.Machine

/-- The largest magnitude of a quantisation format (R176). -/
def qMax (code : Nat) : Nat := match code with | 5 => 127 | 4 => 57344 | _ => 448

/-- R176: a scaled magnitude is clipped. -/
def qClips (code : Nat) (v : FV) : Bool :=
  match v with
  | .nan => true
  | .fin _ m e =>
    let a : Dy := ⟨m, e⟩
    match code with
    | 5 => Dy.le ⟨255, -1⟩ a
    | 4 => Dy.le ⟨61440, 0⟩ a
    | _ => Dy.lt ⟨464, 0⟩ a

/-- A number times 2^-e. -/
def fvScale (v : FV) (e : Int) : FV := match v with | .nan => .nan | .fin n m x => .fin n m (x - e)

/-- R175: the exponent that a magnitude requires of a format. -/
def needExp (code : Nat) (m : Dy) : Int :=
  match (List.range 253).find? (fun (i : Nat) => Dy.le m ⟨qMax code, (i : Int) - 126⟩) with
  | some i => (i : Int) - 126
  | none => 127

/-- The source of a quantised value: its number, whether it was an infinity, its poison; none where it takes no part. -/
abbrev QSrc := Option (FV × Bool × Bool)

/-- R170, R176: the codes of a row's values under exponent e, element by element (VQ: group by group): code, poison, and
what the conversion adds to NONFIN_CNT; a value that takes no part is quantised as 0 and its code is not used. -/
def quantCodes (f : FmtC) (e : Int) (xs : List QSrc) : List (Nat × Bool × Nat) :=
  let val (x : QSrc) : FV := match x with | some (v, _, _) => fvScale v e | none => .fin false 0 0
  let pois (x : QSrc) : Bool := match x with | some (_, _, p) => p | none => false
  let inf (x : QSrc) : Nat := match x with | some (_, i, _) => b2n i | none => 0
  match f.code with
  | 9 | 10 =>
    let n := if f.code = 10 then 4 else 2
    (List.range (xs.length / n)).map (fun g =>
      let gx := (xs.drop (n * g)).take n
      (vqEncode (f.code == 10) f.cb (gx.map val), gx.any pois || f.cbBad, sumL (gx.map inf)))
  | c =>
    let nf := (NFmt.ofCode c).getD .int8
    xs.map (fun x => let r := convTo nf (val x) (inf x == 1); (r.code, pois x, r.nonfin))

/-- R225: the conversion of a value of a row saturates; the nearest vector of R170 is no conversion. -/
def quantSat (f : FmtC) (e : Int) (xs : List QSrc) : Bool :=
  match f.code with
  | 9 | 10 => false
  | c => xs.any (fun x => match x with
      | some (v, i, _) => (convTo ((NFmt.ofCode c).getD .int8) (fvScale v e) i).sat
      | none => false)

/-- Which values of a row are clipped: in VQ, every value of a group one of whose values would clip. -/
def quantClips (f : FmtC) (e : Int) (xs : List QSrc) : List Bool :=
  let one (x : QSrc) : Bool := match x with | some (v, _, _) => qClips f.code (fvScale v e) | none => false
  match f.code with
  | 9 | 10 =>
    let n := if f.code = 10 then 4 else 2
    (List.range xs.length).map (fun i => ((xs.drop (i / n * n)).take n).any one && (xs.getD i none).isSome)
  | _ => xs.map one

/-- R178 step 1: the bucket of a row in a tile. -/
def rowBucket (f : FmtC) (e : Int) (xs : List QSrc) : Nat :=
  let vs := xs.filterMap (fun x => x.map (·.1))
  if vs.any FV.isNan then 5
  else
    let m := vs.foldl (fun (m : Dy) v => if Dy.lt m v.dy.abs then v.dy.abs else m) ⟨0, 0⟩
    let need : Int := if m.m = 0 then e - 2 else needExp f.code m
    (clampI 0 5 (need - e + 2)).toNat

/-- A posted atomic add of eight INT32 elements; an add to a key region or to a tower out of service is dropped (R387). -/
def State.postAdd (s : State) (da : Nat) (v : List Nat) : State :=
  if (s.keyAt da).isSome || (s.tower (daTower da)).oos then s
  else s.atomAdd (da / 32 * 32) .int32 (BitVec.ofNat 256 (natOfWords (v.map w32))) 0xFF

/-- A row of a tile as the quantiser takes it: its scale entry, its exponent and its values. -/
structure QRow where
  entry : Nat
  e : Int
  xs : List QSrc

/-- R178: the statistics of one tile of at most 16 rows × 64 columns. -/
def State.quantTile (s : State) (st : Nat) (f : FmtC) (rows : List QRow) : State :=
  let cal := s.reg (stlR st 0x218)
  let clips := rows.map (fun r => ((quantClips f r.e r.xs).filter id).length)
  let c := sumL clips
  let v := sumL (rows.map (fun r => (r.xs.filter (·.isSome)).length))
  let miss := fbit cal 31 && decide (fget cal 15 8 * v < c * 1024)
  let s := (List.range rows.length).foldl (fun s i =>
    match rows[i]? with
    | none => s
    | some r =>
      if !r.xs.any (·.isSome) then s
      else
        let k := rowBucket f r.e r.xs
        let n := clips.getD i 0
        -- a tile counts once in MISS of an entry
        let first := (List.range i).all (fun j => (rows[j]?.map (·.entry)) != some r.entry || clips.getD j 0 == 0)
        s.postAdd (r.entry + 32) ((List.range 8).map (fun j =>
          if j = 6 then n else if j = 7 then b2n (miss && first && decide (0 < n)) else b2n (j == k)))) s
  let s := if c = 0 then s else s.bump (stlR st 0x22C) c
  if !miss then s
  else
    let l := f.sp / s.spl st
    (s.postAdd (s.missAddr st l) ((List.range 8).map (fun j => b2n (j == f.sp % s.spl st)))).bump (stlR st 0x220) 1

/-- SCALE_E of the scale entry at an address: DEF_E where unit A is poisoned (R434). -/
def State.scaleE (s : State) (f : FmtC) (da : Nat) : Int × State :=
  let (w, bad, s) := s.readWords da 4
  (if bad then f.defE else sext 8 (fget (wd w 2) 31 24), s)

/-- A scale entry must lie in region 0 of a tower of the stall, 64 B aligned. -/
def State.entryOk (s : State) (st da : Nat) : Bool := da % 64 == 0 && s.stallMem st da 64

/-- The addresses of a row map; none where a unit of it is poisoned. -/
def State.rowMap (s : State) (who : Who) (da n : Nat) : Option (List Nat) × State :=
  let (bs, r, s) := s.load who da (8 * n)
  if r != .ok || bs.any (·.2) then (none, s)
  else (some ((List.range n).map (fun i => leNat (((bs.drop (8 * i)).take 8).map (·.1)))), s)

end Sys2Proof.Machine
end

