-- ==== Sys2Proof/Machine/VxOps.lean ====
section
/-! DEFINITION. The vector engine's operands and results: sources (R216, R217), masks (R219, R220), poison and saturation
(R224, R225), the fields each operation uses and the checks of R237, the bound of R239, and elementwise results (R221 to
R223). -/

namespace Sys2Proof.Machine

/-! ### Fields (R236) -/

/-- A VX command at its core. -/
structure VxC where
  k : Nat
  core : CoreId
  d : Desc

def VxC.op (c : VxC) : Nat := dfld c.d 1 31 26
def VxC.asrc (c : VxC) : Nat := dfld c.d 1 25 24
def VxC.bsrc (c : VxC) : Nat := dfld c.d 1 23 22
def VxC.men (c : VxC) : Bool := dbit c.d 1 21
def VxC.mz (c : VxC) : Bool := dbit c.d 1 20
def VxC.qm (c : VxC) : Nat := dfld c.d 1 19 16
def VxC.qd (c : VxC) : Nat := dfld c.d 1 15 12
def VxC.nt (c : VxC) : Nat := dfld c.d 1 11 8 + 1
def VxC.rows (c : VxC) : Nat := dfld c.d 1 7 4 + 1
def VxC.td (c : VxC) (i : Nat) : Nat := (dfld c.d 1 3 0 + i) % 16
def VxC.ta (c : VxC) (i : Nat) : Nat := (dfld c.d 2 31 28 + i) % 16
def VxC.tb (c : VxC) (i : Nat) : Nat := (dfld c.d 2 27 24 + i) % 16
def VxC.tc (c : VxC) (i : Nat) : Nat := (dfld c.d 2 23 20 + i) % 16
def VxC.fin (c : VxC) : Nat := dfld c.d 2 19 18
def VxC.kk (c : VxC) : Nat := dfld c.d 2 17 12 + 1
def VxC.cont (c : VxC) : Bool := dbit c.d 2 11
def VxC.dfmt (c : VxC) : Nat := dfld c.d 2 10 8
def VxC.useEr (c : VxC) : Bool := dbit c.d 2 7
def VxC.c0 (c : VxC) : Nat := (dw c.d 3).toNat
def VxC.c1 (c : VxC) : Nat := (dw c.d 4).toNat
def VxC.vbase (c : VxC) : Nat := d64 c.d 5
def VxC.vstep (c : VxC) : Nat := (dw c.d 7).toNat
def VxC.dst (c : VxC) : Nat := d64 c.d 8
def VxC.dpitch (c : VxC) : Nat := (dw c.d 10).toNat
def VxC.dstMax (c : VxC) : Nat := (dw c.d 11).toNat
def VxC.aux (c : VxC) : Nat := d64 c.d 12
def VxC.fidx (c : VxC) : Nat := dfld c.d 14 31 16
def VxC.n (c : VxC) : Nat := dfld c.d 14 15 0
def VxC.ibase (c : VxC) : Nat := (dw c.d 15).toNat

/-! ### Which fields an operation uses (R221, R236) -/

def inL (l : List Nat) (x : Nat) : Bool := l.contains x

/-- Two-operand elementwise operations and compares. -/
def vxTwo (op : Nat) : Bool := decide (1 ≤ op) && decide (op ≤ 0x0A)
/-- Operations that read source A as values. -/
def vxReadsA (op : Nat) : Bool := vxTwo op || inL [0x0E, 0x0F, 0x10, 0x11, 0x12, 0x14, 0x15, 0x16, 0x17, 0x18, 0x19, 0x1A, 0x1B, 0x1D] op
/-- Operations that write tiles. -/
def vxWrites (op : Nat) : Bool :=
  (decide (1 ≤ op) && decide (op ≤ 7)) || inL [0x0E, 0x0F, 0x10, 0x11, 0x12, 0x13, 0x15, 0x16] op
def vxCompare (op : Nat) : Bool := inL [8, 9, 0x0A] op
def vxLogic (op : Nat) : Bool := inL [0x0B, 0x0C, 0x0D] op
/-- The knot tree operations that rank the elements of tiles. -/
def vxRanks (op : Nat) : Bool := inL [0x19, 0x1A, 0x1B] op
def vxSums (op : Nat) : Bool := inL [0x17, 0x18] op

/-- R236: a field that the operation does not use is not zero. -/
def VxC.extra (c : VxC) : Bool :=
  let o := c.op
  let d := c.d
  let z (used : Bool) (v : Nat) : Bool := !used && v != 0
  let lg := vxLogic o
  z (vxReadsA o) c.asrc || z (vxTwo o) c.bsrc ||
  z (o != 0 && o != 0x1C && o != 7) (b2n c.men) || z (vxWrites o && o != 7 || vxCompare o || lg) (b2n c.mz) ||
  z (o != 0 && o != 0x1C) c.qm || z (vxCompare o || lg) c.qd || z (o != 0 && o != 0x1C && !lg) (dfld d 1 11 8) ||
  z (o != 0) (dfld d 1 7 4) || z (vxWrites o) (dfld d 1 3 0) || z (vxReadsA o || lg) (dfld d 2 31 28) ||
  z (vxTwo o || inL [0x0B, 0x0C] o) (dfld d 2 27 24) || z (o == 4) (dfld d 2 23 20) || z (vxSums o) c.fin ||
  z (inL [0x1A, 0x1C] o) (dfld d 2 17 12) || z (o == 0x1A) (b2n c.cont) || z (inL [0x12, 0x13, 0x14, 0x15] o) c.dfmt ||
  z (o == 0x16) (b2n c.useEr) || dfld d 2 6 0 != 0 || z (vxReadsA o && !inL [0x15, 0x16] o) c.c0 || z (vxTwo o || vxSums o) c.c1 ||
  z (vxReadsA o && o != 0x16 || o == 0x13) c.vbase || z (vxReadsA o && !inL [0x15, 0x16, 0x1D] o) c.vstep || c.vstep % 4 != 0 ||
  z (inL [0x14, 0x17, 0x18, 0x19, 0x1A, 0x1B, 0x1C, 0x1D] o) c.dst || z (inL [0x14, 0x19, 0x1A, 0x1B, 0x1C, 0x1D] o) c.dpitch ||
  z (inL [0x14, 0x17, 0x18, 0x19, 0x1A, 0x1B, 0x1C, 0x1D] o) c.dstMax ||
  z ((o == 0x1A && c.cont) || inL [0x1B, 0x1C, 0x1D] o) c.aux || z (inL [0x16, 0x1D] o) c.fidx || z (inL [0x15, 0x1C] o) c.n ||
  z (vxRanks o || o == 0x16) c.ibase

/-- The tiles that the operation reads as values. -/
def VxC.srcTiles (c : VxC) : List Nat :=
  let r := List.range c.nt
  (if vxReadsA c.op && c.asrc == 0 then r.map c.ta else []) ++ (if vxTwo c.op && c.bsrc == 0 then r.map c.tb else []) ++
  (if c.op = 4 then r.map c.tc else [])

/-- The tag under which the operation works: of its tile sources, or of its destination where it has none (R217;
assumption log 50). -/
def VxC.isInt (c : VxC) (x : CoreSt) : Bool :=
  match c.srcTiles with
  | t :: _ => !x.isFp t
  | [] => !x.isFp (c.td 0)

/-- Bytes of a stored element of STT. -/
def VxC.esize (c : VxC) : Nat := if c.dfmt = 1 || c.dfmt = 2 then 2 else 4

/-- Bytes of one row of QNT's codes. -/
def qntRow (f : Option FmtC) (nt : Nat) : Nat :=
  match f.map FmtC.code with
  | some 9 => 16 * nt
  | some 10 => 16 * nt
  | _ => 64 * nt

/-- The byte ranges that the operation stores to DST, as offset and length. -/
def VxC.outRanges (c : VxC) (f : Option FmtC) : List (Nat × Nat) :=
  let per (n : Nat) : List (Nat × Nat) := (List.range c.rows).map (fun r => (r * c.dpitch, n))
  match c.op with
  | 0x14 => per (64 * c.nt * c.esize)
  | 0x17 | 0x18 => [(0, 64)]
  | 0x19 | 0x1B => per 8
  | 0x1A | 0x1C => per (8 * c.kk)
  | 0x1D => per (qntRow f c.nt)
  | _ => []

/-- The byte ranges that the operation reads or writes at VBASE and AUX. -/
def VxC.inRanges (c : VxC) : List (Nat × Nat) :=
  let o := c.op
  let row : List (Nat × Nat) := (List.range c.nt).map (fun i => (c.vbase + i * c.vstep, 256))
  let vec (src : Nat) : List (Nat × Nat) := if src = 1 then row else if src = 2 then [(c.vbase, 64)] else []
  (if vxReadsA o then vec c.asrc else []) ++ (if vxTwo o then vec c.bsrc else []) ++
  (match o with
   | 0x13 => [(c.vbase, 4096 * c.nt)]
   | 0x15 => [(c.vbase, 4096 * c.nt * c.n)]
   | 0x1A => if c.cont then [(c.aux, 8 * c.rows)] else []
   | 0x1B => [(c.aux, 16 * c.rows)]
   | 0x1C => [(c.aux, 8 * c.n * c.rows)]
   | 0x1D => [(c.aux, 8 * c.rows), (c.vbase, 16)]
   | _ => [])

/-- R239: the bound in the units of tCyc. -/
def VxC.bound (c : VxC) (f : Nat) (fmt : Option FmtC) : Nat :=
  let o := c.op
  let shelf := decide (0x8000000 ≤ daOff c.vbase)
  let img := if shelf then 128 else 16
  let per := match o with
    | 0 => 0
    | 0x0B | 0x0C | 0x0D => 1
    | 0x0E | 0x0F | 0x10 | 0x11 | 0x1D => 8
    | 0x13 => img
    | 0x15 => img * c.n
    | 0x1A => 4 * c.kk
    | 0x1B => 24
    | _ => 4
  let cyc := if o = 0x1C then 10 + c.kk * cdiv c.n 4
    else per * c.nt + (if inL [0x17, 0x18, 0x19] o then 6 + (if vxSums o && decide (2 ≤ c.fin) then 8 else 0) else 0) +
      (if inL [0x1A, 0x1B] o then 10 else 0)
  let bytes := sumL ((c.outRanges fmt).map (·.2))
  let out := if bytes = 0 then 0
    else if inR0 c.dst then tWrite f bytes + tNs f 120
    else if 0x8000000 ≤ daOff c.dst then tCyc (cdiv bytes 32) else tCyc (cdiv bytes 256)
  tCyc cyc + (if o == 0x16 && ((fmt.map FmtC.rescale).getD false) then tRead f 4096 else 0) +
  (if o = 0x1D then tNs f 2859 else 0) + out + tCyc 20

/-- R237: the checks of a VX descriptor but for the row map of QNT. -/
def State.vxOk (s : State) (c : VxC) : Bool :=
  let o := c.op
  let a := s.actor c.k
  let x := s.core (c.k / 8)
  let i := c.isInt x
  let f := if inL [0x16, 0x1D] o then s.fmtAt a.st c.fidx else none
  let vecs := b2n (vxReadsA o && (c.asrc == 1 || c.asrc == 2)) + b2n (vxTwo o && (c.bsrc == 1 || c.bsrc == 2))
  let own (r : Nat × Nat) : Bool := ownSram c.core r.1 r.2 && s.wayOk a r.1 r.2
  let fits : Bool := (c.outRanges f).all (fun r => decide (r.1 + r.2 ≤ c.dstMax))
  !c.extra && decide (vecs ≤ 1) &&
  -- a vector source and another use of VBASE exclude each other; ACC and SCL read a tile, QNT takes no vector
  (!(inL [0x15, 0x16] o) || c.asrc == 0) && (o != 0x1D || c.asrc == 0 || c.asrc == 3) &&
  c.srcTiles.all (fun t => !x.isFp t == i) &&
  -- EXP2 to RCP and SAMPLE need FP32 tiles, and so do FIN 10b and 11b (assumption log 51)
  (!(inL [0x0E, 0x0F, 0x10, 0x11, 0x1B] o || (vxSums o && decide (2 ≤ c.fin))) || !i) &&
  (match o with
   | 0x12 | 0x13 => c.dfmt == 0 || c.dfmt == 3
   | 0x14 => decide (c.dfmt ≤ 3) && (!i || c.dfmt == 3) && c.dpitch % 32 == 0 && decide (64 * c.nt * c.esize ≤ c.dpitch) && fits
   | 0x15 => c.dfmt == (if i then 3 else 0) && decide (1 ≤ c.n) && decide (c.n ≤ 1024)
   | 0x16 => (f.map FmtC.weightOk).getD false
   | 0x19 | 0x1B => c.dpitch % 8 == 0 && decide (8 ≤ c.dpitch) && fits
   | 0x1A => fits
   | 0x1C => decide (1 ≤ c.n) && decide (c.n ≤ 1024) && fits
   | 0x1D => (f.map FmtC.quantOk).getD false &&
       (decide (((f.map FmtC.code).getD 0) < 9) || s.bit (stlR a.st 0x208) 16)
   | _ => true) &&
  c.inRanges.all own && (c.outRanges f).all (fun r => s.engineMem a c.core (c.dst + r.1) r.2) &&
  !overUs (s.ckA a.st) (c.bound (s.ckA a.st) f) (s.fld (aisR c.core.t.val c.core.a.val 0x200) 23 16)

/-! ### Sources and masks -/

/-- Element (r, c) of range tile i of a source: kind, first tile of the pairing, constant. -/
def State.vxSrc (s : State) (c : VxC) (x : CoreSt) (kind tile cst i r col : Nat) : Lane :=
  let word (da : Nat) : Lane := codeAt 32 (s.read1 da 4) 0
  match kind with
  | 0 => x.elem tile r col
  | 1 => word (c.vbase + i * c.vstep + 4 * col)
  | 2 => word (c.vbase + 4 * r)
  | _ => (cst, false)

def State.vxA (s : State) (c : VxC) (x : CoreSt) (i r col : Nat) : Lane := s.vxSrc c x c.asrc (c.ta i) c.c0 i r col
def State.vxB (s : State) (c : VxC) (x : CoreSt) (i r col : Nat) : Lane := s.vxSrc c x c.bsrc (c.tb i) c.c1 i r col

/-- Bit (r, c) of a mask and its poison (R219). -/
def CoreSt.mbit (x : CoreSt) (q r col : Nat) : Bool × Bool :=
  (bitOf (mget (BitVec.allOnes 64) x.mask (q * 16 + r)).toNat col, bitOf (mget 0 x.maskP (q * 16 + r)).toNat col)

def setB64 (w : BitVec 64) (l : Nat) (b : Bool) : BitVec 64 :=
  if b then w ||| BitVec.ofNat 64 (2 ^ l) else w &&& ~~~BitVec.ofNat 64 (2 ^ l)

def CoreSt.setMbit (x : CoreSt) (q r col : Nat) (b p : Bool) : CoreSt :=
  let k := q * 16 + r
  { x with
    mask := mset (BitVec.allOnes 64) x.mask k (setB64 (mget (BitVec.allOnes 64) x.mask k) col b),
    maskP := mset 0 x.maskP k (setB64 (mget 0 x.maskP k) col p) }

/-- How the governing mask takes an element. -/
def VxC.gov (c : VxC) (x : CoreSt) (r col : Nat) : Bool × Bool := if c.men then x.mbit c.qm r col else (true, false)

/-! ### Statistics (R161, R224, R225) -/

/-- What a command counted: poisoned results, whether a result saturated, and what it adds to NONFIN_CNT. -/
structure VxN where
  pois : Nat
  sat : Bool
  inf : Nat

def VxN.zero : VxN := ⟨0, false, 0⟩
def VxN.add (a : VxN) (p sat : Bool) (inf : Nat) : VxN := ⟨a.pois + b2n p, a.sat || sat, a.inf + inf⟩

def State.vxCount (s : State) (c : VxC) (n : VxN) : State :=
  let t := c.core.t.val
  let a := c.core.a.val
  let s := s.nonfin (s.actor c.k).st n.inf
  let ctx := (s.actor c.k).ctx?
  let s := if n.sat then (s.bump (aisR t a 0x214) 1).flagErr (.ais t a) 23 0 0 ctx c.dst 0 else s
  if n.pois = 0 then s else (s.bump (aisR t a 0x218) n.pois).flagErr (.ais t a) 22 0 1 ctx c.dst 0

/-! ### Elementwise results -/

/-- R221, R222: one result of an elementwise operation from the lanes of A, B and C. -/
abbrev VxFn := Nat → Nat → Nat → FR

/-- Run f over the tile range: D = f A B C under the mask, with poison, the tag and ER of the result (R220 to R225). -/
def State.vxElem (s : State) (c : VxC) (twoSrc : Bool) (fp : Bool) (f : VxFn) : State :=
  let ck := c.k / 8
  let (x, n) := forN c.nt (s.core ck, VxN.zero) (fun (p : CoreSt × VxN) i =>
    let x0 := p.1
    let td := c.td i
    let (x, n, sat) := forN (64 * c.rows) (x0, p.2, false) (fun (q : CoreSt × VxN × Bool) j =>
      let r := j / 64
      let col := j % 64
      let (on, mp) := c.gov x0 r col
      let old := x0.elem td r col
      if on then
        let a := s.vxA c x0 i r col
        let b := if twoSrc then s.vxB c x0 i r col else (0, false)
        let z := if c.op = 4 then x0.elem (c.tc i) r col else (0, false)
        let y := f a.1 b.1 z.1
        let p := a.2 || b.2 || z.2 || mp
        (q.1.setElem td r col (y.v, p), q.2.1.add p y.sat y.inf, q.2.2 || y.sat)
      else if c.mz then (q.1.setElem td r col (0, mp), q.2.1.add mp false 0, q.2.2)
      else (q.1.setElem td r col (old.1, old.2 || mp), q.2.1.add mp false 0, q.2.2))
    let x := if c.asrc = 0 then forN c.rows x (fun x r => x.setEr td r (x0.er (c.ta i) r)) else x
    let x := x.setFp td fp
    (if sat then x.setSat td true else x, n))
  (s.setCore ck x).vxCount c n

/-- CMPGT, CMPGE, CMPEQ: QD takes the comparison (R220, R222, R224). -/
def State.vxCmp (s : State) (c : VxC) (cmp : Cmp) : State :=
  let ck := c.k / 8
  let i := c.isInt (s.core ck)
  let (x, n) := forN (c.nt * c.rows * 64) (s.core ck, VxN.zero) (fun (p : CoreSt × VxN) j =>
    let x := p.1
    let ti := j / (64 * c.rows)
    let r := j / 64 % c.rows
    let col := j % 64
    let (on, mp) := c.gov x r col
    if on then
      let a := s.vxA c x ti r col
      let b := s.vxB c x ti r col
      let (y, inf) := laneCmp i cmp a.1 b.1
      let bad := a.2 || b.2 || mp
      (x.setMbit c.qd r col y bad, p.2.add bad false inf)
    else if c.mz then (x.setMbit c.qd r col false mp, p.2.add mp false 0)
    else
      let (ob, op) := x.mbit c.qd r col
      (x.setMbit c.qd r col ob (op || mp), p.2.add mp false 0))
  (s.setCore ck x).vxCount c n

/-- MAND, MOR, MNOT. -/
def State.vxMask (s : State) (c : VxC) (two : Bool) (f : Bool → Bool → Bool) : State :=
  let ck := c.k / 8
  let x0 := s.core ck
  let (x, n) := forN (c.rows * 64) (x0, VxN.zero) (fun (p : CoreSt × VxN) j =>
    let r := j / 64
    let col := j % 64
    let (on, mp) := c.gov x0 r col
    if on then
      let (a, ap) := x0.mbit (c.ta 0) r col
      let (b, bp) := if two then x0.mbit (c.tb 0) r col else (false, false)
      let bad := ap || bp || mp
      (p.1.setMbit c.qd r col (f a b) bad, p.2.add bad false 0)
    else if c.mz then (p.1.setMbit c.qd r col false mp, p.2.add mp false 0)
    else
      let (ob, op) := x0.mbit c.qd r col
      (p.1.setMbit c.qd r col ob (op || mp), p.2.add mp false 0))
  (s.setCore ck x).vxCount c n

/-! ### The row of a VX command -/

/-- A VX descriptor at the head of its queue, with what the operation does. -/
def State.vxRow (s : State) (q : CoreId) (code : Nat) (d : Desc) (body : VxC → State → State) : State :=
  let k := qKey ⟨q, .vx⟩
  let c : VxC := ⟨k, q, d⟩
  s.engineRow k 2 (dfld d 1 31 26) code (List.range 0x1E) 24 d (fun s => s.vxOk c) (fun s =>
    if s.tilesBusy k d then s.holdHead k else body c s)

end Sys2Proof.Machine
end

