-- ==== Sys2Proof/Machine/Vector.lean ====
section
/-! DEFINITION. The VX operations: one definition for each row (R221 to R223, R226 to R235). -/

namespace Sys2Proof.Machine

/-! ### Elementwise -/

/-- R221: NOP. -/
def execVxNop (q : CoreId) (d : Desc) (s : State) : Host.Outcome State Fault Refusal :=
  .next (s.vxRow q 0x00 d (fun _ s => s))

/-- An elementwise operation whose result has the format of its sources. -/
def State.vxSame (s : State) (c : VxC) (f : Bool → VxFn) : State :=
  let i := c.isInt (s.core (c.k / 8))
  s.vxElem c (vxTwo c.op) (!i) (f i)

/-- R221: ADD. -/
def execVxAdd (q : CoreId) (d : Desc) (s : State) : Host.Outcome State Fault Refusal :=
  .next (s.vxRow q 0x01 d (fun c s => s.vxSame c (fun i a b _ => laneAdd i a b)))

/-- R221: SUB. -/
def execVxSub (q : CoreId) (d : Desc) (s : State) : Host.Outcome State Fault Refusal :=
  .next (s.vxRow q 0x02 d (fun c s => s.vxSame c (fun i a b _ => laneSub i a b)))

/-- R221: MUL. -/
def execVxMul (q : CoreId) (d : Desc) (s : State) : Host.Outcome State Fault Refusal :=
  .next (s.vxRow q 0x03 d (fun c s => s.vxSame c (fun i a b _ => laneMul i a b)))

/-- R221: FMA, rounded once. -/
def execVxFma (q : CoreId) (d : Desc) (s : State) : Host.Outcome State Fault Refusal :=
  .next (s.vxRow q 0x04 d (fun c s => s.vxSame c (fun i a b z => laneFma i a b z)))

/-- R222: MAX. -/
def execVxMax (q : CoreId) (d : Desc) (s : State) : Host.Outcome State Fault Refusal :=
  .next (s.vxRow q 0x05 d (fun c s => s.vxSame c (fun i a b _ => laneMax i true a b)))

/-- R222: MIN. -/
def execVxMin (q : CoreId) (d : Desc) (s : State) : Host.Outcome State Fault Refusal :=
  .next (s.vxRow q 0x06 d (fun c s => s.vxSame c (fun i a b _ => laneMax i false a b)))

/-- R220, R222, R224: SEL: A where the bit of QM is 1, else B, read as R161 reads an input, with the poison of the one selected
and of the bit. -/
def State.vxSel (s : State) (c : VxC) : State :=
  let ck := c.k / 8
  let fp := !c.isInt (s.core ck)
  let (x, n) := forN c.nt (s.core ck, VxN.zero) (fun (p : CoreSt × VxN) i =>
    let x0 := p.1
    let td := c.td i
    let (x, n) := forN (64 * c.rows) (x0, p.2) (fun (y : CoreSt × VxN) j =>
      let (on, mp) := x0.mbit c.qm (j / 64) (j % 64)
      let v := if on then s.vxA c x0 i (j / 64) (j % 64) else s.vxB c x0 i (j / 64) (j % 64)
      let r := laneTake (!fp) v.1
      (y.1.setElem td (j / 64) (j % 64) (r.v, v.2 || mp), y.2.add (v.2 || mp) false r.inf))
    let x := if c.asrc = 0 then forN c.rows x (fun x r => x.setEr td r (x0.er (c.ta i) r)) else x
    (x.setFp td fp, n))
  (s.setCore ck x).vxCount c n

/-- R220, R224: SEL. -/
def execVxSel (q : CoreId) (d : Desc) (s : State) : Host.Outcome State Fault Refusal :=
  .next (s.vxRow q 0x07 d (fun c s => s.vxSel c))

/-! ### Compares and mask logic -/

/-- R222: CMPGT. -/
def execVxCmpgt (q : CoreId) (d : Desc) (s : State) : Host.Outcome State Fault Refusal :=
  .next (s.vxRow q 0x08 d (fun c s => s.vxCmp c .gt))

/-- R222: CMPGE. -/
def execVxCmpge (q : CoreId) (d : Desc) (s : State) : Host.Outcome State Fault Refusal :=
  .next (s.vxRow q 0x09 d (fun c s => s.vxCmp c .ge))

/-- R222: CMPEQ. -/
def execVxCmpeq (q : CoreId) (d : Desc) (s : State) : Host.Outcome State Fault Refusal :=
  .next (s.vxRow q 0x0A d (fun c s => s.vxCmp c .eq))

/-- R221: MAND. -/
def execVxMand (q : CoreId) (d : Desc) (s : State) : Host.Outcome State Fault Refusal :=
  .next (s.vxRow q 0x0B d (fun c s => s.vxMask c true (fun a b => a && b)))

/-- R221: MOR. -/
def execVxMor (q : CoreId) (d : Desc) (s : State) : Host.Outcome State Fault Refusal :=
  .next (s.vxRow q 0x0C d (fun c s => s.vxMask c true (fun a b => a || b)))

/-- R221: MNOT. -/
def execVxMnot (q : CoreId) (d : Desc) (s : State) : Host.Outcome State Fault Refusal :=
  .next (s.vxRow q 0x0D d (fun c s => s.vxMask c false (fun a _ => !a)))

/-! ### Functions and conversions -/

/-- R223: EXP2. -/
def execVxExp2 (q : CoreId) (d : Desc) (s : State) : Host.Outcome State Fault Refusal :=
  .next (s.vxRow q 0x0E d (fun c s => s.vxElem c false true (fun a _ _ => vxExp2 a)))

/-- R223: LOG2. -/
def execVxLog2 (q : CoreId) (d : Desc) (s : State) : Host.Outcome State Fault Refusal :=
  .next (s.vxRow q 0x0F d (fun c s => s.vxElem c false true (fun a _ _ => vxLog2 a)))

/-- R223: RSQRT. -/
def execVxRsqrt (q : CoreId) (d : Desc) (s : State) : Host.Outcome State Fault Refusal :=
  .next (s.vxRow q 0x10 d (fun c s => s.vxElem c false true (fun a _ _ => vxRsqrt a)))

/-- R223: RCP. -/
def execVxRcp (q : CoreId) (d : Desc) (s : State) : Host.Outcome State Fault Refusal :=
  .next (s.vxRow q 0x11 d (fun c s => s.vxElem c false true (fun a _ _ => vxRcp a)))

/-- R225: the destination tiles take over the SAT flags of the A tiles, before the operation adds its own. -/
def CoreSt.carrySat (x : CoreSt) (c : VxC) : CoreSt :=
  if c.asrc = 0 then forN c.nt x (fun y i => y.setSat (c.td i) (bitOf x.sat.toNat (c.ta i))) else x

/-- Convert a tile code to FP32 or INT32 (R160 to R162, R221). -/
def cvtLane (isInt toInt : Bool) (a : Nat) : FR :=
  let (v, i) := tileFV isInt a
  let r := convTo (if toInt then .int32 else .fp32) v i
  ⟨r.code, r.sat, r.nonfin⟩

/-- R221, R225: CVT. -/
def State.vxCvt (s : State) (c : VxC) : State :=
  let old := s.core (c.k / 8)
  let i := c.isInt old
  (s.setCore (c.k / 8) (old.carrySat c)).vxElem c false (c.dfmt == 0) (fun a _ _ => cvtLane i (c.dfmt == 3) a)

/-- R221, R225: CVT. -/
def execVxCvt (q : CoreId) (d : Desc) (s : State) : Host.Outcome State Fault Refusal :=
  .next (s.vxRow q 0x12 d (fun c s => s.vxCvt c))

/-- R221, R224: LDT: tile images from VBASE; ER becomes 0. -/
def State.vxLdt (s : State) (c : VxC) : State :=
  let ck := c.k / 8
  let (x, n) := forN c.nt (s.core ck, VxN.zero) (fun (p : CoreSt × VxN) i =>
    let bs := s.read1 (c.vbase + 4096 * i) 4096
    let td := c.td i
    let (x, n) := forN (64 * c.rows) p (fun (y : CoreSt × VxN) j =>
      let (on, mp) := c.gov p.1 (j / 64) (j % 64)
      let old := p.1.elem td (j / 64) (j % 64)
      if on then
        let v := codeAt 32 bs j
        (y.1.setElem td (j / 64) (j % 64) (v.1, v.2 || mp), y.2.add (v.2 || mp) false 0)
      else if c.mz then (y.1.setElem td (j / 64) (j % 64) (0, mp), y.2.add mp false 0)
      else (y.1.setElem td (j / 64) (j % 64) (old.1, old.2 || mp), y.2.add mp false 0))
    (forN c.rows (x.setFp td (c.dfmt == 0)) (fun x r => x.setEr td r 0), n))
  (s.setCore ck x).vxCount c n

/-- R221, R224: LDT. -/
def execVxLdt (q : CoreId) (d : Desc) (s : State) : Host.Outcome State Fault Refusal :=
  .next (s.vxRow q 0x13 d (fun c s => s.vxLdt c))

/-! ### Stores -/

/-- Store bytes at offsets of DST, in runs; a byte that is none is left unwritten. -/
def State.vxStore (s : State) (c : VxC) (off : Nat) (bs : List (Option PB)) : Acx × State :=
  let a := s.actor c.k
  -- cut at the bytes that are left unwritten
  let runs := (List.range bs.length).foldl (fun (acc : List (Nat × List PB)) i =>
    match bs.getD i none with
    | none => acc ++ [(i + 1, [])]
    | some b => match acc.getLast? with
      | some (o, l) => acc.dropLast ++ [(o, l ++ [b])]
      | none => [(i, [b])]) ([(0, [])] : List (Nat × List PB))
  (runs.filter (fun r => !r.2.isEmpty)).foldl (fun (acc : Acx × State) r =>
    let (x, s) := acc.2.store (a.who false) a.sub (c.dst + off + r.1) r.2
    (if acc.1 == .ok then x else acc.1, s)) (.ok, s)

/-- Store rows of bytes; a refused write ends the command's submission. -/
def State.vxStores (s : State) (c : VxC) (rows : List (Nat × List (Option PB))) : State :=
  let (r, s) := rows.foldl (fun (acc : Acx × State) r =>
    let (x, s) := acc.2.vxStore c r.1 r.2
    (if acc.1 == .ok then x else acc.1, s)) (.ok, s)
  s.accessFail c.k r c.d

/-- Little-endian bytes of a code with its poison. -/
def pbs (n : Nat) (v : Lane) : List (Option PB) := (leBytes n v.1).map (fun b => some (b, v.2))

/-- R221: STT: A in format DFMT to DST. A masked element's bytes are left unwritten; a poisoned mask bit poisons what it
lets pass (R220, R224). -/
def State.vxStt (s : State) (c : VxC) : State :=
  let x := s.core (c.k / 8)
  let i := c.isInt x
  let f : NFmt := match c.dfmt with | 0 => .fp32 | 1 => .bf16 | 2 => .fp16 | _ => .int32
  let (rows, n) := forN c.rows (([] : List (Nat × List (Option PB))), VxN.zero) (fun (p : List (Nat × List (Option PB)) × VxN) r =>
    let (bs, n) := forN (64 * c.nt) (([] : List (Option PB)), p.2) (fun (y : List (Option PB) × VxN) j =>
      let (on, mp) := c.gov x r (j % 64)
      if !on then (y.1 ++ List.replicate c.esize none, y.2)
      else
        let a := s.vxA c x (j / 64) r (j % 64)
        let (v, inf) := tileFV i a.1
        let o := if i then (⟨a.1, false, 0⟩ : Conv) else convTo f v inf
        (y.1 ++ pbs c.esize (o.code, a.2 || mp), y.2.add (a.2 || mp) o.sat o.nonfin))
    (p.1 ++ [(r * c.dpitch, bs)], n))
  (s.vxCount c n).vxStores c rows

/-- R221: STT. -/
def execVxStt (q : CoreId) (d : Desc) (s : State) : Host.Outcome State Fault Refusal :=
  .next (s.vxRow q 0x14 d (fun c s => s.vxStt c))

/-- R233: ACC: A plus N images, in image order. -/
def State.vxAcc (s : State) (c : VxC) : State :=
  let ck := c.k / 8
  let i := c.isInt (s.core ck)
  let (x, n) := forN c.nt (s.core ck, VxN.zero) (fun (p : CoreSt × VxN) ti =>
    let td := c.td ti
    let (x, n, sat) := forN (64 * c.rows) (p.1, p.2, false) (fun (y : CoreSt × VxN × Bool) j =>
      let (on, mp) := c.gov p.1 (j / 64) (j % 64)
      let old := p.1.elem td (j / 64) (j % 64)
      if on then
        let a := p.1.elem (c.ta ti) (j / 64) (j % 64)
        let (v, bad, st, inf) := forN c.n (a.1, a.2, false, 0) (fun (z : Nat × Bool × Bool × Nat) m =>
          let w := codeAt 32 (s.read1 (c.vbase + 4096 * (m * c.nt + ti) + 4 * j) 4) 0
          let r := laneAdd i z.1 w.1
          (r.v, z.2.1 || w.2, z.2.2.1 || r.sat, z.2.2.2 + r.inf))
        (y.1.setElem td (j / 64) (j % 64) (v, bad || mp), y.2.1.add (bad || mp) st inf, y.2.2 || st)
      else if c.mz then (y.1.setElem td (j / 64) (j % 64) (0, mp), y.2.1.add mp false 0, y.2.2)
      else (y.1.setElem td (j / 64) (j % 64) (old.1, old.2 || mp), y.2.1.add mp false 0, y.2.2))
    let x := (forN c.rows x (fun x r => x.setEr td r (p.1.er (c.ta ti) r))).setFp td (!i)
    (if sat then x.setSat td true else x, n))
  (s.setCore ck x).vxCount c n

/-- R233: ACC. -/
def execVxAcc (q : CoreId) (d : Desc) (s : State) : Host.Outcome State Fault Refusal :=
  .next (s.vxRow q 0x15 d (fun c s => s.vxAcc c))

/-- R234: SCL: the output of R172 from A; ER becomes 0 and the tag FP32. -/
def State.vxScl (s : State) (c : VxC) : State :=
  let ck := c.k / 8
  let st := (s.actor c.k).st
  let i := c.isInt (s.core ck)
  let f := s.fmtAt st c.fidx
  let resc := (f.map FmtC.rescale).getD false
  let (rs, s) := if resc then s.tabRead st (256 * c.nt) ((f.map FmtC.chtBase).getD 0 + 4 * c.ibase) else ([], s)
  let (x, n) := forN c.nt ((s.core ck).carrySat c, VxN.zero) (fun (p : CoreSt × VxN) ti =>
    let td := c.td ti
    let (x, n, sat) := forN (64 * c.rows) (p.1, p.2, false) (fun (y : CoreSt × VxN × Bool) j =>
      let (on, mp) := c.gov p.1 (j / 64) (j % 64)
      let o := p.1.elem td (j / 64) (j % 64)
      if on then
        let a := p.1.elem (c.ta ti) (j / 64) (j % 64)
        let r : Option Lane := if resc then some (codeAt 32 rs (64 * ti + j % 64)) else none
        let v := outValue i a.1 (r.map (·.1)) (if c.useEr then some (p.1.er (c.ta ti) (j / 64)) else none)
        let bad := a.2 || (r.map (·.2)).getD false || mp
        (y.1.setElem td (j / 64) (j % 64) (v.v, bad), y.2.1.add bad v.sat v.inf, y.2.2 || v.sat)
      else if c.mz then (y.1.setElem td (j / 64) (j % 64) (0, mp), y.2.1.add mp false 0, y.2.2)
      else (y.1.setElem td (j / 64) (j % 64) (o.1, o.2 || mp), y.2.1.add mp false 0, y.2.2))
    let x := (forN c.rows x (fun x r => x.setEr td r 0)).setFp td true
    (if sat then x.setSat td true else x, n))
  ((s.setCore ck x).vxCount c n).integStops

/-- R234: SCL. -/
def execVxScl (q : CoreId) (d : Desc) (s : State) : Host.Outcome State Fault Refusal :=
  .next (s.vxRow q 0x16 d (fun c s => s.vxScl c))

/-! ### Sums and maxima (R226) -/

/-- The contributing elements of row r of range tile i: value if it contributes, and the poison it brings. -/
def State.vxContrib (s : State) (c : VxC) (x : CoreSt) (i r : Nat) : List (Option Nat × Bool) :=
  (List.range 64).map (fun col =>
    let (on, mp) := c.gov x r col
    let a := s.vxA c x i r col
    if on && decide (r < c.rows) then (some a.1, a.2 || mp) else (none, decide (r < c.rows) && mp))

/-- FIN (R226): each of its operations rounds (assumption log 52). -/
def vxFin (isInt : Bool) (fin c0 c1 : Nat) (a : Acc3) : Acc3 :=
  let mul (a : Acc3) : Acc3 := let m := laneMul isInt a.v c0; ⟨m.v, a.sat + b2n m.sat, a.inf + m.inf⟩
  match fin with
  | 0 => a
  | 1 => mul a
  | 2 =>
    let m := mul a
    let p := fpAdd fp32 m.v c1
    let r := vxRsqrt p.v
    ⟨r.v, m.sat + b2n p.sat + b2n r.sat, m.inf + p.inf + r.inf⟩
  | _ => let m := mul a; let r := vxRcp m.v; ⟨r.v, m.sat + b2n r.sat, m.inf + r.inf⟩

/-- RSUM and RMAX: the 16 results as a column vector at DST. -/
def State.vxReduce (s : State) (c : VxC) (isMax : Bool) : State :=
  let x := s.core (c.k / 8)
  let i := c.isInt x
  let res := (List.range 16).map (fun r =>
    let tiles := (List.range c.nt).map (fun ti => s.vxContrib c x ti r)
    let bad := tiles.any (fun l => l.any (·.2))
    let v : Acc3 :=
      if isMax then ((tiles.map (fun l => (l.map (fun y => y.1.map (maxIn i))).foldl (joinMax i) none)).foldl
        (joinMax i) none).getD ⟨noMax i, 0, 0⟩
      else match tiles.map (fun l => treeSum i 6 (l.map (fun y => (⟨y.1.getD 0, 0, 0⟩ : Acc3)))) with
        | [] => ⟨0, 0, 0⟩
        | t :: ts => ts.foldl (joinSum i) t
    (vxFin i c.fin c.c0 c.c1 v, bad))
  let n := res.foldl (fun (n : VxN) (v, bad) => n.add bad (decide (0 < v.sat)) v.inf) VxN.zero
  (s.vxCount c n).vxStores c [(0, res.flatMap (fun (v, bad) => pbs 4 (v.v, bad)))]

/-- R226: RSUM. -/
def execVxRsum (q : CoreId) (d : Desc) (s : State) : Host.Outcome State Fault Refusal :=
  .next (s.vxRow q 0x17 d (fun c s => s.vxReduce c false))

/-- R226: RMAX. -/
def execVxRmax (q : CoreId) (d : Desc) (s : State) : Host.Outcome State Fault Refusal :=
  .next (s.vxRow q 0x18 d (fun c s => s.vxReduce c true))

/-! ### Rankings (R227 to R230) -/

/-- A candidate: value code and index. -/
abbrev Cand := Nat × Nat

/-- R227: a ranks before b. -/
def ranksBefore (isInt : Bool) (a b : Cand) : Bool :=
  let va := (tileFV isInt a.1).1
  let vb := (tileFV isInt b.1).1
  match va.isNan, vb.isNan with
  | false, true => true
  | true, false => false
  | true, true => decide (a.2 < b.2)
  | false, false =>
    match fvCmp va vb with
    | some .gt => true
    | some .eq => decide (a.2 < b.2)
    | _ => false

/-- Insert in rank order. -/
def rankIns (isInt : Bool) (a : Cand) : List Cand → List Cand
  | [] => [a]
  | b :: t => if ranksBefore isInt a b then a :: b :: t else b :: rankIns isInt a t

/-- The first k in rank order, filled with missing records (R228). -/
def rankTop (isInt : Bool) (k : Nat) (l : List Cand) : List Cand :=
  let r := (l.foldl (fun acc a => rankIns isInt a acc) []).take k
  r ++ List.replicate (k - r.length) (noMax isInt, 0x7FFFFFFF)

/-- What a ranking adds to NONFIN_CNT: its NaNs and the infinities it reads. -/
def rankInf (isInt : Bool) (l : List Cand) : Nat :=
  sumL (l.map (fun a => let (v, i) := tileFV isInt a.1; b2n v.isNan + b2n i))

/-- The bytes of records with a common poison (R228). -/
def recBytes (l : List Cand) (bad : Bool) : List (Option PB) :=
  l.flatMap (fun a => (leBytes 4 a.1 ++ leBytes 4 (a.2 % 2 ^ 31 + b2n bad * 2 ^ 31)).map (fun b => some (b, bad)))

/-- The contributing elements of a row with their indices, and the row's poison. -/
def State.vxRowCands (s : State) (c : VxC) (x : CoreSt) (r : Nat) : List Cand × Bool :=
  let l := (List.range c.nt).flatMap (fun i =>
    let e := s.vxContrib c x i r
    (List.range 64).map (fun col => (e.getD col (none, false), (c.ibase + 64 * i + col) % 2 ^ 31)))
  (l.filterMap (fun ((v, _), ix) => v.map (fun v => (v, ix))), l.any (fun y => y.1.2))

/-- Write k records per row, from each row's candidates and poison. -/
def State.vxRank (s : State) (c : VxC) (isInt : Bool) (k : Nat) (rows : List (List Cand × Bool)) : State :=
  let n := rows.foldl (fun (n : VxN) (l, bad) => { n with pois := n.pois + (if bad then k else 0), inf := n.inf + rankInf isInt l }) VxN.zero
  (s.vxCount c n).vxStores c ((List.range rows.length).map (fun r =>
    let y := rows.getD r ([], false)
    (r * c.dpitch, recBytes (rankTop isInt k y.1) y.2)))

/-- R227, R228: RARGMAX. -/
def State.vxRargmax (s : State) (c : VxC) : State :=
  let x := s.core (c.k / 8)
  s.vxRank c (c.isInt x) 1 ((List.range c.rows).map (fun r => s.vxRowCands c x r))

/-- R227, R228: RARGMAX. -/
def execVxRargmax (q : CoreId) (d : Desc) (s : State) : Host.Outcome State Fault Refusal :=
  .next (s.vxRow q 0x19 d (fun c s => s.vxRargmax c))

/-- A candidate record in memory: value, index, and its poison (the POISON bit or a mark). -/
def candAt (bs : List PB) (i : Nat) : Cand × Bool :=
  let v := codeAt 32 bs (2 * i)
  let w := codeAt 32 bs (2 * i + 1)
  ((v.1, w.1 % 2 ^ 31), bitOf w.1 31 || v.2 || w.2)

/-- R229: TOPK, after a floor where CONT is set. -/
def State.vxTopk (s : State) (c : VxC) : State :=
  let x := s.core (c.k / 8)
  let i := c.isInt x
  s.vxRank c i c.kk ((List.range c.rows).map (fun r =>
    let (l, bad) := s.vxRowCands c x r
    if c.cont then
      let (fl, fb) := candAt (s.read1 (c.aux + 8 * r) 8) 0
      (l.filter (fun a => ranksBefore i fl a), bad || fb)
    else (l, bad)))

/-- R229: TOPK. -/
def execVxTopk (q : CoreId) (d : Desc) (s : State) : Host.Outcome State Fault Refusal :=
  .next (s.vxRow q 0x1A d (fun c s => s.vxTopk c))

/-- R231: the score of an element: its code, and whether a step saturated. Each step rounds; the logarithm of u is taken of
the exact u (assumption log 53). -/
def sampleScore (seed invt ctr z ix : Nat) : FR :=
  if invt % fp32.signW = 0 then ⟨z, false, 0⟩
  else
    let h := (philox (seed % 2 ^ 32) (seed >>> 32) ctr ix 0 0).1
    let m := 2 * (h >>> 8) + 1
    let ln2 := 0x3F317218
    let flip (v : Nat) : Nat := v ^^^ fp32.signW
    let l1 := flip (fpMul fp32 (log2Of (roundMag fp32 m (-25)).1 m (-25)).1 ln2).v
    let g := flip (fpMul fp32 (vxLog2 l1).v ln2).v
    let p := fpMul fp32 z invt
    let r := fpAdd fp32 p.v g
    ⟨r.v, p.sat || r.sat, p.inf + r.inf⟩

/-- R231: SAMPLE. -/
def State.vxSample (s : State) (c : VxC) : State :=
  let x := s.core (c.k / 8)
  let rows := (List.range c.rows).map (fun r =>
    let ps := s.read1 (c.aux + 16 * r) 16
    let w (i : Nat) : Nat := (codeAt 32 ps i).1
    let (l, bad) := s.vxRowCands c x r
    let sc : List (FR × Nat) := l.map (fun (a : Cand) => (sampleScore (w 0 + 2 ^ 32 * w 1) (w 2) (w 3) a.1 a.2, a.2))
    (sc.map (fun (y : FR × Nat) => ((y.1.v, y.2) : Cand)), bad || ps.any (·.2), sc.any (fun (y : FR × Nat) => y.1.sat), sumL (sc.map (fun (y : FR × Nat) => y.1.inf))))
  let s := s.bump (aisR c.core.t.val c.core.a.val 0x21C) c.rows
  let s := s.vxCount c ⟨0, rows.any (fun y => y.2.2.1), sumL (rows.map (fun y => y.2.2.2))⟩
  s.vxRank c false 1 (rows.map (fun y => (y.1, y.2.1)))

/-- R231: SAMPLE. -/
def execVxSample (q : CoreId) (d : Desc) (s : State) : Host.Outcome State Fault Refusal :=
  .next (s.vxRow q 0x1B d (fun c s => s.vxSample c))

/-- R230: MERGE; the values of its records are ranked as FP32 (assumption log 54). -/
def State.vxMerge (s : State) (c : VxC) : State :=
  s.vxRank c false c.kk ((List.range c.rows).map (fun r =>
    let bs := s.read1 (c.aux + 8 * c.n * r) (8 * c.n)
    let l := (List.range c.n).map (candAt bs)
    (l.map (·.1), l.any (·.2))))

/-- R230: MERGE. -/
def execVxMerge (q : CoreId) (d : Desc) (s : State) : Host.Outcome State Fault Refusal :=
  .next (s.vxRow q 0x1C d (fun c s => s.vxMerge c))

/-! ### QNT (R235) -/

/-- R235: QNT: the rows of A at a scale point. -/
def State.vxQnt (s : State) (c : VxC) : State :=
  let a := s.actor c.k
  match s.rowMap (a.who false) c.aux c.rows, s.fmtAt a.st c.fidx with
  | (none, _), _ | _, none => s.refuseDesc c.k 24 c.d
  | (some es, _), some f =>
    if es.any (fun e => !s.entryOk a.st e) then s.refuseDesc c.k 24 c.d
    else
      let ck := c.k / 8
      let x := s.core ck
      let i := c.isInt x
      let (exps, s) := es.foldl (fun (p : List Int × State) e =>
        let (v, s) := p.2.scaleE f e
        (p.1 ++ [v], s)) (([] : List Int), s)
      let src (ti r col : Nat) : QSrc :=
        let (on, mp) := c.gov x r col
        if on then
          let v := s.vxA c x ti r col
          let (y, inf) := tileFV i v.1
          some (y, inf, v.2 || mp)
        else none
      let row (ti r : Nat) : List QSrc := (List.range 64).map (fun col => src ti r col)
      let s0 := s
      let s := forN c.nt s (fun s ti => s.quantTile a.st f ((List.range c.rows).map (fun r =>
        ⟨es.getD r 0, exps.getD r 0, row ti r⟩)))
      let per := if f.code = 10 then 4 else if f.code = 9 then 2 else 1
      let out := (List.range c.rows).map (fun r =>
        let xs := (List.range c.nt).flatMap (fun ti => row ti r)
        (xs, quantCodes f (exps.getD r 0) xs, quantSat f (exps.getD r 0) xs))
      let n := out.foldl (fun (n : VxN) y => y.2.1.foldl (fun n v => n.add v.2.1 y.2.2 v.2.2) n) VxN.zero
      let rows := (List.range c.rows).map (fun r =>
        let y := out.getD r ([], [], false)
        let y := (y.1, y.2.1)
        let keep (j : Nat) : Bool := ((y.1.drop (per * j)).take per).any (·.isSome)
        let bs : List (Option PB) :=
          if f.code = 9 then (List.range (y.2.length / 2)).map (fun j =>
            let lo := y.2.getD (2 * j) (0, false, 0); let hi := y.2.getD (2 * j + 1) (0, false, 0)
            if keep (2 * j) || keep (2 * j + 1) then some (BitVec.ofNat 8 (lo.1 + 16 * hi.1), lo.2.1 || hi.2.1) else none)
          else (List.range y.2.length).map (fun j =>
            let v := y.2.getD j (0, false, 0)
            if keep j then some (BitVec.ofNat 8 v.1, v.2.1) else none)
        (r * c.dpitch, bs))
      -- the exponents of rows that take no part are not stated: free bytes
      let (eb, s) := forN 16 (([] : List PB), s) (fun (p : List PB × State) r =>
        if r < c.rows then (p.1 ++ [(BitVec.ofNat 8 (trunc 8 (exps.getD r 0)), false)], p.2)
        else let (v, s) := p.2.draw 256; (p.1 ++ [(BitVec.ofNat 8 v, false)], s))
      let x := if c.asrc = 0 then
          forN (c.nt * c.rows) (s0.core ck) (fun x j => x.setEr (c.ta (j / c.rows)) (j % c.rows) (exps.getD (j % c.rows) 0))
        else s0.core ck
      let s := s.setCore ck x
      let (r, s) := s.store (a.who false) a.sub c.vbase eb
      let s := s.accessFail c.k r c.d
      (s.vxCount c n).vxStores c rows

/-- R235: QNT. -/
def execVxQnt (q : CoreId) (d : Desc) (s : State) : Host.Outcome State Fault Refusal :=
  .next (s.vxRow q 0x1D d (fun c s => s.vxQnt c))

end Sys2Proof.Machine
end

