-- ==== Sys2Proof/Machine/MvRows.lean ====
section
/-! DEFINITION. The mover: MV COPY, CONVERT, FILL, ATOMIC, HOSTRD and HOSTWR (R281 to R284). -/

namespace Sys2Proof.Machine

/-- An MV command at its core. -/
structure MvC where
  k : Nat
  core : CoreId
  d : Desc

def MvC.smap (c : MvC) : Bool := dbit c.d 1 27
def MvC.dmap (c : MvC) : Bool := dbit c.d 1 26
def MvC.rows (c : MvC) : Nat := dfld c.d 1 23 16 + 1
def MvC.src (c : MvC) : Nat := d64 c.d 3
def MvC.spitch (c : MvC) : Nat := (dw c.d 5).toNat
def MvC.dst (c : MvC) : Nat := d64 c.d 6
def MvC.dpitch (c : MvC) : Nat := (dw c.d 8).toNat
def MvC.len (c : MvC) : Nat := dfld c.d 9 23 0
def MvC.dstMax (c : MvC) : Nat := (dw c.d 10).toNat
/-- R283: a COPY of rows of 32 B by a source row map. -/
def MvC.gather (c : MvC) : Bool := dfld c.d 1 31 28 == 1 && c.smap && c.len == 32

/-- Load for a mover: a unit of weights that a mirror entry covers is substituted for the Tallyman's descriptors (R428). -/
def State.mvLoad (s : State) (a : Actor) (da n : Nat) : List PB × Acx × State :=
  if a.expert || daRegion da == 1 then s.load (a.who false) da n
  else
    match s.keyBad (a.who false) false da n with
    | some k => (List.replicate n (0, true), .key, s.keyDeny k)
    | none =>
      let (bs, s) := forN ((da % 32 + n + 31) / 32) (([] : List PB), s) (fun (p : List PB × State) i =>
        let u := da / 32 * 32 + 32 * i
        let (d, bad, s) :=
          if (p.2.copyOf u).isSome then p.2.readSub true u
          else if (p.2.tower (daTower u)).oos then (List.replicate 32 0, true, p.2)
          else p.2.readUnit u
        (p.1 ++ d.map (fun b => (b, bad)), s))
      ((bs.drop (da % 32)).take n, .ok, s)

/-- The row addresses of one side: a pitch from the first row, or a row map; none where the map cannot be used. -/
def State.mvSide (s : State) (c : MvC) (map : Bool) (base pitch : Nat) : Option (List Nat) × State :=
  if !map then (some ((List.range c.rows).map (fun r => base + r * pitch)), s)
  else if s.engineMem (s.actor c.k) c.core base (8 * c.rows) then s.rowMap ((s.actor c.k).who false) base c.rows
  else (none, s)

/-- Every row of n bytes at these addresses may be named. -/
def State.mvMay (s : State) (c : MvC) (l : List Nat) (n : Nat) : Bool :=
  l.all (fun da => s.engineMem (s.actor c.k) c.core da n)

/-- R281: the fields that every kind must obey. -/
def MvC.ok (c : MvC) : Bool := dfld c.d 9 31 24 == 0 && dzero c.d 12 15 && decide (1 ≤ c.len)

/-- An MV row other than PACK. -/
def State.mvRow (s : State) (q : CoreId) (code : Nat) (d : Desc) (body : MvC → State → State) : State :=
  let k := qKey ⟨q, .mv⟩
  let c : MvC := ⟨k, q, d⟩
  s.engineRow k 4 (dfld d 1 31 28) code [1, 2, 3, 4, 5, 6, 8] 19 d (fun _ => c.ok) (body c)

/-- R74, R283: a row of 32 B of a gather, read by the narrow path: two command slots, the row closed after the beat. -/
def State.narrowLoad (s : State) (a : Actor) (da : Nat) : List PB × Acx × State :=
  let (bs, x, s) := s.mvLoad a da 32
  if s.hit then (bs, x, s)
  else (bs, x, forN ((da % 32 + 63) / 32) s (fun s i =>
    let l := s.loc (da / 32 * 32 + 32 * i)
    let c := s.phys l.t l.ch
    let s := if ((s.chan l.t c).bank l.b).row.isSome then s.preBank l.t c l.b else s
    s.modChan l.t c (fun y => { y with slots := y.now :: y.now :: y.slots })))

/-- Move rows: each source row is loaded, made over and stored. The first refused access fails the submission. -/
def State.mvRows (s : State) (c : MvC) (srcs dsts : List Nat) (nIn : Nat) (f : Nat → List PB → State → List PB × State) : State :=
  let a := s.actor c.k
  let (r, s) := forN c.rows ((Acx.ok), s) (fun (p : Acx × State) i =>
    let da := srcs.getD i 0
    let (bs, x, s) := if c.gather && inR0 da then p.2.narrowLoad a da else p.2.mvLoad a da nIn
    if x != .ok then (if p.1 == .ok then x else p.1, s)
    else
      let (out, s) := f i bs s
      let (y, s) := s.store (a.who false) a.sub (dsts.getD i 0) out
      (if p.1 == .ok then y else p.1, s))
  (s.accessFail c.k r c.d).integStops

/-- R282: COPY. -/
def State.mvCopy (s : State) (c : MvC) : State :=
  match s.mvSide c c.smap c.src c.spitch with
  | (none, s) => s.refuseDesc c.k 19 c.d
  | (some srcs, s) =>
    match s.mvSide c c.dmap c.dst c.dpitch with
    | (none, s) => s.refuseDesc c.k 19 c.d
    | (some dsts, s) =>
      if !s.mvMay c srcs c.len || !s.mvMay c dsts c.len || (!c.dmap && decide (c.dstMax < c.rows * c.len)) then s.refuseDesc c.k 19 c.d
      else s.mvRows c srcs dsts c.len (fun _ bs s => (bs, s))

/-- R282: COPY. -/
def execMvCopy (q : CoreId) (d : Desc) (s : State) : Host.Outcome State Fault Refusal :=
  .next (s.mvRow q 1 d (fun c s => s.mvCopy c))

/-! ### CONVERT -/

/-- Bytes of n values of a format. -/
def fmtBytes (f : NFmt) (n : Nat) : Nat := (n * f.width + 7) / 8

/-- The values of a source row: number, infinity, poison (R158, R164, R165, R169). cb is the codebook of the row. -/
def convSource (f : FmtC) (nf : NFmt) (cb : List PB) (n : Nat) (bs : List PB) : List (FV × Bool × Bool) :=
  let vals (l : List (Nat × Bool)) : List (FV × Bool × Bool) := l.map (fun v => let (x, i) := decodeF e4m3 v.1; (x, i, v.2))
  match nf with
  | .vq4 => vals (vqExpand false cb ((List.range ((n + 1) / 2)).map (codeAt 4 bs)))
  | .vq8 => vals (vqExpand true cb ((List.range ((n + 3) / 4)).map (codeAt 8 bs)))
  | .c4 | .c8 => (List.range n).map (fun j =>
      let (k, p) := codeAt nf.width bs j
      let b := cb.getD k (0, false)
      let (x, i) := decodeN f.entryFmt b.1.toNat
      (x, i, p || b.2))
  | _ => (List.range n).map (fun j =>
      let (k, p) := codeAt nf.width bs j
      let (x, i) := decodeN nf k
      (x, i, p))

/-- The codes of a converted row, each with the poison of its values, and what NONFIN_CNT counts. -/
def convCodes (f : FmtC) (nf : NFmt) (l : List (FV × Bool × Bool)) : List (Nat × Bool × Nat) :=
  match nf with
  | .vq4 | .vq8 =>
    let n := if nf = .vq8 then 4 else 2
    (List.range ((l.length + n - 1) / n)).map (fun g =>
      let x := (l.drop (n * g)).take n
      (vqEncode (nf == .vq8) f.cb (x.map (·.1)), x.any (·.2.2) || f.cbBad, (x.filter (·.2.1)).length))
  | _ => l.map (fun v => let r := convTo nf v.1 v.2.1; (r.code, v.2.2, r.nonfin))

/-- The bytes of codes of w bits; the bits above a last half byte are zero (assumption log 56). -/
def packCodes (w : Nat) (l : List (Nat × Bool × Nat)) : List PB :=
  if w = 4 then
    (List.range ((l.length + 1) / 2)).map (fun i =>
      let a := l.getD (2 * i) (0, false, 0)
      let b := l.getD (2 * i + 1) (0, false, 0)
      (BitVec.ofNat 8 (a.1 + 16 * b.1), a.2.1 || b.2.1))
  else l.flatMap (fun a => (leBytes (w / 8) a.1).map (fun b => (b, a.2.1)))

/-- R282: CONVERT. -/
def State.mvConvert (s : State) (c : MvC) : State :=
  let st := (s.actor c.k).st
  match s.fmtAt st (dfld c.d 2 31 16), s.fmtAt st (dfld c.d 2 15 0) with
  | some sf, some df =>
    match NFmt.ofCode sf.code, NFmt.ofCode df.code with
    | some sn, some dn =>
      let vq := df.code == 9 || df.code == 10
      let dstOk := df.plainOk && df.code != 7 && df.code != 8 && (!vq || s.bit (stlR st 0x208) 16)
      let nIn := fmtBytes sn c.len
      let nOut := fmtBytes dn c.len
      match s.mvSide c c.smap c.src c.spitch with
      | (none, s) => s.refuseDesc c.k 19 c.d
      | (some srcs, s) =>
        match s.mvSide c c.dmap c.dst c.dpitch with
        | (none, s) => s.refuseDesc c.k 19 c.d
        | (some dsts, s) =>
          if !sf.plainOk || !dstOk || !s.mvMay c srcs nIn || !s.mvMay c dsts nOut ||
             (!c.dmap && decide (c.dstMax < c.rows * nOut)) then s.refuseDesc c.k 19 c.d
          else s.mvRows c srcs dsts nIn (fun r bs s =>
            -- R164, R166: row r of a C4 source uses codebook CBI[r]
            let (cb, s) : List PB × State :=
              if sf.code = 7 then
                let (ib, s) := s.tabRead st 1 (sf.cbiBase + r)
                let i := ib.headD (0, true)
                let none_ : List PB := List.replicate 16 (0, true)
                if i.2 then (none_, s)
                else if i.1.toNat < sf.cbCount then ((sf.cb.drop (16 * i.1.toNat)).take 16, s)
                else (none_, (s.flagErr (keyPage c.k) 28 0 1 (s.actor c.k).ctx? (sf.cbiBase + r) 0).twrToo c.k 28 1 (sf.cbiBase + r) 0)
              else (sf.cb, s)
            let out := convCodes df dn ((convSource sf sn cb c.len bs).take c.len)
            (packCodes (if vq then (if df.code = 9 then 4 else 8) else dn.width) out, s.nonfin st (sumL (out.map (·.2.2)))))
    | _, _ => s.refuseDesc c.k 19 c.d
  | _, _ => s.refuseDesc c.k 19 c.d

/-- R282: CONVERT. -/
def execMvConvert (q : CoreId) (d : Desc) (s : State) : Host.Outcome State Fault Refusal :=
  .next (s.mvRow q 2 d (fun c s => s.mvConvert c))

/-! ### FILL, ATOMIC -/

/-- R282: FILL. -/
def State.mvFill (s : State) (c : MvC) : State :=
  match s.mvSide c c.dmap c.dst c.dpitch with
  | (none, s) => s.refuseDesc c.k 19 c.d
  | (some dsts, s) =>
    if !s.mvMay c dsts c.len || (!c.dmap && decide (c.dstMax < c.rows * c.len)) then s.refuseDesc c.k 19 c.d
    else
      let row : List PB := (List.range c.len).map (fun i => ((leBytes 4 (dw c.d 11).toNat).getD (i % 4) 0, false))
      let a := s.actor c.k
      let (r, s) := dsts.foldl (fun (p : Acx × State) da =>
        let (y, s) := p.2.store (a.who false) a.sub da row
        (if p.1 == .ok then y else p.1, s)) (Acx.ok, s)
      s.accessFail c.k r c.d

/-- R282: FILL. -/
def execMvFill (q : CoreId) (d : Desc) (s : State) : Host.Outcome State Fault Refusal :=
  .next (s.mvRow q 3 d (fun c s => s.mvFill c))

def afOf (n : Nat) : AddFmt := match n with | 0 => .int32 | 1 => .int64 | 2 => .bf16 | _ => .fp32

/-- Poison the unit at an address. -/
def State.poisonUnit (s : State) (who : Who) (da : Nat) : State :=
  let (d, _, s) := s.readUnit da
  s.write0 who da (d.map (fun b => (b, true)))

/-- R282: ATOMIC: a poisoned source vector leaves its unit poisoned (assumption log 55); an add to a key region is
dropped (R387). -/
def State.mvAtomic (s : State) (c : MvC) : State :=
  match s.mvSide c c.smap c.src c.spitch with
  | (none, s) => s.refuseDesc c.k 19 c.d
  | (some srcs, s) =>
    match s.mvSide c c.dmap c.dst c.dpitch with
    | (none, s) => s.refuseDesc c.k 19 c.d
    | (some dsts, s) =>
      let a := s.actor c.k
      if c.len != 32 || !s.mvMay c srcs 32 || !dsts.all (fun da => da % 32 == 0 && s.stallMem a.st da 32) ||
         (!c.dmap && decide (c.dstMax < c.rows * 32)) then s.refuseDesc c.k 19 c.d
      else
        let (r, s) := forN c.rows (Acx.ok, s) (fun (p : Acx × State) i =>
          let (bs, x, s) := p.2.mvLoad a (srcs.getD i 0) 32
          let da := dsts.getD i 0
          let x := if p.1 == .ok then x else p.1
          if x != .ok || (s.keyAt da).isSome || (s.tower (daTower da)).oos then (x, s)
          else if bs.any (·.2) then (x, s.poisonUnit (a.who false) da)
          else (x, s.atomAdd da (afOf (dfld c.d 1 25 24)) (BitVec.ofNat 256 (leNat (bs.map (·.1)))) (BitVec.ofNat 16 (dfld c.d 1 15 0))))
        (s.accessFail c.k r c.d).integStops

/-- R282: ATOMIC. -/
def execMvAtomic (q : CoreId) (d : Desc) (s : State) : Host.Outcome State Fault Refusal :=
  .next (s.mvRow q 4 d (fun c s => s.mvAtomic c))

/-! ### HOSTRD, HOSTWR -/

/-- The port whose host a mover reaches: of the context, or the stall's owner for the Tallyman's own slots (assumption
log 57); none where there is none. -/
def State.hostPort (s : State) (a : Actor) : Option Nat :=
  if a.slot < 64 then some (s.fld (ctxCfg a.st (a.ctx % 64)) 23 22)
  else if s.owner a.st < 4 then some (s.owner a.st) else none

/-- Issue a device read of host memory: one read for each row (assumption log 58). -/
def State.issueRead (s : State) (p addr len : Nat) (dst : RdDst) : State :=
  let tag := (s.port p).tags
  let s := s.modPort p (fun x => { x with tags := x.tags + 1 })
  ({ s with hostRds := s.hostRds ++ [(⟨p, tag, len, dst, s.time⟩ : HostRd)] } : State).emit (.hostRead p tag addr len)

/-- Poison the units that a failed host read should have filled (R282). -/
def State.poisonParts (s : State) (a : Actor) (parts : List (Nat × Nat)) : State :=
  parts.foldl (fun s (da, n) =>
    let us := (List.range ((da % 32 + n + 31) / 32)).map (fun i => da / 32 * 32 + 32 * i)
    us.foldl (fun s u =>
      if daRegion u = 1 then s.write1 u ((s.read1 u 32).map (fun b => (b.1, true)))
      else if (s.tower (daTower u)).oos then s else s.poisonUnit (a.who false) u) s) s

/-- R282: HOSTRD: the reads are issued; HOST_READ_COMPLETION fills the rows. -/
def State.mvHostrd (s : State) (c : MvC) : State :=
  match s.mvSide c c.dmap c.dst c.dpitch with
  | (none, s) => s.refuseDesc c.k 19 c.d
  | (some dsts, s) =>
    let a := s.actor c.k
    match s.hostPort a with
    | none => s.refuseDesc c.k 19 c.d
    | some p =>
      if c.smap || !s.mvMay c dsts c.len || (!c.dmap && decide (c.dstMax < c.rows * c.len)) then s.refuseDesc c.k 19 c.d
      else if s.portMode p = .refuses then
        -- R365: a read of a port that is closed is completed at once as an error
        let s := (s.flagErr (.prt p) 18 0 1 none 0 0).poisonParts a (dsts.map (fun da => (da, c.len)))
        if a.sub.isNone || (64 ≤ a.slot && !a.expert) then s else s.failDesc c.k 0 5 c.d
      else forN c.rows s (fun s r => s.issueRead p (c.src + r * c.spitch) c.len (.mv ⟨c.core, .mv⟩ [(dsts.getD r 0, c.len)]))

/-- R282: HOSTRD. -/
def execMvHostrd (q : CoreId) (d : Desc) (s : State) : Host.Outcome State Fault Refusal :=
  .next (s.mvRow q 5 d (fun c s => s.mvHostrd c))

/-- R282, R426: HOSTWR: poisoned data goes out with EP. -/
def State.mvHostwr (s : State) (c : MvC) : State :=
  match s.mvSide c c.smap c.src c.spitch with
  | (none, s) => s.refuseDesc c.k 19 c.d
  | (some srcs, s) =>
    let a := s.actor c.k
    match s.hostPort a with
    | none => s.refuseDesc c.k 19 c.d
    | some p =>
      if c.dmap || !s.mvMay c srcs c.len || decide (c.dstMax < c.rows * c.len) then s.refuseDesc c.k 19 c.d
      else
        let (r, s) := forN c.rows (Acx.ok, s) (fun (y : Acx × State) i =>
          let (bs, x, s) := y.2.mvLoad a (srcs.getD i 0) c.len
          let s := if x != .ok || s.portMode p = .refuses then s
            else s.emit (.hostWrite p (c.dst + i * c.dpitch) (bs.map (·.1)) (bs.any (·.2)))
          (if y.1 == .ok then x else y.1, s))
        (s.accessFail c.k r c.d).integStops

/-- R282, R426: HOSTWR. -/
def execMvHostwr (q : CoreId) (d : Desc) (s : State) : Host.Outcome State Fault Refusal :=
  .next (s.mvRow q 6 d (fun c s => s.mvHostwr c))

end Sys2Proof.Machine
end

