-- ==== Sys2Proof/Machine/Pack.lean ====
section
/-! DEFINITION. The packer: MV PACK (R246 to R249, R260 to R263). -/

namespace Sys2Proof.Machine

/-! ### The descriptor (R260) -/

def packIn (d : Desc) : Nat := dfld d 1 27 26
def packRows (d : Desc) : Nat := dfld d 1 23 16 + 1
def packNs (d : Desc) : Nat := dfld d 1 15 12 + 1
def packNdst (d : Desc) : Nat := dfld d 1 10 8 + 1
def packTid (d : Desc) : Nat := dfld d 2 15 8

/-- R260, R261: reserved values. -/
def packRsv (d : Desc) : Bool :=
  packIn d == 3 || dbit d 1 24 || dbit d 1 11 || dfld d 1 7 0 != 0 || dbit d 2 7 || dfld d 2 6 0 == 0 || decide (64 < dfld d 2 6 0) ||
  !dzero d 12 15 || (packIn d != 2 && d64 d 6 != 0)

/-- Bytes of one slot of a source row: codes of VQ points are packed (assumption log 60). -/
def packSlotBytes (inp : Nat) (f : FmtC) : Nat :=
  match inp with
  | 0 => 8192
  | 1 => 4096
  | _ => if f.code = 9 || f.code = 10 then 512 else 2048

/-- R262: the bound in the units of tCyc. -/
def packBound (f : Nat) (d : Desc) (anyR0 : Bool) : Nat :=
  let isz := match packIn d with | 0 => 4 | 1 => 2 | _ => 1
  let src := d64 d 3
  let rd := if inR0 src then tRead f (2048 * isz) else if 0x8000000 ≤ daOff src then tCyc (32 * isz) else tCyc (8 * isz)
  let out := if anyR0 then tWrite f (packNdst d * 2080) else tCyc (packNdst d * 2080) / 256
  packRows d * packNs d * max (tCyc 32) (max rd out) +
  (if packIn d != 2 then tNs f (cdiv (packRows d) 16 * 2859) else 0) + tNs f 120 + tCyc 48

/-- R260: a destination entry that names a place for the slots of a row. -/
def State.packDst (s : State) (a : Actor) (ns da : Nat) : Bool :=
  let n := 4096 * ns
  da % 4096 == 0 && s.wayOk a da n &&
  ((s.stallMem a.st da n && !s.touchesBench da n) || (inSram da n && (s.towersOf a.st).contains (daTower da)))

/-! ### Blocks (R241, R242, R247) -/

/-- A formed block: header words, payload granule bytes with their poison, and what it counts: mode, fallback, counted
codes. -/
structure PBlk where
  hdr : List PB
  body : List PB
  mode : Nat
  fallback : Bool
  counted : Bool

/-- Mark the granules of a payload that hold a poisoned byte; whole marks all of it. -/
def poisonGran (whole : Bool) (l : List PB) : List PB :=
  (List.range l.length).map (fun i =>
    ((l.getD i (0, false)).1, whole || ((l.drop (i / 32 * 32)).take 32).any (·.2)))

/-- R247: form a block from 2,048 codes of 8 bits, or the packed codes of a VQ point. hist: the stall is in a histogram
step. A poisoned code poisons its granule, and the whole of an ENT or ZERO block (assumption log 59). -/
def State.formBlock (s : State) (t : Nat) (d : Desc) (f : FmtC) (hist clip : Bool) (e : Int) (eBad : Bool) (scp : Nat)
    (codes : List PB) : PBlk :=
  let mk (mode len tid gen : Nat) (flags : Nat) (body : List PB) (hp : Bool) : PBlk :=
    let ws := [w32 (mode * 2 ^ 29 + tid * 65536 + gen), w32 (trunc 8 e * 2 ^ 24 + f.code * 2 ^ 20 + len),
      w32 (flags + b2n clip), w32 (dfld d 2 31 16)] ++ w64 scp ++ [0, 0]
    ⟨ws.flatMap (fun w => (leBytes 4 w.toNat).map (fun b => (b, hp || eBad))), body, mode, flags == 2, bitOf flags 2⟩
  let bad := codes.any (·.2)
  let h := b2n hist * 4
  if f.code = 9 then mk 3 16 0 0 0 (poisonGran false codes) false
  else if f.code = 10 then mk 4 16 0 0 0 (poisonGran false codes) false
  else if codes.all (fun c => c.1 == 0) then mk 2 0 0 0 h [] bad
  else
    let raw (flags : Nat) : PBlk := mk 0 64 0 0 flags (poisonGran false codes) false
    if dbit d 1 25 || !s.bit (pkrR t 0x80) 0 then raw 0
    else if hist then raw 4
    else
      let tab := s.tab t (packTid d)
      if !tab.curV then raw 8
      else match encodeEnt (codeWords tab.cur) (codes.map (·.1)) with
        | none => raw 2
        | some (bits, longest) =>
          let len := cdiv bits.length 256
          if 128 < longest || dfld d 2 6 0 < len then raw 2
          else mk 1 len (packTid d) tab.gen 0 (poisonGran bad ((bitsToBytes (32 * len) bits).map (fun b => (b, false)))) false

/-- The counters of a block written (units of 1,024 granules for the last two). -/
def State.countBlock (s : State) (t : Nat) (b : PBlk) : State :=
  let s := match b.mode with
    | 0 => s.bump (pkrR t 0xA8) 1
    | 1 => s.bump (pkrR t 0xA4) 1
    | 2 => s.bump (pkrR t 0xAC) 1
    | _ => s.bump (pkrR t 0xB0) 1
  let s := if b.fallback then s.bump (pkrR t 0xB4) 1 else s
  let x := s.tower t
  let o := x.granOut + 1 + b.body.length / 32
  let r := x.granRaw + 65
  let s := s.modTower t (fun x => { x with granOut := o % 1024, granRaw := r % 1024 })
  let s := if o / 1024 = 0 then s else s.bump (pkrR t 0xC8) (o / 1024)
  if r / 1024 = 0 then s else s.bump (pkrR t 0xCC) (r / 1024)

/-! ### The command -/

/-- R261: the packer takes the PACK of queue k: it runs no other, and none waits that comes before k in the round from the
queue after the one it served last. -/
def State.packerFree (s : State) (k : Nat) : Bool :=
  let t := keyTower k
  let place (i : Nat) : Nat := (i + 320 - (s.tower t).packAt % 320) % 320
  let me := k / 8 % 320
  (List.range 320).all (fun i =>
    let q := s.qGet ((t * 320 + i) * 8 + 2)
    i == me || !(q.packing || (q.go && { q with go := false }.packing && decide (place i < place me))))

/-- A refusal by R261. -/
def State.packRefuse (s : State) (k : Nat) (d : Desc) : State :=
  let q := s.qGet k
  (s.flagErr (.pkr (keyTower k)) 22 0 2 (s.actor k).ctx? q.list (q.idx % 65536 * 65536 + dfld d 0 6 0)).failDesc k 0 1 d

/-- One row's source values of a slot run: the elements as a quantiser takes them (IN 00b, 01b). -/
def packValues (inp : Nat) (bs : List PB) : List QSrc :=
  let w := if inp = 0 then 32 else 16
  (List.range (bs.length * 8 / w)).map (fun i =>
    let (x, p) := codeAt w bs i
    let (v, inf) := decodeF (if inp = 0 then fp32 else bf16) x
    some (v, inf, p))

/-- The bytes of codes of a quantised slot. -/
def packBytes (f : FmtC) (l : List (Nat × Bool × Nat)) : List PB := packCodes (if f.code = 9 then 4 else 8) l

/-- What a row supplies: its exponent and the poison of it, SCP, its slots' codes and whether any value of a slot was
clipped. -/
structure PRow where
  e : Int
  eBad : Bool
  scp : Nat
  slots : List (List PB × Bool)

/-- R246: the rows of a PACK. -/
def State.packSource (s : State) (k : Nat) (d : Desc) (f : FmtC) (entries : List Nat) : List PRow × Acx × State :=
  let a := s.actor k
  let inp := packIn d
  let sb := packSlotBytes inp f
  let ns := packNs d
  let rows := List.range (packRows d)
  -- read everything first
  let (raw, r, s) := rows.foldl (fun (p : List (List PB) × Acx × State) i =>
    let (bs, x, s) := p.2.2.mvLoad a (d64 d 3 + i * (dw d 5).toNat) (ns * sb)
    (p.1 ++ [bs], if p.2.1 == .ok then x else p.2.1, s)) (([] : List (List PB)), Acx.ok, s)
  if inp = 2 then
    let (eb, x, s) := s.mvLoad a (d64 d 6) (packRows d)
    (rows.map (fun i =>
      let e := eb.getD i (0, true)
      ⟨sext 8 e.1.toNat, e.2, entries.getD i 0,
       (List.range ns).map (fun j => (((raw.getD i []).drop (j * sb)).take sb, false))⟩),
     if r == .ok then x else r, s)
  else
    let (es, s) := rows.foldl (fun (p : List Int × State) i =>
      let (e, s) := p.2.scaleE f (entries.getD i 0)
      (p.1 ++ [e], s)) (([] : List Int), s)
    let vals := rows.map (fun i => packValues inp (raw.getD i []))
    let cols := ns * 32
    -- R178: each 16 rows × 64 columns is one tile
    let s := forN (cdiv (packRows d) 16 * cols) s (fun s j =>
      let r0 := j / cols * 16
      let c0 := j % cols * 64
      s.quantTile a.st f ((List.range (min 16 (packRows d - r0))).map (fun i =>
        ⟨entries.getD (r0 + i) 0, es.getD (r0 + i) 0, ((vals.getD (r0 + i) []).drop c0).take 64⟩)))
    let out := rows.map (fun i => (List.range ns).map (fun j =>
      let xs := ((vals.getD i []).drop (2048 * j)).take 2048
      let q := quantCodes f (es.getD i 0) xs
      (packBytes f q, (quantClips f (es.getD i 0) xs).any id, sumL (q.map (·.2.2)))))
    let s := s.nonfin a.st (sumL (out.map (fun l => sumL (l.map (·.2.2)))))
    (rows.map (fun i => ⟨es.getD i 0, false, entries.getD i 0, (out.getD i []).map (fun y => (y.1, y.2.1))⟩), r, s)

/-- R260, R263: write a block to one destination, the payload before the header. -/
def State.writeBlock (s : State) (a : Actor) (b : PBlk) (da : Nat) : Acx × State :=
  let (x, s) := s.store (a.who false) a.sub (da + 32) b.body
  let (y, s) := s.store (a.who false) a.sub da b.hdr
  (if x == .ok then y else x, s)

/-- R247 to R249, R260: form and write the blocks of the rows. -/
def State.packOut (s : State) (k : Nat) (d : Desc) (f : FmtC) (rows : List PRow) (dl : List Nat) : Acx × State :=
  let a := s.actor k
  let t := keyTower k
  let hist := (s.stall a.st).hist
  forN (packRows d * packNs d) (Acx.ok, s) (fun (p : Acx × State) i =>
    let r := i / packNs d
    let j := i % packNs d
    let row := rows.getD r ⟨0, true, 0, []⟩
    let sl := row.slots.getD j ([], false)
    let b := p.2.formBlock t d f hist sl.2 row.e row.eBad row.scp sl.1
    let s := p.2.countBlock t b
    let s := if b.counted then
        (s.addHistogram t (packTid d) (sl.1.map (·.1))).modStall a.st (fun x => { x with tids := sadd x.tids (packTid d) })
      else s
    (List.range (packNdst d)).foldl (fun (y : Acx × State) n =>
      let da := dl.getD (r * packNdst d + n) 0
      if da = 2 ^ 64 - 1 || !y.2.packDst a (packNs d) da then y
      else
        let (x, s) := y.2.writeBlock a b (da + 4096 * j)
        (if y.1 == .ok then x else y.1, s)) (p.1, s))

/-- R260, R261: MV PACK of core q. DESIGN CHOICE (assumption log 133): a row map whose entries the quantiser cannot use is
refused. -/
def State.mvPack (s : State) (q : CoreId) (d : Desc) : State :=
  let k := qKey ⟨q, .mv⟩
  let a := s.actor k
  let t := q.t.val
  let rows := packRows d
  let own (da n : Nat) : Bool := ownMem t da n && s.wayOk a da n
  match s.fmtAt a.st (dfld d 2 31 16) with
  | none => s.packRefuse k d
  | some f =>
    let sb := packSlotBytes (packIn d) f
    let srcOk := (List.range rows).all (fun r => own (d64 d 3 + r * (dw d 5).toNat) (packNs d * sb))
    let rmap := d64 d 8
    if packRsv d || !f.quantOk || ((f.code == 9 || f.code == 10) && !s.bit (stlR a.st 0x208) 16) || (packIn d != 2 && rmap == 0) ||
       !srcOk || (packIn d == 2 && !own (d64 d 6) rows) || (rmap != 0 && !own rmap (8 * rows)) ||
       !own (d64 d 10) (8 * rows * packNdst d) then s.packRefuse k d
    else if !s.packerFree k then s.holdHead k
    else
      let s := s.modTower t (fun x => { x with packAt := k / 8 % 320 + 1 })
      let (dl, s) := s.rowMap (a.who false) (d64 d 10) (rows * packNdst d)
      let (es, s) : Option (List Nat) × State := if rmap = 0 then (some (List.replicate rows 0), s) else s.rowMap (a.who false) rmap rows
      match dl, es with
      | some dl, some es =>
        let live := dl.filter (fun da => da != 2 ^ 64 - 1)
        let anyR0 := live.any (fun da => inR0 da && s.packDst a (packNs d) da)
        if (packIn d != 2 && es.any (fun e => !s.entryOk a.st e)) ||
           overUs (s.ckA a.st) (packBound (s.ckA a.st) d anyR0) (s.fld (pkrR t 0x80) 31 24) then s.packRefuse k d
        else
          let bad := live.filter (fun da => !s.packDst a (packNs d) da)
          let s := bad.foldl (fun s da => s.flagErr (.pkr t) 18 0 0 a.ctx? da 0) s
          let (rs, r, s) := s.packSource k d f es
          if r != .ok then (s.accessFail k r d).integStops
          else
            let (r, s) := s.packOut k d f rs dl
            (s.accessFail k r d).integStops
      | _, _ => s.packRefuse k d

/-- R260, R261: MV PACK. -/
def execPack (q : CoreId) (d : Desc) (s : State) : Host.Outcome State Fault Refusal :=
  .next (s.engineRow (qKey ⟨q, .mv⟩) 4 (dfld d 1 31 28) 8 [1, 2, 3, 4, 5, 6, 8] 19 d (fun _ => true) (fun s => s.mvPack q d))

end Sys2Proof.Machine
end

