-- ==== Sys2Proof/Machine/Bounds.lean ====
section
/-! DEFINITION. Bounds of descriptors that no engine checks itself (R118, R280, R285), the rate of a host link (R358), and
the longest switch-free run of a list (R314). Times are in the units of tCyc. -/

namespace Sys2Proof.Machine

/-! ### Host links (R358) -/

/-- Ten times the rate that a code of MAX_RATE names, in GT/s. -/
def rate10 (code : Nat) : Nat := [0, 25, 50, 80, 160, 320, 640, 1280].getD code 0

/-- r_host of port p in units of 1/8000 GB/s, from the trained values; 0 without a link. -/
def State.linkRate (s : State) (p : Nat) : Nat :=
  let a := prtR p 0x500
  (if s.bit a 1 then 88 else 80) * s.fld a 20 16 * rate10 (s.fld a 31 28)

/-- The time of n bytes at r_host, in ns. -/
def State.hostNs (s : State) (p n : Nat) : Nat := n * 8000 / max 1 (s.linkRate p)

/-! ### MV and SY (R280, R285) -/

/-- The time of n bytes at one end of a mover: host, region 0, own scratchpad, own shelf. -/
def mvRate (f n : Nat) (wr host : Bool) (hostT : Nat) (da : Nat) : Nat :=
  if host then tNs f hostT
  else if daRegion da = 1 then tCyc n / (if daOff da < 0x5000000 then 256 else 32)
  else if wr then tWrite f n else tRead f n

/-- R285: the bound of an MV descriptor of core q, for a stall and the port of its context. A side with a row map is
taken to lie in region 0. -/
def State.mvBound (s : State) (st p : Nat) (q : CoreId) (d : Desc) : Nat :=
  let f := s.ckA st
  let c : MvC := ⟨0, q, d⟩
  let kind := dfld d 1 31 28
  if kind = 8 then packBound f d (inR0 (d64 d 6))
  else
    let width (i : Nat) : Nat := match (s.fmtAt st i).bind (fun x => NFmt.ofCode x.code) with
      | some n => fmtBytes n c.len
      | none => 4 * c.len
    let (bi, bo) : Nat × Nat := match kind with
      | 2 => (width (dfld d 2 31 16), width (dfld d 2 15 0))
      | 3 => (0, c.len)
      | _ => (c.len, c.len)
    let src := if c.smap then 0 else c.src
    let dst := if c.dmap then 0 else c.dst
    let row := max (max (mvRate f bi false (kind == 5) (s.hostNs p bi) src) (mvRate f bo true (kind == 6) (s.hostNs p bo) dst))
      (if kind = 2 then tCyc (c.len / 16) else 0)
    (if c.gather then tNs f (cdiv c.rows 16 * 2859) else c.rows * row) + (if c.smap || c.dmap then tCyc c.rows else 0) +
      (if kind = 5 then tNs f (2 * s.fld (prtR p 0x300) 15 0) else 0) + tNs f 120 + tCyc 48

/-- R280: the bound of an SY descriptor of tower t; a WAIT counts at its TMO_US (R314). -/
def syBound (f t : Nat) (d : Desc) : Nat :=
  match dfld d 1 31 28 with
  | 1 => if dbit d 1 27 then tNs f 4000 else tCyc 8
  | 2 => tNs f (1000 * dfld d 2 15 0)
  | 3 => tCyc 20 + (if dfld d 1 26 22 = t then 0 else tNs f 240)
  | _ => tCyc 20 + tNs f 120

/-- The bound of a core's descriptor. -/
def State.coreBound (s : State) (st p : Nat) (q : QueueId) (d : Desc) : Nat :=
  let f := s.ckA st
  match dfld d 0 23 20 with
  | 1 => ((s.mxFormats (qKey q) q.core d).map (fun c => c.bound f)).getD 0
  | 2 =>
    let c : VxC := ⟨qKey q, q.core, d⟩
    c.bound f (if inL [0x16, 0x1D] c.op then s.fmtAt st c.fidx else none)
  | 4 => s.mvBound st p q.core d
  | 5 => syBound f q.core.t.val d
  | _ => 0

/-! ### Switch-free runs (R270, R314) -/

/-- The longest sum between switch points, of pairs of a bound and whether the descriptor ends a run. -/
def longestRun : List (Nat × Bool) → Nat → Nat → Nat
  | [], acc, best => max acc best
  | (b, sw) :: rest, acc, best => if sw then longestRun rest 0 (max (acc + b) best) else longestRun rest (acc + b) best

/-- R118: the bounds of a BN list, with the sets that its SETLOADs name as they stand in memory. A queue does not leave
an open program (R112). -/
def State.bnBounds (s : State) (who : Who) (f t : Nat) (ds : List Desc) : List (Nat × Bool) :=
  let step (acc : List (Nat × Bool) × List (Nat × List SetE) × Bool) (d : Desc) :
      List (Nat × Bool) × List (Nat × List SetE) × Bool :=
    let (l, sets, isOpen) := acc
    if dfld d 0 23 20 = 5 then (l ++ [(syBound f t d, dbit d 0 7 && !isOpen)], sets, isOpen)
    else
      let fin := dbit d 1 22
      let ns := if fin then 600 else 0
      let sw := dbit d 0 7 && fin
      match dfld d 1 25 24 with
      | 0 => (l ++ [(tNs f (tCmd (s.actWin t) (mget [] sets (dfld d 1 31 26)) d + 980 + ns), sw)], sets, !fin)
      | 1 =>
        let (bs, _, _) := s.load who (d64 d 4) 128
        let es := (parseSet (wordsOf 32 (bs.map (·.1)))).getD []
        (l ++ [(tNs f (100 + ns), sw)], mset [] sets (dfld d 1 31 26) es, !fin)
      | _ => (l ++ [(tNs f (100 + (dw d 6).toNat / 64 + ns), sw)], sets, !fin)
  (ds.foldl step (([] : List (Nat × Bool)), ([] : List (Nat × List SetE)), false)).1

/-- R314: does the list of a queue hold a switch-free run longer than RUN_MAX_US? -/
def State.runTooLong (s : State) (st p : Nat) (who : Who) (q : QueueId) (ds : List Desc) : Bool :=
  let f := s.ckA st
  let bs := if q.k = .bn then s.bnBounds who f q.core.t.val ds else ds.map (fun d => (s.coreBound st p q d, dbit d 0 7))
  overUs f (longestRun bs 0 0) (s.fld (stlR st 0x88) 23 16)

end Sys2Proof.Machine
end

