-- ==== Sys2Proof/Machine/Groups.lean ====
section
/-! DEFINITION. The groups into which the Tallyman packs the pages of a pass (R138), their number (R139), and the bound of
the summary program (R118). -/

namespace Sys2Proof.Machine

/-- R138: pages with their frames, in ascending page order, packed into groups of the pages. -/
def State.pageGroups (s : State) (t : Nat) (pages : List (Nat × Nat)) : List (List Nat) :=
  (packSets (s.maxBanks t) (pages.map (fun p => (p.1, p.2 % 128)))).map (fun g => g.map (·.1))

/-- R139: max(⌈n / B⌉, ⌈P / G⌉). -/
def groupBound (n b p g : Nat) : Nat := max (cdiv n b) (cdiv p g)

/-- The frames of a layer's pages below p, by page. -/
def State.layerFrames (s : State) (x : Ses) (l p : Nat) : List (Nat × Nat) × State :=
  forN p (([] : List (Nat × Nat)), s) (fun (acc : List (Nat × Nat) × State) k =>
    let (e, s) := acc.2.readEnt x l k
    (if e.bad || !e.present then acc.1 else acc.1 ++ [(k, e.frame)], s))

/-- R136: every page that a session holds lies on the channel group of its place. -/
def State.placed (s : State) (x : Ses) : Bool :=
  let a := s.groups x.home x.be
  (List.range (s.layers x.stall)).all (fun l =>
    (s.layerFrames x l x.pages).1.all (fun p => p.2 % 128 == pageCg a x.base p.1))

/-- R137, R139: the groups that a session's pass over n pages counts for: the value of R139, or the largest number that its
pages make where one was displaced. -/
def State.groupsOf (s : State) (x : Ses) (n p : Nat) : Nat :=
  if s.placed x then groupBound n (s.maxBanks x.home) p (s.groups x.home x.be).length
  else maxL ((List.range (s.layers x.stall)).map (fun l =>
    (s.pageGroups x.home (s.layerFrames x l x.pages).1).length)) + (p - x.pages)

/-- R145, R146: the pages selected for a session's step with d drafts: its window pages and the complete ones, or SEL_PAGES
of these. -/
def State.selCount (s : State) (x : Ses) (d : Nat) : Nat :=
  let c := x.len / 64
  let sel := s.fld (twrR x.home 0xA0) 26 16
  (if s.bit (twrR x.home 0xA0) 1 then min c sel else c) + ((x.len + d) / 64 + 1 - c)

end Sys2Proof.Machine
end

