-- ==== Sys2Proof/Machine/Batch.lean ====
section
/-! DEFINITION. The batch of a step: the step bound (R320, R321), the rows of sessions and their drafts (R334, R335,
R348), BE fill (R315), splices (R331, R335, R342), admission and placement (R319, R332, R336, R337), parking and eviction
(R338 to R341). -/

namespace Sys2Proof.Machine

/-- The items of a list in a strict order; those of one rank keep their order: each goes behind all that it does not precede. -/
def sortBy {α : Type} (lt : α → α → Bool) (items : List α) : List α :=
  items.foldl (fun line x => line.takeWhile (fun y => !lt x y) ++ [x] ++ line.dropWhile (fun y => !lt x y)) []

def State.sesOf (s : State) (st : Nat) : List Ses := s.ses.filter (fun x => x.stall == st)
def bySlot (l : List Ses) : List Ses := sortBy (fun x y => decide (x.slot < y.slot)) l
def byOrd (l : List Ses) : List Ses := sortBy (fun x y => decide (x.ord < y.ord)) l

/-- R339: newest first: admitted at the latest step, ties to the higher slot. -/
def newestFirst (l : List Ses) : List Ses :=
  sortBy (fun x y => decide (y.admitStep < x.admitStep) || (x.admitStep == y.admitStep && decide (y.slot < x.slot))) l

/-- R295: the sessions of a pair that holds records are not stepped. -/
def State.blocked (s : State) (x : Ses) : Bool := !(s.ring (s.sesPair x)).held.isEmpty

/-- STL.MODE.EXPERT; STL.INTEG.HALT. -/
def State.expertMode (s : State) (st : Nat) : Bool := s.bit (stlR st 0x100) 0
def State.halted (s : State) (st : Nat) : Bool := s.bit (stlR st 0x280) 24

/-! ### The step bound (R293, R320, R321) -/

/-- R293: the largest bound of the sampling of a ring of the stall, for the records that were taken, in ns. -/
def State.intakeNs (s : State) (st : Nat) : Nat :=
  maxL ((List.range 16).map (fun k =>
    if s.ringEn k && s.ringStall k == st then
      2 * s.fld (prtR (k / 4) 0x300) 15 0 + s.hostNs (k / 4) (64 * ((s.stall st).taken.countP (fun h => h.pair == k)))
    else 0))

/-- R320: the limit of a step with LC work. -/
def State.lcLimit (s : State) (st : Nat) : Nat := s.fld (stlR st 0x8C) 31 16 - s.fld (stlR st 0x8C) 15 0

/-- R315: the BE fill target, lowered by a cut (R321). -/
def State.beTarget (s : State) (st cut : Nat) (lc : Bool) : Nat :=
  let t := s.fld (stlR st 0x90) 15 0 - cut
  if lc then min t (s.lcLimit st) else t

/-! ### Rows and drafts -/

/-- The session is past its prompt. -/
def Ses.decoding (x : Ses) : Bool :=
  match x.act with
  | some q => !q.app && decide (q.total ≤ q.rows)
  | none => false

/-- R348: the drafts that a decoding session takes, and whether its DRAFT is discarded. -/
def State.draftsOf (s : State) (x : Ses) : List Word × Bool :=
  match x.act with
  | none => ([], false)
  | some q =>
    let host := x.draft.bind (fun (pos, l) => if pos = x.len + 1 then some l else none)
    let l := match host with | some l => l | none => if x.spec then x.heads else []
    (l.take (min (s.fld (stlR x.stall 0x240) 26 24) (q.maxnew - q.delivered - 1)), x.draft.isSome && host.isNone)

/-- The rows that a session would take with so much prefill room. -/
def State.wants (s : State) (x : Ses) (room : Nat) : Nat :=
  if x.decoding then 1 + (s.draftsOf x).1.length
  else match x.act, x.queue with
    | some q, _ => min (q.total - q.rows) room
    | none, q :: _ => min (b2n x.pend.isSome + q.ntok) room
    | none, [] => 0

/-! ### The bound of a step (R320) -/

/-- R137, R139, R320: the bench time of a decoding session's attention, where a RUN takes so many ns: the groups of its summary
pass and, for each query position, those of its full pass, in every layer. -/
def State.attnNs (s : State) (run : Nat) (x : Ses) : Nat :=
  if !x.decoding then 0
  else
    let d := (s.draftsOf x).1.length
    let c := x.len / 64
    let p := max x.pages ((x.len + d) / 64 + 1)
    let dig := if s.bit (twrR x.home 0xA0) 1 && decide (s.fld (twrR x.home 0xA0) 26 16 < c) then
        groupBound (digFrames c) (s.maxBanks x.home) (digFrames p) (s.groups x.home x.be).length else 0
    s.layers x.stall * ((d + 1) * s.groupsOf x (s.selCount x d) p + dig) * run

/-- R314, R320: class blocking and the waits of LC submissions behind LC submissions, in µs; in a merged submission there are
none. n resources may be met by both classes, m are shared by LC submissions, whose longest run is w. -/
def State.blockUs (s : State) (st n m w : Nat) (xs : List Ses) : Nat :=
  if s.nstall = 0 then 0
  else
    let ctxs (be : Bool) : Nat := ((List.range 64).filter (fun k => xs.any (fun x => x.be == be && x.ctx == ctxNo st k))).length
    let sched := s.reg (stlR st 0x88)
    (if ctxs false = 0 || ctxs true = 0 then 0 else n * (fget sched 23 16 + 1)) +
      m * ((ctxs false - 1) * (fget sched 31 24 + w + 1))

/-- R320: B of a step of so many rows with these sessions, in µs. n is the free number of the step's lists, which fix the
quantities named here: the chain of each phase, the descriptors listed in region 1 and in region 0, the bytes of the fullest
link, the region 0 time and the number of the commands that meet bench programs, the packer queueing, the switches
(assumption log 18). intake is the bound of its sampling. -/
def State.boundOf (s : State) (st n intake rows : Nat) (xs : List Ses) : Nat :=
  let q := Config.plan n rows
  let b := maxL ((s.towersOf st).map (fun t => s.maxBanks t))
  let attn := maxL ((s.towersOf st).map (fun t => sumL ((xs.filter (fun x => x.home == t)).map (s.attnNs (q 11)))))
  let ns := q 0 + q 1 * 16000 / s.ckA st + q 2 * 150 + q 3 / 1600 + q 4 * 128 / (128 - b) + q 5 * 1839 + q 6 + attn
  intake + 5 + (s.stall st).carry + cdiv ns 1000 + s.blockUs st (q 7) (q 8) (q 9) xs + q 10 +
    s.fld (stlR st 0x218) 23 16 * Config.bf16Layer rows

/-- The plan of a step as it grows: prefill room left, prefilling requests by tower, rows. -/
structure Plan where
  room : Nat
  pfx : List (Nat × Nat)
  rows : Nat
deriving DecidableEq, Repr

/-- R331, R342: the requests at the head of the queue that cannot begin end at once. -/
def prepQueue : Nat → Ses → Ses
  | 0, x => x
  | fuel + 1, x =>
    match x.queue with
    | [] => x
    | q :: rest =>
      let rows := b2n x.pend.isSome + q.ntok
      if rows = 0 then prepQueue fuel { x with queue := rest, fin := x.fin ++ [(q, 3, 0x0B)] }
      else if x.full || decide (x.pcap * 64 < x.len + rows + 7) then prepQueue fuel { x with queue := rest, fin := x.fin ++ [(q, 3, 4)] }
      else x

/-- The oldest pending request becomes active (R331). -/
def Ses.activate (x : Ses) : Ses :=
  match x.act, x.queue with
  | none, q :: rest =>
    { x with act := some { q with total := b2n x.pend.isSome + q.ntok, len0 := x.len, rows := 0,
                                  toks := (match x.pend with | some p => [some p] | none => []) ++ q.toks },
             queue := rest, pend := none, st := .active }
  | _, _ => x

/-- R334, R335, R348: a session takes its rows of the step, if there is room. -/
def State.takeRows (s : State) (p : Plan) (x : Ses) : Plan × State :=
  let n := s.wants x p.room
  if x.decoding then
    let (d, stale) := s.draftsOf x
    let s := if stale then s.bump (stlR x.stall 0x27C) 1 else s
    let s := if d.isEmpty then s else s.bump (stlR x.stall 0x274) d.length
    ({ p with rows := p.rows + n }, s.putSes { x with inStep := true, rowsNow := 1, drafts := d, draft := none })
  else if n = 0 || decide (s.fld (stlR x.stall 0x240) 31 28 ≤ mget 0 p.pfx x.home) then (p, s)
  else
    ({ room := p.room - n, pfx := mset 0 p.pfx x.home (mget 0 p.pfx x.home + 1), rows := p.rows + n },
     s.putSes { x.activate with inStep := true, rowsNow := n, drafts := [] })

/-- Take the rows of several sessions, each as it stands by then. -/
def State.takeAll (s : State) (p : Plan) (l : List Ses) : Plan × State :=
  l.foldl (fun (acc : Plan × State) x =>
    match acc.2.findSes x.ctx x.sid with
    | some y => acc.2.takeRows acc.1 y
    | none => acc) (p, s)

/-! ### BE fill (R315) -/

/-- The sessions among candidates, in their order, whose wants make up at most n rows. -/
def firstRows : Nat → List (Ses × Nat) → List Ses
  | _, [] => []
  | n, c :: t => if c.2 ≤ n then c.1 :: firstRows (n - c.2) t else []

/-- The BE rows that fit: the most, of those that the candidates want, that keep the bound at or below a target, beside the
sessions xs with their rows. -/
def State.beRoom (s : State) (st n intake rows : Nat) (xs : List Ses) (cand : List (Ses × Nat)) (target : Nat) : Nat :=
  (forN (sumL (cand.map (·.2))) (0, true) (fun (acc : Nat × Bool) i =>
    if acc.2 && decide (s.boundOf st n intake (rows + i + 1) (xs ++ firstRows (i + 1) cand) ≤ target) then (i + 1, true)
    else (acc.1, false))).1

/-- Rows are given one session at a time, to the context whose rows so far are the least for its weight, while there is room;
a context that `more` turns away gets no more. The sessions and the rows they take. -/
def fillBy (weight : Nat → Nat) (more : Nat → Nat → Bool) : Nat → Nat → List (Nat × Nat) → List (Ses × Nat) → List (Ses × Nat)
  | 0, _, _, _ => []
  | fuel + 1, left, got, cand =>
    let slot (c : Ses × Nat) : Nat := c.1.ctx % 64
    let key (c : Ses × Nat) : Nat × Nat := (mget 0 got (slot c), weight (slot c))
    let may := cand.filter (fun c => decide (c.2 ≤ left) && more (slot c) (mget 0 got (slot c)))
    match bestOf (fun x y => decide ((key x).1 * (key y).2 < (key y).1 * (key x).2) ||
        ((key x).1 * (key y).2 == (key y).1 * (key x).2 && decide (x.1.ctx < y.1.ctx))) may with
    | none => []
    | some c =>
      c :: fillBy weight more fuel (left - c.2) (mset 0 got (slot c) (mget 0 got (slot c) + c.2))
        (cand.filter (fun y => !(y.1.ctx == c.1.ctx && y.1.sid == c.1.sid)))

/-- R315, R321: the BE sessions that run in the step beside those whose rows are fixed, of which got holds the rows by
context: first each context gets at least MIN_SHARE / 256 of the BE rows that fit, the fixed ones and n more; the rest of m
rows, those that fit after a cut, goes in proportion to WEIGHT. -/
def State.fillBe (s : State) (st n m : Nat) (got : List (Nat × Nat)) (cand : List (Ses × Nat)) : List Ses :=
  let share (k : Nat) : Nat := s.fld (ctxCfg st k) 15 8
  let all := n + sumL (got.map (·.2))
  let first := fillBy share (fun k g => decide (g * 256 < all * share k)) cand.length n got cand
  let rest := cand.filter (fun c => !first.any (fun y => y.1.ctx == c.1.ctx && y.1.sid == c.1.sid))
  (first ++ fillBy (s.weight st) (fun _ _ => true) rest.length (m - sumL (first.map (·.2))) [] rest).map (·.1)

/-! ### Placement (R319, R141) -/

/-- Live home sessions of a class in a tower. -/
def State.homeLive (s : State) (t : Nat) (be : Bool) : Nat :=
  s.ses.countP (fun x => x.home == t && x.be == be && x.st != .wait)

/-- R319: the home tower of a session; none where no tower can hold it now. -/
def State.homeFor (s : State) (x : Ses) : Option Nat :=
  let l := s.layers x.stall
  let ok (t : Nat) : Bool := !(s.freeRecs t).isEmpty &&
    (if x.be then s.canHoldBe x.stall t l x.pfxlen x.ctx else s.canHoldLc t l x.pcap x.ctx)
  let key (t : Nat) : Nat × Nat := (s.homeLive t x.be, s.freeCls t x.be x.ctx)
  bestOf (fun a b => decide ((key a).1 < (key b).1) || ((key a).1 == (key b).1 && decide ((key b).2 < (key a).2)))
    ((s.inService x.stall).filter ok)

/-- The ranges of a tower that its ledger takes: records, frame table, scale table, page lists of live sessions. -/
def State.ledgerRanges (s : State) (t : Nat) : List (Nat × Nat) :=
  let st := s.stallOf t
  let recs := s.fld (twrR t 0xB4) 14 0
  [(s.reg64 (twrR t 0xA4), 32 * recs), (s.reg64 (twrR t 0xAC), 4 * s.frames t),
   (s.reg64 (twrR t 0xE0), 64 * recs * (s.layers st * s.spl st))] ++
  (s.ses.filter (fun x => x.home == t && x.st != .wait)).map (fun x => (x.plist, 8 * (s.layers x.stall * plistS x.pcap)))

/-- The first 32 B aligned place for n bytes from a on that meets no range; past the end of the region it starts over. -/
def placeAt : Nat → List (Nat × Nat) → Nat → Nat → Nat → Nat → Nat
  | 0, _, _, _, _, a => a
  | fuel + 1, rs, lo, hi, n, a =>
    if hi < a + n then placeAt fuel rs lo hi n lo
    else match rs.find? (fun r => decide (0 < r.2) && overlaps r.1 r.2 a n) with
      | some r => placeAt fuel rs lo hi n ((r.1 + r.2 + 31) / 32 * 32)
      | none => a

/-- R140: where the page list of a session lies: a free choice in the tower's interleaved region, clear of the ledger
(assumption log 61). -/
def State.placeList (s : State) (t n : Nat) : Nat × State :=
  let lo := t * 2 ^ 37
  let hi := lo + s.benchBase t
  let (k, s) := s.draw (max 1 (s.benchBase t / 32))
  let rs := s.ledgerRanges t
  (placeAt (4 * rs.length + 4) rs lo hi n (lo + 32 * k), s)

/-! ### Host prefixes (R332) -/

/-- The bytes of a prefix image. -/
def Ses.pfxBytes (x : Ses) (layers : Nat) : Nat := 64 + 512 * (layers * x.pfxlen)

/-- R332: is the prefix image good? -/
def State.prefixOk (s : State) (x : Ses) : Bool × State :=
  let l := s.layers x.stall
  let n := x.pfxBytes l
  let p := s.fld (ctxCfg x.stall (x.ctx % 64)) 23 22
  if (s.daCheck p x.pfx n false).isSome || !s.bar2Key p x.pfx n false then (false, s)
  else
    let (bs, r, s) := s.load (.sub x.stall (x.ctx % 64) false) x.pfx n
    let w := wordsOf 16 ((bs.take 64).map (·.1))
    (r == .ok && !bs.any (·.2) && wd w 0 == w32 l && wd w 1 == w32 x.pfxlen && wd w 2 == s.reg (stlR x.stall 0x24C) &&
      (w.drop 3).all (fun v => v == 0), s)

/-! ### Admission (R180, R336, R337) -/

/-- The session is admitted at tower t: its base offset, record, page list and scale entries are made; the records held
for it are applied (R327). -/
def State.letIn (s : State) (x : Ses) (t : Nat) : State :=
  let (i, s) := s.draw (s.freeRecs t).length
  let n := 8 * (s.layers x.stall * plistS x.pcap)
  let (pl, s) := s.placeList t n
  let y := { x with st := .idle, home := t, base := s.baseOf t x.be x.ctx, ledg := (s.freeRecs t).getD i 0, plist := pl,
                    pages := 0, len := 0, admitStep := s.stepNo x.stall, cstep := s.reg (stlR x.stall 0xC0), held := [] }
  let s := s.putSes y
  let s := (s.writeWords pl (List.replicate (n / 4) 0)).writeRec y 0
  let s := (s.initScale y).bump (stlR x.stall 0x260) 1
  x.held.foldl (fun s h => s.applySession h h.ord) s

/-- The session stays in admission for this step. -/
def State.keepWaiting (s : State) (x : Ses) : State :=
  let s := match s.findSes x.ctx x.sid with
    | some y => s.putSes { y with waited := y.waited + 1 }
    | none => s
  if x.be then s else s.flagErr (.stl x.stall) 24 0 0 (some x.ctx) 0 0

/-- R334: the fill left the session out of the coming step. -/
def Ses.leftOut (x : Ses) : Bool := x.be && x.fixed == some false

/-- The sessions of a stall that continue in its step. -/
def State.serving (s : State) (st : Nat) : List Ses :=
  (s.sesOf st).filter (fun x => x.st == .active && !x.leftOut && !s.blocked x)

/-- R336, R337: try to let in a waiting session; rows and the bounds are those of the step so far. -/
def State.tryAdmit (s : State) (x : Ses) (n intake rows : Nat) : State :=
  if x.ending.isSome then s
  else
    let l := s.layers x.stall
    let lcAhead := x.be && s.ses.any (fun y => y.stall == x.stall && y.st == .wait && !y.be && y.ending.isNone)
    let target := if x.be then s.beTarget x.stall (s.stall x.stall).cut false else s.lcLimit x.stall
    let late := x.pfxlen != 0 && decide (target < s.boundOf x.stall n intake rows (s.serving x.stall) + Config.copyBound (x.pfxBytes l))
    if lcAhead || late || (!x.be && (s.stall x.stall).lcBlocked) then s.keepWaiting x
    else match s.homeFor x with
      | none => s.keepWaiting x
      | some t =>
        if x.pfxlen = 0 then s.letIn x t
        else
          let (ok, s) := s.prefixOk x
          if ok then s.letIn x t
          else (s.flagErr (.stl x.stall) 25 0 0 (some x.ctx) 0 0).endSes x 3 0x0A

/-- R336, R337: admissions: LC sessions in the order taken, then BE. -/
def State.admissions (s : State) (st n intake rows : Nat) : State :=
  let w := byOrd ((s.sesOf st).filter (fun x => x.st == .wait))
  (w.filter (fun x => !x.be) ++ w.filter (fun x => x.be)).foldl (fun s x => s.tryAdmit x n intake rows) s

/-! ### Parking and eviction (R338 to R341) -/

/-- The LEN that the step that a session would take next reaches, and the frames it needs for it. -/
def State.nextNeed (s : State) (x : Ses) : Nat :=
  s.needFrames x ((x.len + s.wants x (s.fld (stlR x.stall 0x240) 15 0) + 63) / 64)

/-- The oldest LC session that waits in admission. -/
def State.oldestLc (s : State) (st : Nat) : Option Ses :=
  (byOrd ((s.sesOf st).filter (fun x => x.st == .wait && !x.be && x.ending.isNone))).head?

/-- Frames that a session holds. -/
def State.heldFrames (s : State) (x : Ses) : Nat := s.layers x.stall * (x.pages + digFrames x.pages)

/-- R339: the target tower of a stall: the most free LC frames and frames of the LC class held by BE sessions. -/
def State.lcTarget (s : State) (st ctx : Nat) : Option Nat :=
  let key (t : Nat) : Nat := s.freeCls t false ctx +
    (if s.bit (twrR t 0xA0) 0 then 0
     else sumL ((s.ses.filter (fun x => x.home == t && x.be && x.st != .wait)).map (fun x => s.heldFrames x)))
  bestOf (fun a b => decide (key b < key a)) (s.inService st)

/-- The tower in which BE sessions make room for the oldest waiting LC session: none where it is isolated by class. -/
def State.squeezed (s : State) (st : Nat) : Option Nat :=
  match s.oldestLc st with
  | none => none
  | some x => (s.lcTarget st x.ctx).bind (fun t => if s.bit (twrR t 0xA0) 0 then none else some t)

def State.park (s : State) (x : Ses) : State := s.putSes { x with st := .parked, parkedFor := 0 }

/-- R339: park every BE session of the target tower whose next step would allocate a frame. -/
def State.parkFor (s : State) (st : Nat) : State :=
  match s.squeezed st with
  | none => s
  | some t =>
    (s.ses.filter (fun x => x.home == t && x.be && x.st == .active && decide (0 < s.nextNeed x))).foldl (fun s x => s.park x) s

/-- R338, R339: parked sessions resume, oldest first, when their frames are free; none in a tower that is squeezed.
Those that stay parked are counted. -/
def State.resume (s : State) (st : Nat) : State :=
  let sq := s.squeezed st
  let l := (newestFirst ((s.sesOf st).filter (fun x => x.st == .parked))).reverse
  (l.foldl (fun (acc : State × List (Nat × Nat)) x =>
    let (s, used) := acc
    let n := s.nextNeed x
    if sq != some x.home && decide (mget 0 used x.home + n ≤ s.freeCls x.home true x.ctx) then
      (s.putSes { x with st := .active, parkedFor := 0, fixed := none }, mset 0 used x.home (mget 0 used x.home + n))
    else ((s.putSes { x with parkedFor := x.parkedFor + 1 }).bump (stlR st 0x268) 1, used)) (s, ([] : List (Nat × Nat)))).1

/-- R341: a session is evicted. -/
def State.evict (s : State) (x : Ses) : State :=
  ((s.bump (stlR x.stall 0x264) 1).flagErr (.stl x.stall) 26 0 0 (some x.ctx) 0 0).endSes x 2 7

/-- R339: may a session that is ACTIVE or PARKED be evicted: its context has more than its share of the active BE
sessions of the stall? -/
def State.overShare (s : State) (x : Ses) : Bool :=
  let act := (s.sesOf x.stall).filter (fun y => y.be && (y.st == .active || y.st == .parked) && y.ending.isNone)
  decide (s.fld (ctxCfg x.stall (x.ctx % 64)) 15 8 * act.length < 256 * act.countP (fun y => y.ctx == x.ctx))

/-- R339: evict BE sessions of tower t, one at a time, until the frames would cover r for a session of context ctx. -/
def State.evictFor : Nat → State → Nat → Nat → Nat → State
  | 0, s, _, _, _ => s
  | fuel + 1, s, t, r, ctx =>
    let l := newestFirst (s.ses.filter (fun x => x.home == t && x.be && x.st != .wait))
    let going := sumL ((l.filter (fun x => x.ending.isSome)).map (fun x => s.heldFrames x))
    let usable := ((s.tower t).frm.filter (fun (f, w) => decide (f < s.frames t) &&
      !(frmState w == 1 && (frmScrub w || frmOwner w != ctx % 256)))).length
    let dirty := s.frames t - usable
    if r ≤ s.freeCls t false ctx + dirty + going then s
    else
      let l := l.filter (fun x => x.ending.isNone && !s.blocked x)
      match l.filter (fun x => x.st == .idle) ++ l.filter (fun x => x.st != .idle && s.overShare x) with
      | [] => s
      | x :: _ => State.evictFor fuel (s.evict x) t r ctx

/-- R339: LC_PARK_EXPIRY: the oldest waiting LC session has waited LC_PARK steps and is still short. -/
def execLcParkExpiry (st : Stall) (s : State) : Host.Outcome State Fault Refusal :=
  match s.oldestLc st.val, s.squeezed st.val with
  | some x, some t =>
    if x.waited < s.fld (stlR st.val 0x244) 31 24 || s.halted st.val || (s.homeFor x).isSome || decide (2 < (s.stall st.val).part) then .next s
    else .next (State.evictFor s.ses.length s t (s.layers st.val * plistS x.pcap) x.ctx)
  | _, _ => .next s

/-- R295, R340: PARK_MAX_EXPIRY: every active BE session of a tower has been parked for PARK_MAX steps: the newest whose pair
holds no records is evicted. -/
def execParkMaxExpiry (t : Tower) (s : State) : Host.Outcome State Fault Refusal :=
  let st := s.stallOf t.val
  let l := s.ses.filter (fun x => x.home == t.val && x.be && (x.st == .active || x.st == .parked) && x.ending.isNone)
  if decide (2 < (s.stall st).part) || !l.all (fun x => x.st == .parked && decide (s.fld (stlR st 0x244) 23 16 ≤ x.parkedFor)) then .next s
  else match newestFirst (l.filter (fun x => !s.blocked x)) with
    | x :: _ => .next (s.evict x)
    | [] => .next s

/-- R336, R337: ADMISSION_TIMEOUT: a session that waited 16 × ADMIT_TMO steps ends with NO_FRAMES. -/
def execAdmissionTimeout (st : Stall) (ctx : Byte) (sid : Word) (s : State) : Host.Outcome State Fault Refusal :=
  match s.findSes ctx.toNat sid with
  | some x =>
    if x.stall = st.val && x.st == .wait && x.ending.isNone && decide (16 * s.fld (stlR st.val 0x240) 23 16 ≤ x.waited) then
      .next (s.endSes x 3 9)
    else .next s
  | none => .next s

/-! ### Part 2 as a whole (R334, R335) -/

/-- R334, R335: the rows of the step: those of LC sessions that continue and of BE sessions whose rows are fixed, then LC
splices, then by R315 the other BE sessions: joiners, those that resume, and all of them while nothing is fixed. -/
def State.batch (s : State) (st n intake : Nat) : State :=
  -- requests that cannot begin end now; those of a session admitted in this step join the next (assumption log 62)
  let may (x : Ses) : Bool := x.ending.isNone && !s.blocked x
  let s := ((s.sesOf st).filter (fun x => x.st == .idle && may x)).foldl (fun s x => s.putSes (prepQueue x.queue.length x)) s
  let l := bySlot (s.sesOf st)
  let joins (x : Ses) : Bool := x.st == .idle && x.act.isNone && !x.queue.isEmpty && may x && x.admitStep != s.stepNo st
  let runs (x : Ses) : Bool := x.st == .active && x.act.isSome && !s.blocked x
  let p0 : Plan := ⟨s.fld (stlR st 0x240) 15 0, [], 0⟩
  -- LC sequences that continue
  let (p, s) := s.takeAll p0 (l.filter (fun x => !x.be && runs x))
  -- BE sequences whose rows are fixed
  let (p, s) := s.takeAll p (l.filter (fun x => x.be && runs x && x.fixed == some true))
  let got := ((s.sesOf st).filter (fun x => x.be && x.inStep)).foldl (fun (g : List (Nat × Nat)) x =>
    mset 0 g (x.ctx % 64) (mget 0 g (x.ctx % 64) + x.rowsNow + x.drafts.length)) []
  -- LC splices, in the order taken, each within the LC limit
  let lc := sortBy (fun x y => decide ((x.queue.head?.map (·.ord)).getD 0 < (y.queue.head?.map (·.ord)).getD 0))
    (l.filter (fun x => !x.be && joins x))
  let (p, s) := lc.foldl (fun (acc : Plan × State) x =>
    let w := acc.2.wants x acc.1.room
    let xs := (acc.2.sesOf st).filter (fun y => y.inStep) ++ [x]
    if w = 0 || decide (acc.2.lcLimit st < acc.2.boundOf st n intake (acc.1.rows + w) xs) then acc
    else acc.2.takeRows acc.1 x) (p, s)
  -- other BE sequences and splices
  let be := l.filter (fun x => x.be && runs x && x.fixed.isNone) ++
    sortBy (fun x y => decide ((x.queue.head?.map (·.ord)).getD 0 < (y.queue.head?.map (·.ord)).getD 0)) (l.filter (fun x => x.be && joins x))
  let cand := be.map (fun x => (x, s.wants x p.room))
  let inNow := (s.sesOf st).filter (fun x => x.inStep)
  let lcIn := inNow.any (fun x => !x.be)
  let room (cut : Nat) : Nat := s.beRoom st n intake p.rows inNow cand (s.beTarget st cut lcIn)
  let (_, s) := s.takeAll p (s.fillBe st (room 0) (room (s.stall st).cut) got cand)
  s.modStall st (fun x => { x with lcRan := lcIn })

end Sys2Proof.Machine
end

