-- ==== Sys2Proof/Machine/Attend.lean ====
section
/-! DEFINITION. In-bank attention in basic control (R133, R143, R145 to R151): the entries of a step's positions, the pages
that the summary pass selects, the full pass over their groups and the combination of its partials. The arithmetic is that
of the units (R101, R104, R115) and of the vector engine (R223). -/

namespace Sys2Proof.Machine

/-! ### Scores -/

/-- The codes of 16 bits that some bytes hold. -/
def codes16 (bs : List Byte) : List Nat := (List.range (bs.length / 2)).map (fun i => leNat ((bs.drop (2 * i)).take 2))

/-- A segment times 64 elements of the query: MAC over its four units lane by lane, then HSUM. -/
def segDot (seg q : List Nat) : Acc3 :=
  let unit (l : List Nat) (m : Nat) : UnitSrc := widenAll false ((l.drop (16 * m)).take 16) false
  treeSum false 4 ((List.range 16).map (fun l => forN 4 (⟨0, 0, 0⟩ : Acc3) (fun a m =>
    let r := laneFma false ((unit seg m).at l).1 ((unit q m).at l).1 a.v
    ⟨r.v, a.sat + b2n r.sat, a.inf + r.inf + (unit seg m).infs l + (unit q m).infs l⟩)))

/-- The query of head h in the n-th pass: 128 codes of BF16, pre-scaled. DESIGN CHOICE (assumption log 129): the layers that
form it are the model's weights at work, so it is free. -/
def queryOf (n h : Nat) : List Nat := (List.range 128).map (fun e => (Config.query n h e).toNat)

/-- The relevance of a digest: the largest score over the 64 heads (R146). -/
def relevance (n : Nat) (digest : List Nat) : Acc3 :=
  (((List.range 64).map (fun h =>
    let q := queryOf n h
    some (joinSum false (segDot (digest.take 64) (q.take 64)) (segDot (digest.drop 64) (q.drop 64))))).foldl
      (joinMax false) none).getD ⟨noMax false, 0, 0⟩

/-- The score of an entry of four parts: the query's halves over the key, zeros over the value, along the quad (R148). -/
def entryScore (q : List Nat) (parts : List Nat) : Acc3 :=
  let zero := List.replicate 64 0
  spanSum false ((List.range 4).map (fun p =>
    segDot ((parts.drop (64 * p)).take 64) (if p = 0 then q.take 64 else if p = 1 then q.drop 64 else zero)))

/-! ### Partials (R148, R149) -/

/-- A partial of one group, deck and head. -/
structure Part where
  m : Nat
  l : Nat
  o : List Nat
deriving DecidableEq, Repr

/-- R148: the partial of some entries, each a score and its value part, taken in order. -/
def partOf (es : List (Nat × List Nat)) : Part :=
  let m := ((es.map (fun e => some (maxIn false e.1))).foldl (joinMax false) none).getD ⟨noMax false, 0, 0⟩
  let ws := es.map (fun e => ((unitExp2 (laneSub false e.1 m.v).v).v, e.2))
  ⟨m.v, ws.foldl (fun a w => (laneAdd false a w.1).v) 0,
   (List.range 128).map (fun i => ws.foldl (fun a w => (laneFma false w.1 (widen16 false (w.2.getD i 0)) a).v) 0)⟩

/-- R149: the partials of one head combined, in their order. DESIGN CHOICE (assumption log 130): the quotient is the product
with the reciprocal of the vector engine. -/
def combine (ps : List Part) : List Nat :=
  let mm := match ps with
    | [] => noMax false
    | p :: rest => rest.foldl (fun a y => (fpMinMax fp32 true a y.m).v) p.m
  let w (p : Part) : Nat := (vxExp2 (fpSub fp32 p.m mm).v).v
  let sum (f : Part → Nat) : Nat := match ps with
    | [] => 0
    | p :: rest => rest.foldl (fun a y => (fpAdd fp32 a (fpMul fp32 (f y) (w y)).v).v) (fpMul fp32 (f p) (w p)).v
  let r := (vxRcp (sum (fun p => p.l))).v
  (List.range 128).map (fun i => (fpMul fp32 (sum (fun p => p.o.getD i 0)) r).v)

/-! ### The passes over the bench -/

/-- The units of a segment of an engaged bank: 64 codes, and whether any is poisoned (R124). -/
def State.segCodes (s : State) (t : Nat) (k : Bk) (seg : Nat) : List Nat × Bool × State :=
  forN 4 (([] : List Nat), false, s) (fun (acc : List Nat × Bool × State) u =>
    let (d, bad, s) := acc.2.2.segRead t k seg u
    (acc.1 ++ codes16 d, acc.2.1 || bad, s))

/-- Consecutive segments of a bank. -/
def State.segsCodes (s : State) (t : Nat) (k : Bk) (seg n : Nat) : List Nat × Bool × State :=
  forN n (([] : List Nat), false, s) (fun (acc : List Nat × Bool × State) i =>
    let (d, bad, s) := acc.2.2.segCodes t k (seg + i)
    (acc.1 ++ d, acc.2.1 || bad, s))

/-- A digest's relevance in the summary pass, and its poison (R134, R146, R147). -/
structure Rel where
  page : Nat
  v : Nat
  bad : Bool
deriving DecidableEq, Repr

/-- The summary pass over the digests below c of one layer, with the digest frames by number. -/
def State.summaryPass (s : State) (t n c : Nat) (frames : List (Nat × Nat)) : List Rel × State :=
  let sets := s.pageGroups t frames
  let es (g : List Nat) : List SetE := g.filterMap (fun i => (frames.find? (fun f => f.1 == i)).map (fun f => s.frameSet t f.2))
  sets.foldl (fun (acc : List Rel × State) g =>
    let run (s : State) : List Rel × State := g.foldl (fun (acc : List Rel × State) i =>
      match frames.find? (fun f => f.1 == i) with
      | none => acc
      | some f => forN (min 128 (c - 128 * i)) acc (fun acc k =>
          let (d, bad, s) := acc.2.segsCodes t (acc.2.frameSet t f.2, k / 8) (2 * (k % 8)) 2
          let r := relevance n d
          (acc.1 ++ [⟨128 * i + k, r.v, bad⟩], s.unitStats t r.sat r.inf))) (([] : List Rel), s)
    let (rs, s) := run (acc.2.opened t (es g))
    (acc.1 ++ rs, s.closeSet t)) (([] : List Rel), s)

/-- R146, R147: the SEL_PAGES pages of highest relevance, poisoned ones first, ties to the lower page. -/
def topPages (n : Nat) (rs : List Rel) : List Nat :=
  ((sortBy (fun a b => if a.bad != b.bad then a.bad else if a.bad then decide (a.page < b.page)
    else ranksBefore false (a.v, a.page) (b.v, b.page)) rs).take n).map (·.page)

/-- The entries of a group of pages, page by page and token by token: page, token, four parts, poison. -/
def State.groupEntries (s : State) (t : Nat) (g : List (Nat × Nat)) : List (Nat × Nat × List Nat × Bool) × State :=
  g.foldl (fun (acc : List (Nat × Nat × List Nat × Bool) × State) f =>
    forN 64 acc (fun acc tk =>
      let (d, bad, s) := acc.2.segsCodes t (acc.2.frameSet t f.2, tk / 4) (4 * (tk % 4)) 4
      (acc.1 ++ [(f.1, tk, d, bad)], s))) (([] : List (Nat × Nat × List Nat × Bool)), s)

/-- R145, R148: the partials of one head over the entries of a group, deck by deck: those at or beyond the limit take no
part. -/
def groupParts (q : List Nat) (limit : Nat) (es : List (Nat × Nat × List Nat × Bool)) : List Part :=
  (List.range 16).map (fun d => partOf ((es.filter (fun e => e.2.1 / 4 == d && decide (64 * e.1 + e.2.1 < limit))).map
    (fun e => ((entryScore q e.2.2.1).v, e.2.2.1.drop 128))))

/-- What attention gives a query position: 64 heads of 128 FP32 words, and whether the output is poisoned (R150). -/
structure AttOut where
  heads : List (List Word)
  bad : Bool
deriving DecidableEq, Repr

/-- R145, R148 to R150: the full pass of one query position over the groups of the selected pages. -/
def State.fullPass (s : State) (t n limit : Nat) (pages : List (Nat × Nat)) : AttOut × State :=
  let gs := (s.pageGroups t pages).map (fun g => pages.filter (fun p => g.contains p.1))
  let (es, s) := gs.foldl (fun (acc : List (List (Nat × Nat × List Nat × Bool)) × State) g =>
    let (e, s) := (acc.2.opened t (g.map (fun f => acc.2.frameSet t f.2))).groupEntries t g
    (acc.1 ++ [e], s.closeSet t)) (([] : List (List (Nat × Nat × List Nat × Bool))), s)
  let bad := es.any (fun g => g.any (fun e => decide (64 * e.1 + e.2.1 < limit) && e.2.2.2))
  (⟨(List.range 64).map (fun h => (combine (es.flatMap (groupParts (queryOf n h) limit))).map w32), bad⟩, s)

/-! ### One session -/

/-- What the checks of part 4 find for a session. -/
inductive LedRes where
  | good | stale | damaged | bad | badFrame (f : Nat)
deriving DecidableEq, Repr

/-- R143: the entries js of a layer are compared as a set list is built from them: the frames of the valid ones. -/
def State.checkEnts (s : State) (x : Ses) (l : Nat) (js : List Nat) : LedRes × List (Nat × Nat) × State :=
  js.foldl (fun (acc : LedRes × List (Nat × Nat) × State) j =>
    if acc.1 != .good then acc
    else
      let (e, s) := acc.2.2.readEnt x l j
      let (r, s) := s.checkEnt x l j
      match r with
      | .valid => (.good, if e.present && !e.bad then acc.2.1 ++ [(j, e.frame)] else acc.2.1, s)
      | .stale => (.stale, acc.2.1, s)
      | .damaged => (.damaged, acc.2.1, s)
      | .badEntry => (.bad, acc.2.1, s)
      | .badFrame f => (.badFrame f, acc.2.1, s)) (.good, [], s)

/-- R133, R151: the entry of position p of a layer is written in whole segments. DESIGN CHOICE (assumption log 129): its bytes
are free. -/
def State.writeEntry (s : State) (x : Ses) (l p : Nat) : State :=
  let (e, s) := s.readEnt x l (p / 64)
  if e.bad || !e.present then s
  else
    let bs := Config.freeBytes s.free 512
    ({ s with free := s.free + 1 } : State).write0 .tally (s.frameDa x.home e.frame + 512 * (p % 64)) ((List.range 512).map (fun i => (bs.getD i 0, false)))

/-- What part 4 leaves for a session: the ledger's state, the digests to rewrite (R147), the outputs. -/
structure AttRes where
  led : LedRes
  redig : List Nat
  outs : List AttOut
deriving DecidableEq, Repr

/-- One layer of a decoding session with d drafts: selection (R146), then the full pass of each query position. -/
def State.attendLayer (s : State) (x : Ses) (d l : Nat) : AttRes × State :=
  let t := x.home
  let c := x.len / 64
  let sel := s.fld (twrR t 0xA0) 26 16
  let (n0, s) := (s.free, ({ s with free := s.free + d + 1 } : State))
  let window := (List.range ((x.len + d) / 64 + 1 - c)).map (fun i => c + i)
  let (led, rs, pick, s) : LedRes × List Nat × List Nat × State :=
    if s.bit (twrR t 0xA0) 1 && decide (sel < c) then
      let (r, fs, s) := s.checkEnts x l ((List.range (digFrames c)).map (fun i => x.pcap + i))
      if r != .good then (r, [], [], s)
      else
        let (rels, s) := (s.bump (twrR t 0xCC) 1).summaryPass t n0 c (fs.map (fun f => (f.1 - x.pcap, f.2)))
        (.good, (rels.filter (·.bad)).map (·.page), topPages sel rels, s)
    else (.good, [], List.range c, s)
  if led != .good then (⟨led, [], []⟩, s)
  else
    let (r, fs, s) := s.checkEnts x l ((List.range (c + window.length)).filter (fun k => pick.contains k || window.contains k))
    if r != .good then (⟨r, [], []⟩, s)
    else
      let (outs, s) := forN (d + 1) (([] : List AttOut), s) (fun (acc : List AttOut × State) i =>
        let (o, s) := acc.2.fullPass t (n0 + i) (x.len + i + 1) fs
        (acc.1 ++ [o], s))
      (⟨.good, rs.map (fun k => l * 65536 + k), outs⟩, s)

/-- R434: the record of a session is read as its layers begin. -/
def State.recordGood (s : State) (x : Ses) : Bool × State :=
  let (_, bad, s) := s.readWords (s.recAddr x.home x.ledg) 8
  (!bad, s)

/-- R145 to R151: layer l of a session's rows: the entries of its positions are written, and a decoding session attends in its
home tower. -/
def State.attend (s : State) (x : Ses) (l : Nat) : AttRes × State :=
  let d := x.drafts.length
  let s := forN (x.rowsNow + d) s (fun s i => s.writeEntry x l (x.len + i))
  if !x.decoding then (⟨.good, [], []⟩, s) else s.attendLayer x d l

end Sys2Proof.Machine
end

