-- ==== Sys2Proof/Machine/Expert.lean ====
section
/-! DEFINITION. Expert bundles (R269, R302, R303, R314), submissions of basic control (R311), and completions of device
reads of host memory (R282, R285, R330, R366). -/

namespace Sys2Proof.Machine

/-! ### Bundles (R302, R303) -/

/-- A bundle entry: the queue, the descriptors in its list, the list's address. -/
structure BEnt where
  q : QueueId
  n : Nat
  list : Nat
deriving DecidableEq, Repr

def qkOf (n : Nat) : Option QKind :=
  match n with
  | 0 => some .mx | 1 => some .vx | 2 => some .mv | 3 => some .sy | 4 => some .bn | _ => none

/-- R302: an entry of four words; none where it breaks the table. -/
def parseEnt (ws : List Word) : Option BEnt :=
  let w0 := wd ws 0
  let t := fget w0 28 24
  let a := fget w0 23 19
  let c := fget w0 18 15
  match qkOf (fget w0 31 29) with
  | none => none
  | some k =>
    if ht : t < 32 then
      if ha : a < 20 then
        if hc : c < 16 then
          if fget w0 14 0 = 0 && fget (wd ws 1) 31 16 == 0 && fget (wd ws 1) 15 0 != 0 && (k != .bn || (a == 0 && c == 0)) then
            some ⟨⟨⟨⟨t, ht⟩, ⟨a, ha⟩, ⟨c, hc⟩⟩, k⟩, fget (wd ws 1) 15 0, wd64 ws 2⟩
          else none
        else none
      else none
    else none

/-- R269: where the list of a queue may lie. -/
def State.listOk (s : State) (e : BEnt) : Bool :=
  let n := 64 * e.n
  let t := e.q.core.t.val
  e.list % 64 == 0 &&
  (if e.q.k = .bn then ownMem t e.list n
   else (inR0 e.list && daTower e.list == t && decide (daOff e.list + n ≤ s.benchBase t)) ||
     (ownSram e.q.core e.list n && decide (0x8000000 ≤ daOff e.list)))

/-- The descriptors of a list as its context reads them. -/
def State.listDescs (s : State) (who : Who) (e : BEnt) : List Desc :=
  let (bs, _, _) := s.load who e.list (64 * e.n)
  let d := bs.map (·.1)
  (List.range e.n).map (fun i => descOfBytes ((d.drop (64 * i)).take 64))

/-- R302, R303, R314: read and check the bundle of an EXPERT_LIST record of slot k; none where it fails. -/
def State.readBundle (s : State) (st k : Nat) (r : Desc) : Option (List BEnt) × State :=
  let da := d64 r 4
  let n := dfld r 6 15 0
  let len := 64 + 16 * n
  let who : Who := .sub st k false
  if da % 64 != 0 || n = 0 || 1024 < n || dfld r 6 31 16 != 0 || !dzero r 7 15 || !s.stallMem st da len then (none, s)
  else
    let (bs, x, s) := s.load who da len
    let ws := wordsOf (16 + 4 * n) (bs.map (·.1))
    let es := (List.range n).filterMap (fun i => parseEnt ((ws.drop (16 + 4 * i)).take 4))
    let be := s.bit (ctxCfg st k) 29
    let lcOpen := (List.range 64).any (fun c => s.ctxState st c == 1 && s.bit (ctxCfg st c) 30)
    let p := s.fld (ctxCfg st k) 23 22
    let good := x == .ok && !bs.any (·.2) && (ws.take 16).all (fun w => w == 0) && es.length == n &&
      decide ((es.map (fun e => qKey e.q)).Nodup) && es.all (fun e => (s.towersOf st).contains e.q.core.t.val && s.listOk e) &&
      !(be && lcOpen && es.any (fun e => s.runTooLong st p who e.q (s.listDescs who e)))
    (if good then some es else none, s)

/-- The number of a new submission. -/
def State.nextSub (s : State) : Nat := maxL (s.subs.map (·.1)) + 1

/-- R303: launch one EXPERT_LIST. -/
def State.launch (s : State) (st : Nat) (h : Taken) : State :=
  let k := dfld h.r 1 7 0 % 64
  let user := d64 h.r 2
  let s := s.modStall st (fun x => { x with experts := dropFirst (fun g => g == h) x.experts, redo := dropFirst (fun g => g == h) x.redo })
  match s.readBundle st k h.r with
  | (none, s) => s.answer h.pair (s.formExpert h.pair user 3 0 0 6 0 0 0 false)
  | (some es, s) =>
    let who : Who := .sub st k false
    let lists := es.map (fun e => (qKey e.q, ({ QSt.reset with
      st := 1, list := e.list, n := e.n, descs := s.listDescs who e } : QSt)))
    let x : Sub := { stall := st, slot := k, ctx := ctxNo st k, be := s.bit (ctxCfg st k) 29, expert := true, pair := h.pair,
                     user := user, lists := lists, left := es.length, exec := 0, failed := none, start := 0, started := false }
    let s := { s with subs := s.subs ++ [(s.nextSub, x)] }
    (lists.map (fun y => keyRes y.1)).foldl (fun s r => s.ensureRes r) s

/-- R303: the oldest EXPERT_LIST of each context of a stall. -/
def oldestPerCtx : List Taken → List Nat → List Taken
  | [], _ => []
  | h :: t, seen =>
    let c := dfld h.r 1 7 0
    if seen.contains c then oldestPerCtx t seen else h :: oldestPerCtx t (c :: seen)

def State.launchAll (s : State) (st : Nat) : State :=
  let l := (s.stall st).experts.filter (fun h => s.ctxState st (dfld h.r 1 7 0 % 64) == 1)
  (oldestPerCtx l []).foldl (fun s h => s.launch st h) s

/-! ### Submissions of basic control (R311) -/

def State.addBasic (s : State) (st slot : Nat) (be : Bool) : State :=
  let x : Sub := { stall := st, slot := slot, ctx := if slot < 64 then ctxNo st slot else 0, be := be, expert := false,
                   pair := 0, user := 0, lists := [], left := 0, exec := 0, failed := none, start := 0, started := false }
  { s with subs := s.subs ++ [(s.nextSub, x)] }

/-- R311: the submissions of the step: one merged one in the 1-stall configuration, else one for the LC and one for the BE
sessions of each context. -/
def State.openBasic (s : State) (st : Nat) : State :=
  let run := (s.sesOf st).filter (fun x => x.inStep)
  if run.isEmpty then s
  else if s.nstall = 0 then s.addBasic st 64 false
  else forN 64 s (fun s k =>
    let mine := run.filter (fun x => x.ctx == ctxNo st k)
    let s := if mine.any (fun x => !x.be) then s.addBasic st k false else s
    if mine.any (fun x => x.be) then s.addBasic st k true else s)

/-- The submissions of basic control of a stall end with part 4. -/
def State.closeBasic (s : State) (st : Nat) : State :=
  (s.subs.filter (fun (_, x) => x.stall == st && !x.expert)).foldl (fun s (i, _) => s.endBasic i) s

/-! ### Reads of host memory -/

/-- R282, R366: the submission of a queue is merged: an aborted read does not fail it. -/
def Actor.merged (a : Actor) : Bool := a.sub.isNone || (decide (64 ≤ a.slot) && !a.expert)

/-- R282, R322, R324: the tokens of a session could not be read: the submission that read them fails. The read serves that
session alone, which is marked unless it is the whole of the batch. -/
def State.tokenFail (s : State) (x : Ses) : State :=
  if s.nstall = 0 then
    let step := s.stepNo x.stall
    let alone := !s.ses.any (fun y => y.stall == x.stall && y.inStep && !(y.ctx == x.ctx && y.sid == x.sid))
    let s := s.stallReset x.stall
    if alone then s else s.markSes step x
  else
    let s := (s.ses.filter (fun y => y.ctx == x.ctx && y.inStep)).foldl (fun s y => s.putSes { y with inStep := false, drop := true }) s
    s.tearDown x.stall (x.ctx % 64)

/-- The bytes that a read brought go where its descriptor wants them. -/
def State.placeRead (s : State) (a : Actor) (parts : List (Nat × Nat)) (data : List Byte) : Acx × State :=
  let (r, s, _) := parts.foldl (fun (acc : Acx × State × List Byte) y =>
    let (r, s, d) := acc
    let (x, s) := s.store (a.who false) a.sub y.1 (((List.range y.2).map (fun i => d.getD i 0)).map (fun b => (b, false)))
    (if r == .ok then x else r, s, d.drop y.2)) (Acx.ok, s, data)
  (r, s)

/-- R285: a host transfer that took longer than its bound: the excess, in ns (assumption log 10), adds to LAT_OVR_CNT, and it
is an overrun. -/
def State.latOver (s : State) (p k : Nat) (d : Desc) (q : CoreId) : State :=
  let a := s.actor k
  let late := (s.time - (s.qGet k).at_) - s.mvBound a.st p q d / (56544 * max 1 (s.ckA a.st))
  if late = 0 then s
  else ((s.bump (prtR p 0x310) late).overrun a.st late).modAisle (keyRes k) (fun x =>
    { x with charge := mset 0 x.charge a.slot (mget 0 x.charge a.slot + late) })

/-- A read of host memory ends: with data, or failed; aborted: the isolation wrapper ended it (R365, R366). -/
def State.endRead (s : State) (h : HostRd) (data : Option (List Byte)) (aborted : Bool) : State :=
  let s := { s with hostRds := dropFirst (fun g => g == h) s.hostRds }
  match h.dst with
  | .mv q parts =>
    let k := qKey q
    let x := s.qGet k
    match x.cur with
    | none => s
    | some d =>
      if !x.executing then s
      else
        let a := s.actor k
        let (why, s) : Option Nat × State := match data with
          | some bs => let (r, s) := s.placeRead a parts bs; (r.cause, s)
          | none => (if aborted && a.merged then none else some 5, s.poisonParts a parts)
        let s := s.qSet k { s.qGet k with bad := x.bad.or why }
        -- the other reads of the command end first
        if s.readsOut k then s
        else
          let s := s.latOver h.port k d q.core
          match (s.qGet k).bad with
          | some c => s.failDesc k 0 c d
          | none => s
  | .toks c sid off =>
    match s.findSes c sid with
    | none => s
    | some x =>
      match data, x.act with
      | some bs, some q =>
        let ws := wordsOf (h.len / 4) bs
        let at_ (i : Nat) : Option Word := if off / 4 ≤ i && i < off / 4 + h.len / 4 then some (wd ws (i - off / 4)) else q.toks.getD i none
        s.putSes { x with act := some { q with toks := (List.range q.toks.length).map at_ } }
      | some _, none => s
      | none, _ => if aborted then s.putSes { x with drop := true } else s.tokenFail x

def State.findRead (s : State) (p tag : Nat) : Option HostRd := s.hostRds.find? (fun h => h.port == p && h.tag == tag)

/-- R282, R426: HOST_READ_COMPLETION. A completion that no read waits for changes nothing. -/
def execHostReadCompletion (p : Port) (tag : Nat) (ok : Bool) (ep : Bool) (data : List Byte) (s : State) :
    Host.Outcome State Fault Refusal :=
  match s.findRead p.val tag with
  | none => .next s
  | some h =>
    if ok && !ep then .next (s.endRead h (some data) false).settleIdle
    else
      let s := s.flagErr (.prt p.val) (if ok then 24 else 22) 0 1 none 0 0
      .next ((s.flagErr (.prt p.val) 18 0 1 none 0 0).endRead h none false).settleIdle

/-- R282: CPL_TIMEOUT: a read that times out is a failed read. -/
def execCplTimeout (p : Port) (tag : Nat) (s : State) : Host.Outcome State Fault Refusal :=
  match s.findRead p.val tag with
  | none => .next s
  | some h =>
    let s := (s.bump (prtR p.val 0x520) 1).flagErr (.prt p.val) 23 0 1 none 0 0
    .next ((s.flagErr (.prt p.val) 18 0 1 none 0 0).endRead h none false).settleIdle

/-- R365: the wrapper of a port ends every device read that is out on it. -/
def State.abortReads (s : State) (p : Nat) : State :=
  (s.hostRds.filter (fun h => h.port == p)).foldl (fun s h =>
    if s.hostRds.contains h then (s.flagErr (.prt p) 18 0 1 none 0 0).endRead h none true else s) s

/-! ### Completion (R267, R268) -/

/-- R267, R268, R285: DESCRIPTOR_COMPLETE: the descriptor in execution at a queue completes; a HOSTWR that took longer than its
bound is counted. -/
def execDescriptorComplete (q : QueueId) (s : State) : Host.Outcome State Fault Refusal :=
  let k := qKey q
  let x := s.qGet k
  match x.cur with
  | none => .next s
  | some d =>
    if !x.executing || s.readsOut k then .next s
    else if q.k = .bn then
      let t := q.core.t.val
      if (s.tower t).bench.run.isSome || (s.tower t).bench.wait.isSome then .next s
      else
        let failed := match (s.actor k).sub.bind s.subAt with | some y => y.failed.isSome | none => false
        let s := if (dfld d 0 23 20 == 3 && dbit d 1 22) || failed then s.programEnd t else s
        .next (s.complete k d).settleIdle
    else
      let s := match (if dfld d 0 23 20 == 4 && dfld d 1 31 28 == 6 then s.hostPort (s.actor k) else none) with
        | some p => s.latOver p k d q.core
        | none => s
      .next ((s.countDone k d).complete k d).settleIdle

end Sys2Proof.Machine
end

