-- ==== Sys2Proof/Machine/Steps.lean ====
section
/-! DEFINITION. The parts of a step (R333 to R352): intake, admission, allocation, layers and their checks (R143, R182), verification, commit, results and freeing, and the boundary that ends it. -/

namespace Sys2Proof.Machine

/-! ### Part 1 -/

/-- R248: the histogram steps. TEPOCH is that of the stall's first tower. -/
def State.histDue (s : State) (st : Nat) : Bool :=
  let t := (s.towersOf st).headD 0
  s.stepNo st % max 1 (s.fld (pkrR t 0x80) 23 16) == 0 || (s.stall st).histNext

/-- A step may begin: the stall is configured, nothing holds it, and what is due at its boundary does not wait for a channel. -/
def State.mayStep (s : State) (st : Nat) : Bool :=
  let x := s.stall st
  x.part == 0 && s.sstate st == 2 && !x.held && !x.resetOn && !x.reconfOn && x.reconf.isNone && s.partn.isNone &&
  !(({ s with hit := false } : State).boundaryWork st).hit

/-- A session at the beginning of a step. -/
def Ses.fresh (x : Ses) : Ses :=
  { x with inStep := false, rowsNow := 0, drafts := [], outs := [], poison := false, drop := false, accept := 0, redig := [], attn := [],
           params := [], trunc := none }

/-- R292, R312, R333: a step begins: the counter advances, the first port and slot rotate. -/
def State.beginStep (s : State) (st : Nat) : State :=
  let s := { s with ses := s.ses.map (fun (x : Ses) => if x.stall = st then x.fresh else x) }
  let s := s.setReg (stlR st 0xC0) (s.reg (stlR st 0xC0) + 1)
  let snap := s.sesOf st
  let h := s.histDue st
  s.modStall st (fun x => { x with
    part := 1, snap := snap, redo := [], startAt := s.time, reruns := 0, layer := 0, hist := h,
    rotP := (x.rotP + 1) % 4, rotS := (x.rotS + 1) % 72 })

/-- R292: STEP_INTAKE: part 1 of a step. -/
def execStepIntake (st : Stall) (samples : List Sample) (s : State) : Host.Outcome State Fault Refusal :=
  if s.mayStep st.val then .next ((s.beginStep st.val).sampleStall st.val samples) else .next s

/-- R292: IDLE_US has passed since the last step or idle sample of a stall. -/
def State.idleDue (s : State) (st : Nat) : Bool := decide ((s.stall st).idleAt + 1000 * s.fld (stlR st 0x104) 31 16 ≤ s.time)

/-- R292: IDLE_SAMPLE_TIMER: every IDLE_US the rings of a stall that runs no step are sampled; work taken begins a step. -/
def execIdleSampleTimer (st : Stall) (samples : List Sample) (s : State) : Host.Outcome State Fault Refusal :=
  if !s.idleDue st.val || !s.mayStep st.val then .next s
  else
    let n := (s.stall st.val).taken.length
    let s := s.sampleStall st.val samples
    .next (if n < (s.stall st.val).taken.length then s.beginStep st.val
           else s.modStall st.val (fun x => { x with idleAt := s.time }))

/-- R248: HISTOGRAM_STEP: a step under way whose counter is a multiple of TEPOCH counts histograms. -/
def execHistogramStep (st : Stall) (s : State) : Host.Outcome State Fault Refusal :=
  if s.inStep st.val && s.histDue st.val then .next (s.modStall st.val (fun x => { x with hist := true })) else .next s

/-! ### Part 2 -/

/-- R335, R431: part 2: the records taken are applied, then admissions and splices; in an expert stall the lists
are launched; while HALT is 1 admissions wait. -/
def State.admitStage (s : State) (i : Nat) : State :=
    let x := s.stall i
    let intake := (s.intakeNs i + 999) / 1000
    let s := s.modStall i (fun y => { y with taken := [], part := 2 })
    let s := x.taken.foldl (fun s h => s.applyRecord h) s
    if s.expertMode i then s.launchAll i
    else if s.halted i then
      ((s.sesOf i).filter (fun y => y.st == .wait && y.ending.isNone)).foldl (fun s y => s.keepWaiting y) s
    else
      let n := s.free
      let s := ({ s with free := s.free + 1 }).resume i
      let rows := sumL ((s.serving i).map (fun y => s.wants y (s.fld (stlR i 0x240) 15 0)))
      (s.admissions i n intake rows).batch i n intake

/-- R335, R431: STEP_ADMISSION: part 2 of a step. -/
def execStepAdmission (st : Stall) (s : State) : Host.Outcome State Fault Refusal :=
  if (s.stall st.val).part != 1 then .next s else .next (s.orWait (fun s => s.admitStage st.val))

/-! ### Part 3 -/

/-- Pages that hold every position below n. -/
def pagesFor (n : Nat) : Nat := (n + 63) / 64

/-- The positions that the session's rows of the step reach. -/
def Ses.reach (x : Ses) : Nat := x.len + x.rowsNow + x.drafts.length

/-- R336 to R338, R151: frames for the positions that a session writes; a BE session that lacks frames is parked
(assumption logs 136 and 137). -/
def State.allocSes (s : State) (x : Ses) : State :=
  let p := pagesFor x.reach
  let need := s.needFrames x p
  if x.be && decide (s.freeCls x.home true x.ctx < need) then
    -- a joiner that is parked keeps its request (R338)
    s.putSes { x with inStep := false, st := .parked, parkedFor := 0 }
  else
    let s := s.growTo x p
    match s.findSes x.ctx x.sid with
    | some y => (s.zeroScale y).writeRec y y.drafts.length
    | none => s

/-- R332: the entries of a prefix image are copied into the frames of a session admitted in this step. -/
def State.copyPrefix (s : State) (x : Ses) : State :=
  let s := s.growTo x (pagesFor x.pfxlen)
  match s.findSes x.ctx x.sid with
  | none => s
  | some y =>
    forN (s.layers x.stall) s (fun s l => forN x.pfxlen s (fun s t =>
      let (bs, _, s) := s.load (.sub x.stall (x.ctx % 64) false) (x.pfx + 64 + 512 * (l * x.pfxlen + t)) 512
      let (e, s) := s.readEnt y l (t / 64)
      if e.bad || !e.present then s else s.write0 .tally (s.frameDa y.home e.frame + 512 * (t % 64)) bs))

/-- Is the session admitted in this step with a prefix that the commit makes its context? -/
def State.prefixDue (s : State) (x : Ses) : Bool :=
  x.st == .idle && x.pfxlen != 0 && x.len == 0 && x.pages == 0 && x.admitStep == s.stepNo x.stall && x.ending.isNone

/-- R330: the tokens of a request whose first rows run are read from host memory. -/
def State.readTokens (s : State) (x : Ses) : State :=
  match x.act with
  | none => s
  | some q =>
    if q.rows != 0 || q.tokaddr = 0 || q.ntok = 0 then s
    else
      let p := s.fld (ctxCfg x.stall (x.ctx % 64)) 23 22
      let s := s.issueRead p q.tokaddr (4 * q.ntok) (.toks x.ctx x.sid (4 * (q.total - q.ntok)))
      if s.portMode p = .refuses then
        match s.findRead p ((s.port p).tags - 1) with
        | some h => s.endRead h none true
        | none => s
      else s

/-- R252, R333: part 3: the histograms of a voided histogram step and the miss words are zeroed, prefixes are copied, frames
are taken, and tokens are read. -/
def State.allocate (s : State) (i : Nat) : State :=
    let run (s : State) (f : State → Ses → State) : State :=
      (bySlot ((s.sesOf i).filter (fun x => x.inStep))).foldl (fun s x => f s x) s
    let ts := s.towersOf i
    let s := (s.stall i).zeroTids.foldl (fun s tid => s.zeroHist (ts.getD (tid % max 1 ts.length) 0) tid) s
    let s := s.modStall i (fun y => { y with zeroTids := [], part := 3 })
    let s := forN (s.layers i) s (fun s l => s.writeWords (s.missAddr i l) (List.replicate 8 0))
    let s := ((s.sesOf i).filter (fun x => s.prefixDue x)).foldl (fun s x => s.copyPrefix x) s
    let s := run s (fun s x => s.allocSes x)
    run s (fun s x => s.readTokens x)

/-- R333: STEP_ALLOCATE: part 3 of a step. -/
def execStepAllocate (st : Stall) (s : State) : Host.Outcome State Fault Refusal :=
  let i := st.val
  if (s.stall i).part != 2 || s.expertMode i || s.halted i then .next s else .next (s.orWait (fun s => s.allocate i))

/-! ### Part 4 -/

/-- R349, R434: a sequence ends with cause POISON. -/
def State.poisonSes (s : State) (x : Ses) (sev : Nat) : State :=
  ((s.bump (stlR x.stall 0x2AC) 1).flagErr (.stl x.stall) 18 0 sev (some x.ctx) 0 0).endSes x 3 0x0D

/-- Does a page list of the session name the frame? -/
def State.namesFrame (s : State) (x : Ses) (f : Nat) : Bool × State :=
  forN (s.layers x.stall) (false, s) (fun acc l =>
    forN (plistS x.pcap) acc (fun acc j =>
      let (e, s) := acc.2.readEnt x l j
      (acc.1 || (!e.bad && e.present && e.frame == f), s)))

/-- R143, R434: what the check of a session does. -/
def State.ledgerFault (s : State) (x : Ses) (r : LedRes) : State :=
  match r with
  | .good => s
  | .stale => (s.record (.stl x.stall) 0 2 (some x.ctx) (s.recAddr x.home x.ledg) 0 true).endSes x 3 0x0E
  | .bad => (s.ledgerEvent x.home 0x4100 1 (s.recAddr x.home x.ledg)).poisonSes x 1
  | .badFrame f =>
    let s := s.ledgerEvent x.home 0x4100 1 (s.frmAddr x.home f)
    let s := (s.ses.filter (fun y => y.home == x.home && y.st != .wait && y.ending.isNone)).foldl (fun s y =>
      let (n, s) := s.namesFrame y f
      if n then s.poisonSes y 1 else s) s
    s.setFrm x.home f freshFrm
  | .damaged =>
    let s := s.ledgerEvent x.home 0x4000 2 (s.recAddr x.home x.ledg)
    let s := (s.flagErr (.stl x.stall) 17 0 2 (some x.ctx) (s.recAddr x.home x.ledg) 0).stallReset x.stall
    match s.findSes x.ctx x.sid with
    | some y => s.endSes y 3 0x0E
    | none => s

/-- R330: a token at or above VOCAB among the rows of the step: the rows before it run, and the request ends. -/
def State.badToken (s : State) (x : Ses) : Ses :=
  match x.act with
  | none => x
  | some q =>
    if x.decoding then x
    else match (List.range x.rowsNow).find? (fun j =>
        decide (s.fld (stlR x.stall 0x248) 17 0 ≤ (((q.toks.getD (q.rows + j) none).getD 0).toNat))) with
      | some j => { x with rowsNow := j, reqEnd := some (3, 0x0B) }
      | none => x

/-- The session samples in this step (R335). -/
def Ses.samples (x : Ses) : Bool :=
  match x.act with
  | some q => !q.app && (x.decoding || decide (q.total ≤ q.rows + x.rowsNow))
  | none => false

/-- R349: n sampled tokens of a row of the command; those that it does not give are free values (assumption log 63). -/
def State.sampled (s : State) (l : List Word) (n : Nat) : List Word × State :=
  forN n (([] : List Word), s) (fun (acc : List Word × State) j =>
    match l[j]? with
    | some t => (acc.1 ++ [t], acc.2)
    | none => let (k, s) := acc.2.draw (2 ^ 18); (acc.1 ++ [w32 k], s))

/-- R333: the tokens that a session's rows sample, and the parameter entry of each (R232). -/
def State.sampleSes (s : State) (rows : List RowOut) (x : Ses) : State :=
  let r := rows.find? (fun r => r.ctx.toNat == x.ctx && r.sid == x.sid)
  let (ts, s) := if x.samples then s.sampled ((r.map (·.toks)).getD []) (x.drafts.length + 1) else ([], s)
  let invt := (x.act.map (·.invt)).getD 0
  s.putSes { x with
    outs := ts, poison := x.poison || (r.map (·.poison)).getD false, heads := (r.map (·.heads)).getD [],
    params := (List.range ts.length).map (fun j => (x.seed, invt, 8 * (s.stepNo x.stall % 2 ^ 29) + j)) }

/-- R330, R434: the layers of a session begin: a bad token cuts its rows, and its record is read. -/
def State.beginSes (s : State) (x : Ses) : State :=
  let x := s.badToken x
  let (ok, s) := (s.putSes x).recordGood x
  if ok then s else s.ledgerFault x .bad

/-- R318: the tower that takes one row of an expert whose primary copy stands at a device address. -/
def State.expertTower (s : State) (st da : Nat) : Nat :=
  let p := daTower da
  match s.copyOf da with
  | none => p
  | some m =>
    let q := daTower m
    let rows (t : Nat) : Nat := mget 0 (s.stall st).assigned t
    if (s.tower p).oos then q
    else if !(s.tower q).oos && s.bit (stlR st 0x88) 1 && decide (rows q < rows p) then q
    else p

/-- R318: the Tallyman assigns the tokens of a layer of the step, one expert after the other (assumption log 134). -/
def State.assignRows (s : State) (st : Nat) : State :=
  let s := s.modStall st (fun x => { x with assigned := [] })
  let rows := (((s.sesOf st).filter (fun x => x.inStep)).map (fun x => x.rowsNow + x.drafts.length)).foldl (· + ·) 0
  forN rows s (fun s _ =>
    (Config.experts s.free).foldl (fun s da =>
      let t := s.expertTower st da
      s.modStall st (fun x => { x with assigned := mset 0 x.assigned t (mget 0 x.assigned t + 1) })) { s with free := s.free + 1 })

/-- Layer l of one session: what its attention gives (R145 to R150), and what the check of R143 does. -/
def State.layerSes (s : State) (l : Nat) (x : Ses) : State :=
  let (r, s) := s.attend x l
  if r.led != .good then s.ledgerFault x r.led
  else s.putSes { x with
    redig := x.redig ++ r.redig.filter (fun d => !x.redig.contains d), poison := x.poison || r.outs.any (·.bad), attn := r.outs.map (·.heads) }

/-- A bench program of another owner is open in the home tower of a decoding session of the step. -/
def State.benchBusy (s : State) (st : Nat) : Bool :=
  (s.sesOf st).any (fun x => x.inStep && x.decoding && ((s.tower x.home).bench.open_ || (s.tower x.home).bench.run.isSome))

/-- The sessions of the step by slot, each as it stands by then, while part p of the step goes on. -/
def State.eachRow (s : State) (i p : Nat) (xs : List Ses) (f : State → Ses → State) : State :=
  (bySlot xs).foldl (fun s x =>
    if (s.stall i).part != p then s
    else match s.findSes x.ctx x.sid with
      | some y => if y.inStep then f s y else s
      | none => s) s

/-- The sessions that take part in the step. -/
def State.inRows (s : State) (i : Nat) : List Ses := (s.sesOf i).filter (fun x => x.inStep)

/-- STEP_LAYERS: part 4 begins: the first layer runs, the parameters of sampling are set and the lists open. The others run as
the layers before them are checked (R182). -/
def State.runLayers (s : State) (i : Nat) (rows : List RowOut) : State :=
  let s := s.eachRow i 3 (s.inRows i) State.beginSes
  let s := (s.assignRows i).eachRow i 3 (s.inRows i) (fun s x => s.layerSes 0 x)
  if (s.stall i).part != 3 then s.settleIdle
  else ((s.eachRow i 3 (s.inRows i) (fun s x => s.sampleSes rows x)).modStall i (fun y => { y with part := 4 })).openBasic i

/-- R333: STEP_LAYERS: the tokens have been read; the lists are built and the layers run; the tokens that will be sampled are
those of the command. -/
def execStepLayers (st : Stall) (rows : List RowOut) (s : State) : Host.Outcome State Fault Refusal :=
  let i := st.val
  let out := s.hostRds.any (fun h => match h.dst with | .toks c _ _ => c / 64 == i | .mv .. => false)
  if (s.stall i).part != 3 || out || s.benchBusy i then .next s
  else .next (s.orWait (fun s => s.runLayers i rows))

/-- R182: the sessions of the re-run set M of a layer, from scale point k on. -/
def State.rerunSet (s : State) (st l k : Nat) : List Ses × State :=
  ((s.sesOf st).filter (fun x => x.inStep)).foldl (fun (acc : List Ses × State) x =>
    let (hit, s) := forN (s.spl st - k) (false, acc.2) (fun (b : Bool × State) j =>
      let (w, bad, s) := b.2.readWords (b.2.scaleAddr st x.home x.ledg (l * b.2.spl st + k + j) + 60) 1
      (b.1 || (!bad && wd w 0 != 0), s))
    (if hit then acc.1 ++ [x] else acc.1, s)) (([] : List Ses), s)

/-- A quantising command runs in a tower of a stall. -/
def State.quantising (s : State) (st : Nat) : Bool :=
  s.cores.any (fun (k, c) => s.stallOf (coreTower k) == st &&
    ((c.queue 2).packing || ((c.queue 1).executing && (c.queue 1).cur.any (fun d => dfld d 1 31 26 == 0x1D))))

/-- R182, R183: a layer whose miss word is not zero is re-run for the sequences of M, within RERUN_MAX: their entries are
written again and their attention replaces that of the first run (assumption log 72). -/
def State.rerun (s : State) (i l : Nat) : State :=
  let (w, _, s) := s.readWords (s.missAddr i l) 8
  match (List.range 8).find? (fun k => wd w k != 0) with
  | none => s
  | some k =>
    if s.fld (stlR i 0x218) 23 16 ≤ (s.stall i).reruns then s.bump (stlR i 0x228) 1
    else
      let (m, s) := s.rerunSet i l k
      if m.isEmpty then s
      else ((s.bump (stlR i 0x224) 1).modStall i (fun x => { x with reruns := x.reruns + 1 })).eachRow i 4 m (fun s x => s.layerSes l x)

/-- R182: the check of layer l behind its fence, then the layer that follows it. -/
def State.checkLayer (s : State) (i l : Nat) : State :=
  let s := ((s.towersOf i).foldl (fun s t => s.drainTower t) s).rerun i l
  if (s.stall i).part != 4 then s.settleIdle
  else
    let s := s.modStall i (fun x => { x with layer := l + 1 })
    let s := if l + 1 < s.layers i then (s.assignRows i).eachRow i 4 (s.inRows i) (fun s x => s.layerSes (l + 1) x) else s
    if (s.stall i).part != 4 then s.settleIdle else s

/-- R182, R183: LAYER_CHECK: the layers are checked in order, once no quantising command runs. -/
def execLayerCheck (st : Stall) (layer : Byte) (s : State) : Host.Outcome State Fault Refusal :=
  let i := st.val
  let l := layer.toNat
  if (s.stall i).part != 4 || s.expertMode i || s.layers i ≤ l || (s.stall i).layer != l || s.quantising i || s.benchBusy i then .next s
  else .next (s.orWait (fun s => s.checkLayer i l))

/-! ### Part 5 (R345, R349) -/

/-- The drafts accepted: the largest a with t (j - 1) = q j for every j from 1 to a. -/
def acceptLen : List Word → List Word → Nat
  | t :: ts, q :: qs => if t = q then 1 + acceptLen ts qs else 0
  | _, _ => 0

def Ses.isStop (x : Ses) (t : Word) : Bool :=
  (t == x.stop0 && x.stop0 != 0xFFFFFFFF#32) || (t == x.stop1 && x.stop1 != 0xFFFFFFFF#32)

/-- R349: accepted drafts, delivered tokens, and how the request ends: STOP, MAXNEW or not. -/
def Ses.judge (x : Ses) (q : Rq) : Nat × List Word × Option (Nat × Nat) :=
  let a := acceptLen x.outs x.drafts
  let ts := x.outs.take (a + 1)
  match (List.range ts.length).find? (fun j => x.isStop (ts.getD j 0) || q.delivered + j + 1 == q.maxnew) with
  | some j => (j, ts.take (j + 1), some (0, if x.isStop (ts.getD j 0) then 1 else 2))
  | none => (a, ts, none)

def State.verifySes (s : State) (x : Ses) : State :=
  match x.act with
  | none => s
  | some q =>
    if x.poison then
      (s.putSes { x with outs := [] }).poisonSes { x with outs := [] } 0
    else if x.samples then
      let (a, ts, e) := x.judge q
      if x.drop || x.ending.isSome then
        let s := s.putSes { x with outs := [] }
        if e.isSome && (match x.cancel with | some (c, _) => c == 1 | none => false) then s.bump (stlR x.stall 0x270) 1 else s
      else
        let s := s.putSes { x with accept := a, outs := ts, reqEnd := e }
        if a = 0 then s else s.bump (stlR x.stall 0x278) a
    else if q.app && q.total ≤ q.rows + x.rowsNow && x.reqEnd.isNone then s.putSes { x with reqEnd := some (0, 3) }
    else s

/-- A queue of a tower of the stall executes a descriptor. -/
def State.enginesBusy (s : State) (st : Nat) : Bool :=
  s.cores.any (fun (k, c) => s.stallOf (coreTower k) == st && c.q.any (fun (_, q) => q.executing)) ||
  (s.towersOf st).any (fun t => (s.tower t).bnq.executing)

/-- R349: part 5: the drafts of every session of the step are verified. -/
def State.verify (s : State) (i : Nat) : State :=
  let s := s.closeBasic i
  let s := (bySlot (s.inRows i)).foldl (fun s x => s.verifySes x) s
  s.modStall i (fun y => { y with part := 5 })

/-- R182, R349: STEP_VERIFY: once the lists of part 4 have ended and every layer stands. -/
def execStepVerify (st : Stall) (s : State) : Host.Outcome State Fault Refusal :=
  let i := st.val
  if (s.stall i).part != 4 || (s.stall i).layer < s.layers i || s.enginesBusy i then .next s
  else .next (s.orWait (fun s => s.verify i)).settleIdle

/-! ### Part 6 (R144, R147, R151, R179, R342, R344, R346) -/

/-- R144: the digests of the pages that a new LEN completes. -/
def State.digestsTo (s : State) (x : Ses) (len : Nat) : State :=
  forN (len / 64 - x.len / 64) s (fun s j => forN (s.layers x.stall) s (fun s l => s.writeDigest x l (x.len / 64 + j)))

/-- R344, R346: a cancelled request ends; the session is IDLE with no pending token, truncated where TRUNC asks. -/
def State.cancelSes (s : State) (x : Ses) : State :=
  match x.act, x.cancel with
  | some q, some (a, b) =>
    let y := { x with act := none, cancel := none, trunc := none, pend := none, heads := [], outs := [], reqEnd := none,
                      st := .idle, len := min x.len (x.trunc.getD x.len), fin := x.fin ++ [(q, a, b)] }
    let s := s.putSes y
    if y.len = x.len then s else s.writeRec y 0
  | _, _ => s

/-- R342: a commit that makes a session full ends its request. -/
def State.fullEnd (s : State) (x : Ses) : Ses × State :=
  if x.full then
    let e := match x.reqEnd with
      | some (0, 3) => some (0, 4)
      | some e => some e
      | none => some (0, 4)
    ({ x with reqEnd := e }, s.flagErr (.stl x.stall) 22 0 0 (some x.ctx) 0 0)
  else (x, s)

/-- The commit of one session that ran: LEN, digests, scale entries, the record. -/
def State.commitSes (s : State) (x : Ses) : State :=
  match x.act with
  | none => s
  | some q =>
    let len := x.len + (if x.decoding then x.outs.length else x.rowsNow)
    let s := s.digestsTo x len
    let s := x.redig.foldl (fun s d => s.writeDigest x (d / 65536) (d % 65536)) s
    let s := s.updateScale x
    let q := { q with rows := if x.decoding then q.rows else q.rows + x.rowsNow }
    let y := { x with len := len, cstep := s.reg (stlR x.stall 0xC0), act := some q, pend := x.outs.getLast?, redig := [] }
    let (y, s) := s.fullEnd y
    (s.putSes y).writeRec y 0

/-- R332: the commit of the step that admits a host prefix. -/
def State.commitPrefix (s : State) (x : Ses) : State :=
  let s := s.digestsTo x x.pfxlen
  let y := { x with len := x.pfxlen, cstep := s.reg (stlR x.stall 0xC0) }
  (s.putSes y).writeRec y 0

/-- R151, R179: part 6: behind a fence, the sessions of the step are committed; cancelled requests end. -/
def State.commit (s : State) (i : Nat) : State :=
    let s := (s.towersOf i).foldl (fun s t => s.drainTower t) s
    let s := (bySlot (s.sesOf i)).foldl (fun s x =>
      if x.cancel.isSome then s.cancelSes x
      else if x.inStep && !x.drop && x.ending.isNone then s.commitSes x
      else if x.st == .idle && x.pfxlen != 0 && x.len == 0 && x.admitStep == s.stepNo i && x.ending.isNone then s.commitPrefix x
      else s) s
    s.modStall i (fun y => { y with
      part := 6, redo := [], resets := 0, build := y.build || y.hist, histNext := false })

/-- R151: STEP_COMMIT: part 6 of a step. -/
def execStepCommit (st : Stall) (s : State) : Host.Outcome State Fault Refusal :=
  if (s.stall st.val).part != 5 then .next s else .next (s.orWait (fun s => s.commit st.val))

/-! ### Part 7 (R294, R350 to R352) -/

/-- The records of one session in the order of R352. -/
def State.emitSes (s : State) (x : Ses) : State :=
  let k := s.sesPair x
  let put (s : State) (r : Desc) : State := s.modRing k (fun y => { y with batch := y.batch ++ [r] })
  -- the answer to an admitted OPEN_SESSION
  let (x, s) : Ses × State :=
    if x.st != .wait && x.tadm = 0 && x.admitStep == s.stepNo x.stall && x.slot < 16384 && !(x.ending.isSome && x.admitStep = 0) then
      ({ x with tadm := s.time }, put s (s.formTokens x x.user 0 0 0 true false false x.len []))
    else (x, s)
  -- the tokens of the step
  let (x, s) : Ses × State := match x.act with
    | some q =>
      if x.outs.isEmpty || x.drop then (x, s)
      else
        let n := x.outs.length
        let r := s.formTokens x q.user n x.accept x.drafts.length false (q.delivered == 0) x.reqEnd.isSome (x.len + 1 - n) x.outs
        let q := { q with delivered := q.delivered + n, tfirst := if q.delivered = 0 then s.time else q.tfirst }
        ({ x with act := some q, delivered := min (x.delivered + n) 0xFFFFFFFF }, put s r)
    | none => (x, s)
  let done (s : State) (f : Rq × Nat × Nat) : State := (put s (s.formReqDone x f.1 f.2.1 f.2.2)).noteFirst x f.1
  match x.ending with
  | some (a, b) =>
    let (rq, d) := s.endRecs x a b
    let s := put (rq.foldl (fun s f => done s f) s) d
    s.putSes { x with act := none, cancel := none, queue := [], held := [], fin := [] }
  | none =>
    let s := x.fin.foldl (fun s f => done s f) s
    match x.act, x.reqEnd with
    | some q, some (a, b) =>
      (done s (q, a, b)).putSes { x with fin := [], act := none, reqEnd := none, outs := [], st := .idle }
    | _, _ => s.putSes { x with fin := [], reqEnd := none, outs := [] }

/-- May part 7 begin: after part 6; after part 2 in an expert stall whose submissions have ended, and while HALT is 1. -/
def State.mayEmit (s : State) (st : Nat) : Bool :=
  let p := (s.stall st).part
  p == 6 || (p == 2 && ((s.expertMode st && !s.subs.any (fun (_, x) => x.stall == st)) || (!s.expertMode st && s.halted st)))

/-- The read of the consumer word of ring k before a batch: as the command gives it, or a free value (assumption log 22). -/
def State.consOf (s : State) (rooms : List RingRead) (k : Nat) : Option Nat × State :=
  match rooms.find? (fun r => r.p.val * 4 + r.n.val == k) with
  | some r => (r.rcons.map (·.toNat), s)
  | none => s.readCons

/-- R294, R350 to R352: part 7: cancelled requests end, the records of the sessions are formed by slot, and each ring pair
of the stall gets one batch. -/
def State.emitStep (s : State) (i : Nat) (rooms : List RingRead) : State :=
  let s := (s.sesOf i).foldl (fun s x => if x.cancel.isSome then s.cancelSes x else s) s
  let s := (bySlot (s.sesOf i)).foldl (fun s x => s.emitSes x) s
  let s := forN 16 s (fun s k =>
    if s.ringStall k = i then
      let b := (s.ring k).batch
      let (w, s) := (s.modRing k (fun y => { y with batch := [] })).consOf rooms k
      s.writeBatch k b w
    else s)
  s.modStall i (fun y => { y with part := 7, redo := [] })

/-- R294: STEP_EMIT: one batch for each ring pair of the stall. -/
def execStepEmit (st : Stall) (rooms : List RingRead) (s : State) : Host.Outcome State Fault Refusal :=
  if !s.mayEmit st.val then .next s else .next (s.emitStep st.val rooms)

/-! ### Part 8 and the boundary -/

/-- R333, R341, R347: part 8: the sessions that end in the step are freed. -/
def State.freeStep (s : State) (i : Nat) : State :=
  (((s.sesOf i).filter (fun x => x.ending.isSome)).foldl (fun s x => s.dropSes x) s).modStall i (fun y => { y with part := 8 })

/-- R333: STEP_FREE: part 8 of a step. -/
def execStepFree (st : Stall) (s : State) : Host.Outcome State Fault Refusal :=
  if (s.stall st.val).part != 7 then .next s else .next (s.orWait (fun s => s.freeStep st.val))

/-- The stretch step of a base die: of its own temperature, or 2 while the hottest deck stands above 95 °C (R450). -/
def Tw.slow (x : Tw) : Nat := max x.stretch (if x.dstep = 6 then 2 else 0)

/-- R452: charge the running step of a stall for what heat has lost it since the epoch began: the overlap in µs times
r − 1 of its tower with the largest r, of which r − 1 = m / (8 − m) with m the larger of the two steps. -/
def State.chargeHeat (s : State) (st : Nat) : State :=
  let m (t : Nat) : Nat := max (s.tower t).dstep (s.tower t).slow
  let t := (s.towersOf st).foldl (fun (b : Nat) t => if m b < m t then t else b) ((s.towersOf st).headD 0)
  let x := s.stall st
  let ns := s.time - max x.startAt s.wgh.epochAt
  let us := ns * m t / ((8 - m t) * 1000)
  if x.part = 0 || us = 0 then s
  else (s.modStall st (fun y => { y with ext := y.ext + us })).bump (thmR t 0xA8) us

/-- R321: how the step that ends compares with LC_BOUND_US. -/
def State.judgeStep (s : State) (st : Nat) : State :=
  let us := (s.time - (s.stall st).startAt) / 1000
  let lim := s.fld (stlR st 0x8C) 31 16
  let late := (s.stall st).lcRan && decide (lim * 1000 < s.time - (s.stall st).startAt)
  let s := if late then s.bump (stlR st 0xC4) 1 else s
  s.modStall st (fun x => { x with
    cut := if late then us - lim else 0, lcBlocked := if late then true else if us ≤ lim then false else x.lcBlocked })

/-- R334, R339: what parts 7 and 8 fix for the coming step: the BE sessions that are parked for the oldest waiting LC session,
and, of the others that continue, those that the fill of R315 takes. The fill is that of the next step's batch, with what
waits in the queues of the sessions and nothing new sampled (assumption log 137). -/
def State.fixRows (s : State) (st : Nat) : State :=
  if s.expertMode st || s.halted st then s
  else
    let s := s.parkFor st
    let s : State := { s with
      free := s.free + 1, ses := s.ses.map (fun (x : Ses) => if x.stall = st then { x with fixed := none } else x) }
    let next := (s.beginStep st).batch st (s.free - 1) ((s.intakeNs st + 999) / 1000)
    { s with ses := s.ses.map (fun (x : Ses) =>
        if x.stall = st && x.st == .active then { x with fixed := some ((next.findSes x.ctx x.sid).any (·.inStep)) } else x) }

/-- R51, R325, R467: STEP_BOUNDARY: the end of a step that has freed its frames, or the boundary at which an idle stall
stands. -/
def execStepBoundary (st : Stall) (s : State) : Host.Outcome State Fault Refusal :=
  let i := st.val
  let x := s.stall i
  if x.part = 8 then
    let s := (s.chargeHeat i).judgeStep i
    let s := (s.towersOf i).foldl (fun s t => s.flushTower t) s
    let s := s.modStall i (fun y => { y with
      part := 0, snap := [], ext := 0, carry := 0, lcRan := false, hist := false, idleAt := s.time })
    .next (s.fixRows i).settleIdle
  else .next s.settleIdle

end Sys2Proof.Machine
end

