-- ==== Sys2Proof/Machine/Timers.lean ====
section
/-! DEFINITION. Commands of serving outside the parts of a step: the records of R299 taken one by one, the timers of the
result rings (R295, R297), the refresh of idle records (R354), scrub programs (R154, R155), and the ends of a stall reset
and of a reconfiguration (R308, R323, R324). -/

namespace Sys2Proof.Machine

/-! ### Intake records -/

/-- R336: OPEN_SESSION. -/
def execOpenSession (p : Port) (n : Pair) (r : Desc) (s : State) : Host.Outcome State Fault Refusal := .next (s.recordCmd p n 1 r)
/-- R335: SUBMIT. -/
def execSubmit (p : Port) (n : Pair) (r : Desc) (s : State) : Host.Outcome State Fault Refusal := .next (s.recordCmd p n 2 r)
/-- R327: APPEND. -/
def execAppend (p : Port) (n : Pair) (r : Desc) (s : State) : Host.Outcome State Fault Refusal := .next (s.recordCmd p n 3 r)
/-- R348: DRAFT. -/
def execDraft (p : Port) (n : Pair) (r : Desc) (s : State) : Host.Outcome State Fault Refusal := .next (s.recordCmd p n 4 r)
/-- R344, R346: CANCEL. -/
def execCancel (p : Port) (n : Pair) (r : Desc) (s : State) : Host.Outcome State Fault Refusal := .next (s.recordCmd p n 5 r)
/-- R347: CLOSE. -/
def execClose (p : Port) (n : Pair) (r : Desc) (s : State) : Host.Outcome State Fault Refusal := .next (s.recordCmd p n 6 r)
/-- R303: EXPERT_LIST. -/
def execExpertList (p : Port) (n : Pair) (r : Desc) (s : State) : Host.Outcome State Fault Refusal := .next (s.recordCmd p n 16 r)

/-! ### Result rings -/

/-- R295: IDLE_US has passed since the stall of pair k was idle and since its consumer word was last read. -/
def State.retryDue (s : State) (k : Nat) : Bool :=
  let st := s.ringStall k
  decide (max (s.stall st).idleAt (s.ring k).consAt + 1000 * s.fld (stlR st 0x104) 31 16 ≤ s.time)

/-- R295: RESULT_HOLD_RETRY: every IDLE_US, while no step of the pair's stall runs, the consumer word is read and held records
are written as room allows. -/
def execResultHoldRetry (p : Port) (n : Pair) (rcons : Option Word) (s : State) : Host.Outcome State Fault Refusal :=
  let k := p.val * 4 + n.val
  if s.inStep (s.ringStall k) || !s.retryDue k || ((s.ring k).held.isEmpty && (s.ring k).lost == 0) then .next s
  else .next (s.writeBatch k [] (rcons.map (·.toNat)))

/-- R297: MSIX_MODERATION: MOD_US has passed since the oldest record not yet signalled; before that nothing happens. -/
def execMsixModeration (p : Port) (n : Pair) (s : State) : Host.Outcome State Fault Refusal :=
  let k := p.val * 4 + n.val
  let r := s.ring k
  .next (if r.unsig = 0 || decide (s.time < r.unsigAt + 1000 * s.fld (rngR k 0x34) 31 16) then s else s.raiseRing k)

/-- R31, R297: MSIX_VECTOR_UNMASK: the host writes entry e.v of the vector table in BAR4: address, data and mask bit. A pending
vector is delivered when it is unmasked. A port that takes no memory requests drops the write (R361). -/
def execMsixVectorUnmask (p : Port) (e : VecEntry) (s : State) : Host.Outcome State Fault Refusal :=
  let k := p.val * 256 + e.v.toNat
  if s.portMode p.val = .normal then
    let s := { s with rf := { s.rf with msix := mset (0, 0) s.rf.msix k (e.addr.toNat, e.data),
                                        vecOpen := if e.mask then sdel s.rf.vecOpen k else sadd s.rf.vecOpen k } }
    .next (s.deliverVec p.val e.v.toNat)
  else .next (s.portEvent p.val 0x2000 0 0)

/-! ### Idle records -/

/-- R354: STEP_RECORD_REFRESH: a record whose STEP fell 2³⁰ steps behind the counter is rewritten to it. -/
def execStepRecordRefresh (t : Tower) (r : Fin 16384) (s : State) : Host.Outcome State Fault Refusal :=
  match s.ses.find? (fun (x : Ses) => x.home == t.val && x.ledg == r.val && (x.st == .idle || x.st == .parked)) with
  | none => .next s
  | some x =>
    let n := s.reg (stlR x.stall 0xC0)
    if (n - x.cstep).toNat < 2 ^ 30 then .next s
    else
      let y := { x with cstep := n }
      .next ((s.putSes y).writeRec y 0)

/-! ### Scrub programs (R154, R155) -/

/-- The DIRTY frames of a channel group, from a free place on, at most n (assumption log 23). -/
def State.dirtyAt (s : State) (t cg n : Nat) : List Nat × State :=
  let k := s.frames t / 128
  let (o, s) := s.draw k
  let all := (List.range k).map (fun i => (i + o) % k * 128 + cg)
  ((all.filter (fun f => frmState (s.frm t f) == 1)).take n, s)

/-- The sets of a scrub program: its frames packed on distinct channel groups, at most MAX_BANKS to a set. -/
def State.scrubSets (s : State) (t : Nat) (fs : List Nat) : List (List Nat) :=
  (packSets (min 16 (s.maxBanks t)) (fs.map (fun f => (f, f % 128)))).map (fun g => g.map (·.1))

/-- R155: SCRUB_PROGRAM_ISSUE: after the free phase of a step or between steps, when the sequencer is idle, a program of
SETLOAD and RUN pairs over DIRTY frames opens; PROG_MAX bounds its descriptors. -/
def execScrubProgramIssue (t : Tower) (s : State) : Host.Outcome State Fault Refusal :=
  let t := t.val
  let w := s.tower t
  let part := (s.stall (s.stallOf t)).part
  let n := s.fld (bsqR t 0x80) 15 8 / 2
  if (part != 0 && part != 8) || w.bench.open_ || w.bench.run.isSome || w.oos || !w.built ||
     s.sstate (s.stallOf t) != 2 then .next s
  else
    let (fs, s) : List Nat × State := forN 128 (([] : List Nat), s) (fun (acc : List Nat × State) cg =>
      let (l, s) := acc.2.dirtyAt t cg n
      (acc.1 ++ l, s))
    let gs := (s.scrubSets t fs).take n
    if gs.isEmpty then .next s
    else
      let s := s.modTower t (fun (x : Tw) => { x with scrub := gs.flatten.foldl sadd [] })
      .next (s.modBench t (fun b => { b with open_ := true, ctx := 0, slot := tallySlot, cmds := 2 * gs.length }))

/-- R155: the RUN of a scrub program: ST writes zero, with fresh check bits, to every unit of the rows of its set. -/
def State.scrubRun (s : State) (t : Nat) (fs : List Nat) : State :=
  let es := fs.map (s.frameSet t)
  (((setBanks es).foldl (fun s k => forN 64 (s.wrote t k) (fun s u =>
    s.putUnit (unitKey t (s.bkChan t k) (bkB k) k.1.row u) (List.replicate 32 0) false)) (s.opened t es)).closeSet t).countRun t
    (200 * (cdiv es.length (s.actWin t) - 1) + 128)

/-- R154: the frames of a scrub program are zero: CLEAN, with SCRUB 0. -/
def State.scrubbed (s : State) (t : Nat) : State :=
  let fs := (s.tower t).scrub
  let s := fs.foldl (fun s f => s.setFrm t f (mkFrm (frmGen (s.frm t f)) (frmOwner (s.frm t f)) false 0)) s
  ((s.bump (twrR t 0xC0) fs.length).modTower t (fun (x : Tw) => { x with scrub := [] })).programEnd t

/-- R112, R154, R155: SCRUB_COMPLETE: the RUNs have ended, and the program with them. -/
def execScrubComplete (t : Tower) (s : State) : Host.Outcome State Fault Refusal :=
  let t := t.val
  let gs := s.scrubSets t (s.tower t).scrub
  if gs.isEmpty then .next s
  else .next (s.orWait (fun s => ((gs.foldl (fun s g => s.scrubRun t g) s).scrubbed t).settleIdle))

/-! ### Ends of resets and reconfigurations -/

/-- R324: after SRST_MAX stall resets with no step committed the stall stops serving. -/
def State.stopServing (s : State) (st : Nat) : State :=
  let s := (s.ses.filter (fun (x : Ses) => x.stall == st)).foldl (fun s x => s.endNow x 3 0x12 none) s
  (s.setSstate st 4).flagErr (.stl st) 29 0 2 none 0 0

/-- R323, R324, R431: STALL_RESET_DONE. -/
def execStallResetDone (st : Stall) (s : State) : Host.Outcome State Fault Refusal :=
  let i := st.val
  let x := s.stall i
  if !x.resetOn then .next s
  else
    let s := s.modStall i (fun (y : Stl) => { y with resetOn := false })
    let s := { s with rf := { s.rf with brst := sdel s.rf.brst (0x10 + i) } }
    let s := if s.fld (stlR i 0x88) 10 8 ≤ x.resets then s.stopServing i else s.setSstate i 2
    let s := if (s.stall i).integ then s.haltStall i else s
    .next s.settleIdle

/-- R308: RECONFIGURATION: at its boundary the stall begins the reconfiguration that was asked for; a partition change
begins when every stall stands at its boundary. -/
def execReconfiguration (st : Stall) (s : State) : Host.Outcome State Fault Refusal :=
  .next (if s.atBoundary st.val then s.settleIdle else s)

/-- R308 phase 6 of a stall. -/
def State.reconfDone (s : State) (st : Nat) : State :=
  let s := ((s.setSstate st 2).modStall st (fun (x : Stl) => { x with reconfOn := false })).setFld (stlR st 0x84) 25 24 1
  if (s.stall st).integ then s.haltStall st else s

/-- R308: RECONFIGURATION_DONE: phase 6; the last stall of a partition change ends it. -/
def execReconfigurationDone (st : Stall) (s : State) : Host.Outcome State Fault Refusal :=
  let i := st.val
  if !(s.stall i).reconfOn then .next s
  else
    let s := s.reconfDone i
    let s := if s.partnOn && (List.range s.stalls).all (fun j => !(s.stall j).reconfOn) then
        ({ s with partn := none, partnOn := false } : State).setFld (devR 0xD0) 5 4 1
      else s
    .next s.settleIdle

end Sys2Proof.Machine
end

