-- ==== Sys2Proof/Machine/Ports.lean ====
section
/-! DEFINITION. The host ports: links and bifurcation (R356 to R358), configuration requests (R359, R361), unsupported
requests (R360), port events and the isolation wrapper (R363 to R366), and block-level resets (R407, R408). -/

namespace Sys2Proof.Machine

/-! ### Bifurcation (R356, R357) -/

/-- The ports present under MGT.PORTCFG.BIF. -/
def State.ports (s : State) : Nat := match s.fld (mgtR 0x84) 1 0 with
  | 1 => 2
  | 2 => 1
  | _ => 4

/-- The lanes of a present port. -/
def State.lanes (s : State) : Nat := 16 / s.ports

def State.present (s : State) (p : Nat) : Bool := decide (p < s.ports)

def State.linkUpNow (s : State) (p : Nat) : Bool := s.bit (prtR p 0x500) 0

/-! ### Configuration space (R359; the layout is that of PCI Express, assumption log 64) -/

/-- The reset value of a configuration word. -/
def cfgReset (i : Nat) : Word :=
  match i with
  | 0 => 0x00321F3C | 1 => 0x00100000 | 2 => 0x120000A0
  | 4 => 0x4 | 6 => 0xC | 8 => 0x4
  | 11 => 0x00321F3C | 13 => 0x40
  | 16 => 0x00035001                       -- power management: D0 and D3hot, No_Soft_Reset 0
  | 20 => 0x00FF7011 | 21 => 0x4 | 22 => 0x8004   -- MSI-X: 256 vectors in BAR4
  | 28 => 0x00020010 | 29 => 0x10008022 | 30 => 0x00002810
  | 37 => 0x0003001F                       -- completion timeout ranges, disable; 10-bit tags
  | 64 => 0x00010001                       -- AER
  | 70 => 0x000000A0
  | _ => 0

/-- The bits of a configuration word that a write takes. -/
def cfgMask (i : Nat) : Word :=
  match i with
  | 1 => 0x00000546 | 4 => 0xFC000000 | 5 => 0xFFFFFFFF | 7 => 0xFFFFFFC0 | 8 => 0xFFFF0000 | 9 => 0xFFFFFFFF
  | 3 => 0x000000FF | 15 => 0x000000FF
  | 17 => 0x00000003 | 20 => 0xC0000000 | 30 => 0x00007FFF | 38 => 0x0000101F
  | 66 => 0xFFFFFFFF | 67 => 0xFFFFFFFF | 69 => 0xFFFFFFFF | 70 => 0x00000140
  | _ => 0

/-- The sticky AER words: status, masks, severity, control and header log. -/
def cfgSticky (i : Nat) : Bool := decide (65 ≤ i) && decide (i ≤ 74)

def State.cfg (s : State) (p i : Nat) : Word := mget (cfgReset i) (s.port p).cfg i
def State.setCfg (s : State) (p i : Nat) (w : Word) : State :=
  s.modPort p (fun x => { x with cfg := mset (cfgReset i) x.cfg i w })

/-! ### Port events (R298, R363 to R365) -/

/-- R56, R363: transactions that the port opened. -/
def openedBy (p : Nat) (x : Txn) : Bool :=
  match x.src with
  | some (.port q _) => q.val == p
  | _ => false

/-- R306: the pending owner of a stall: the owner in effect as changed by what is accepted and not yet in effect. -/
def State.pendingOwner (s : State) (st : Nat) : Nat := (s.stall st).owners.getLastD (s.owner st)

/-- An accepted change of owner waits for the step boundary. -/
def State.pushOwner (s : State) (st p : Nat) : State :=
  s.modStall st (fun x => { x with owners := x.owners ++ [p] })

/-- R363: the effects of a port event; with keepLink those of an FLR. -/
def State.portEffects (s : State) (p : Nat) (keepLink : Bool) : State :=
  let s := s.modPort p (fun x => { x with
    cfg := x.cfg.filter (fun (i, _) => cfgSticky i), isolating := true, flr := keepLink })
  let s := forN 8 s (fun s w =>
    (((s.setReg (prtR p (0x80 + 8 * w)) 0).setReg (prtR p (0x84 + 8 * w)) 0)).setHeld (prtR p (0x84 + 8 * w)) none)
  let s := forN 4 s (fun s n => if s.ringEn (4 * p + n) then s.ringOff (4 * p + n) else s)
  let s := s.setCopy p 1 0
  let s := s.rollWhere (fun _ x => openedBy p x)
  let s := forN 4 s (fun s st => if s.pendingOwner st = p then s.pushOwner st 7 else s)
  let s := forN 4 s (fun s st => s.drainPort p st)
  let s := { s with bar2 := s.bar2.filter (fun r => r.port != p || r.wr.isSome) }
  let mine (v : Nat) : Bool := v / 256 == p
  let s := { s with rf := { s.rf with vecOpen := s.rf.vecOpen.filter (fun v => !mine v),
                                      vecPend := s.rf.vecPend.filter (fun v => !mine v),
                                      msix := s.rf.msix.filter (fun e => !mine e.1) } }
  if keepLink then s else s.setReg (prtR p 0x500) 0

/-- A port event by kind: 0 PERSTp_N, 1 hot reset, 2 link down, 3 FLR. It is counted in the PRT and RSC pages. -/
def State.portReset (s : State) (p kind : Nat) : State :=
  let s := (s.bump (prtR p (0x510 + 4 * kind)) 1).bump (rscR (0x140 + 16 * p + 4 * kind)) 1
  ((s.portEffects p (kind == 3)).flagErr (.prt p) 19 0 0 none 0 0).settleIdle

/-- R363: PERST: the assertion of PERSTp_N; the pin of an absent port is ignored. Before D6 is released only its level and
its count matter. -/
def execPerst (p : Port) (s : State) : Host.Outcome State Fault Refusal :=
  let i := p.val
  if (s.port i).perst || !s.present i then .next s
  else
    let s := s.modPort i (fun x => { x with perst := true })
    .next (if s.rst.ev < 4 then s.bump (rscR (0x140 + 16 * i)) 1 else s.portReset i 0)

/-- R361: PERST_DEASSERT: the port may train its link. -/
def execPerstDeassert (p : Port) (s : State) : Host.Outcome State Fault Refusal :=
  .next (if (s.port p.val).perst then s.modPort p.val (fun x => { x with perst := false, perstAt := s.time }) else s)

/-- R363: HOT_RESET arrives over a link that is up. -/
def execHotReset (p : Port) (s : State) : Host.Outcome State Fault Refusal :=
  .next (if s.linkUpNow p.val then s.portReset p.val 1 else s)

/-- R363: PORT_LINK_DOWN: the link goes from up to down. -/
def execPortLinkDown (p : Port) (s : State) : Host.Outcome State Fault Refusal :=
  .next (if s.linkUpNow p.val then s.portReset p.val 2 else s)

/-- R363: FLR, and a return from D3hot. -/
def execFlr (p : Port) (s : State) : Host.Outcome State Fault Refusal :=
  .next (if s.linkUpNow p.val then s.portReset p.val 3 else s)

/-- R365: the wrapper has retired every transfer: outstanding device reads have ended, the tag pool is at reset. -/
def State.isolated (s : State) (p : Nat) : State :=
  (s.abortReads p).modPort p (fun x => { x with isolating := false, tags := 0 })

/-- R365, R366: ISOLATION_COMPLETE. -/
def execIsolationComplete (p : Port) (s : State) : Host.Outcome State Fault Refusal :=
  .next (if (s.port p.val).isolating then (s.isolated p.val).settleIdle else s)

/-- R365: FLR_COMPLETE: the port answers normally again. -/
def execFlrComplete (p : Port) (s : State) : Host.Outcome State Fault Refusal :=
  let x := s.port p.val
  .next (if x.flr && !x.isolating then s.modPort p.val (fun x => { x with flr := false }) else s)

/-- R356 to R358: may port p train to this rate code, width and mode? -/
def State.mayTrain (s : State) (p rate width : Nat) (flit : Bool) : Bool :=
  let x := s.port p
  s.present p && !x.perst && !x.isolating && !s.linkUpNow p && decide (4 ≤ s.rst.ev) && s.rst.booted &&
  decide (1 ≤ rate) && decide (rate ≤ s.fld (mgtR 0x84) 7 4) && [1, 2, 4, 8, 16].contains width &&
  decide (width ≤ s.lanes) && (flit || decide (rate < 6))

/-- R358: LINK_UP: the port trains. -/
def execLinkUp (p : Port) (rate : Fin 16) (width : Fin 32) (flit : Bool) (reversed : Bool) (s : State) :
    Host.Outcome State Fault Refusal :=
  let i := p.val
  if !s.mayTrain i rate.val width.val flit then .next s
  else
    let w := rate.val * 2 ^ 28 + width.val * 2 ^ 16 + b2n reversed * 4 + b2n flit * 2 + 1
    let s := s.setReg (prtR i 0x500) (w32 w)
    .next (if rate.val < s.fld (mgtR 0x84) 7 4 || width.val < s.lanes then s.flagErr (.prt i) 20 0 0 none 0 0 else s)

/-! ### Requests that are no memory access -/

/-- R361, R411: the port answers configuration requests. -/
def State.portReady (s : State) (p : Nat) : Bool :=
  s.phase == 1 || (p == 0 && (s.phase == 2 || (s.phase == 0 && s.rst.straps.bootSel == 1)))

/-- R359, R361: CONFIG_REQUEST: answered by the endpoint, or with Retry Status before the port is ready and during an FLR.
Setting Initiate Function Level Reset, and a return of PowerState from D3hot to D0, are an FLR (R361). -/
def execConfigRequest (p : Port) (wr : Bool) (off : BitVec 12) (val : Word) (s : State) : Host.Outcome State Fault Refusal :=
  let i := p.val
  let x := s.port i
  let k := off.toNat / 4
  if !s.linkUpNow i || x.perst then .next s
  else if !s.portReady i || x.flr || x.isolating then .next (s.emit (.config i 2 0))
  else if !wr then .next (s.emit (.config i 0 (s.cfg i k)))
  else
    let old := s.cfg i k
    let m := cfgMask k
    let new := if k = 65 || k = 68 then old &&& ~~~val else (old &&& ~~~m) ||| (val &&& m)
    let s := (s.setCfg i k new).emit (.config i 0 0)
    let s := if k = 20 then forN 256 s (fun s v => s.deliverVec i v) else s
    let flr := (k == 30 && fbit val 15) || (k == 17 && fget old 1 0 == 3 && fget new 1 0 == 0)
    .next (if flr then s.portReset i 3 else s)

/-- R360: UNSUPPORTED_REQUEST. -/
def execUnsupportedRequest (p : Port) (rid : Rid) (kind : UrKind) (addr : W64) (s : State) :
    Host.Outcome State Fault Refusal :=
  let i := p.val
  if !s.linkUpNow i then .next s
  else
    let ur (s : State) (cpl : Bool) : State :=
      let s := s.portEvent i 0x2000 0 0
      if cpl then s.emit (.cpl i 1 [] false) else s
    match kind with
    | .io _ | .atomicOp | .prefixed => .next (ur s true)
    | .outOfBar wr => .next (ur s (!wr))
    | .ep _ => .next ((s.flagErr (.prt i) 24 0 1 none addr.toNat rid.toNat).emit (.aer i))
    | .ecrc _ => .next ((s.flagErr (.prt i) 21 0 0 none addr.toNat rid.toNat).emit (.aer i))

/-! ### Block-level resets (R407, R408) -/

/-- Is the BRST of a page accepted? -/
def State.brstAccepted (s : State) (pg : Pg) : Bool :=
  match pg with
  | .prt p => s.present p
  | .ais t a => !s.runs pg && (s.aisle (t * 32 + a)).cur.isNone
  | .bsq t => !s.runs pg && !(s.tower t).bench.open_
  | .pkr _ => !s.runs pg
  | .mem t c => [3, 4, 5].contains (s.fld (memR t c 0x14) 31 28) || (s.tower t).oos
  | .stl st => s.sstate st == 2
  | _ => false

/-- R407: what a BRST clears at once. The packer and the table store are reloaded when it completes. -/
def State.brstClear (s : State) (pg : Pg) : State :=
  match pg with
  | .prt p => (s.portEffects p true).settleIdle
  | .ais t a => s.clearAisle t a
  | .bsq t => s.modTower t (fun x => { x with bench := { Bench.reset with busy := x.bench.busy }, bnq := QSt.reset })
  | .mem t c =>
    (s.modChan t c (fun x => { x with rq := [], wq := [], nq := [], wcb := [], aq := [], wait := [], flight := [] })).startRetrain t c false
  | .stl _ => s.settleIdle
  | _ => s

/-- R407, R408: BRST of a page. -/
def State.brst (s : State) (n : Nat) : State :=
  match pageNo n with
  | none => s
  | some pg =>
    if smem s.rf.brst n then s
    else if !s.brstAccepted pg then s.flagRstRefused pg
    else ({ s with rf := { s.rf with brst := sadd s.rf.brst n } } : State).brstClear pg

/-- R407: BRST_DONE: the block has left its reset. A stall reset ends with STALL_RESET_DONE. -/
def execBrstDone (page : PageNo) (s : State) : Host.Outcome State Fault Refusal :=
  let n := page.toNat
  if !smem s.rf.brst n then .next s
  else
    let t : State := { s with rf := { s.rf with brst := sdel s.rf.brst n } }
    match pageNo n with
    | some (.stl _) => .next s
    | some (.prt p) =>
      let t := if (t.port p).isolating then t.isolated p else t
      .next (t.modPort p (fun x => { x with flr := false })).settleIdle
    | some (.pkr i) => .next (t.reloadTabs i)
    | _ => .next t

end Sys2Proof.Machine
end

