-- ==== Sys2Proof/Machine/Security.lean ====
section
/-! DEFINITION. The root of trust: anti-rollback counters, vendor keys, model keys, the random bit generator and the test
access port (R379, R380, R383, R390 to R392); memory errors of the gate dies (R455); the check that ends an integrity stop
(R432); the persistent error counts (R439). -/

namespace Sys2Proof.Machine

/-! ### Fuses -/

/-- SEC.ARB_CTRt of image type t. -/
def State.arbCtr (s : State) (t : Nat) : Nat := mget 0 s.fuses.arb t

/-- The running image of a type. -/
def State.running (s : State) (t : Nat) : Option Img := s.rst.images.find? (fun x => x.type == t)

/-- R379: COMMIT raises the counter of a type to the SVN of the running image, never lowers it. -/
def State.arbCommit (s : State) (t : Nat) : State :=
  match s.running t with
  | none => s
  | some x =>
    if min 64 x.svn ≤ s.arbCtr t then s
    else { s with fuses := { s.fuses with arb := mset 0 s.fuses.arb t (min 64 x.svn) } }

/-- R380: REVOKE fuses a vendor key, unless every key would be revoked or the running SECFW is signed under it. -/
def State.revokeKey (s : State) (i : Nat) : State :=
  let r := s.fuses.revoked ||| (1#4 <<< i)
  let signed : Bool := match s.running 1 with
    | some x => x.key == i
    | none => false
  if r = 0xF#4 || signed then s.flagErr .sec 18 0 0 none 0 0
  else { s with fuses := { s.fuses with revoked := r } }

/-! ### Model keys (R390, R391) -/

/-- Hold a model key for the next reconfiguration of stall st; a later one replaces it. -/
def State.holdKey (s : State) (st src : Nat) (key : BitVec 512) : State :=
  { s with sec := { s.sec with heldKey := s.sec.heldKey.filter (fun k => k.1 != st) ++ [(st, src, key)] } }

/-- NEWKEY: a generated key; none is issued after the entropy source failed (R383). -/
def State.newModelKey (s : State) (st : Nat) : State :=
  if !s.sec.entropyOk then s
  else let (key, s) := s.drawKey; s.holdKey st 1 key

/-- IMPORT: the key in KIMPORT0 to 15, which are cleared. -/
def State.importModelKey (s : State) (st : Nat) : State :=
  let key := descOf ((List.range 16).map (fun i => mget 0 s.sec.kimport i))
  let s := s.holdKey st 2 key
  { s with sec := { s.sec with kimport := [] } }

/-! ### The generator and the test access port -/

/-- R383: DRBG_RESEED: after 2²⁰ requests. -/
def execDrbgReseed (s : State) : Host.Outcome State Fault Refusal :=
  .next (if s.sec.drbg < 2 ^ 20 then s else { s with free := s.free + 1, sec := { s.sec with drbg := 0 } })

/-- R383: ENTROPY_FAIL. -/
def execEntropyFail (s : State) : Host.Outcome State Fault Refusal :=
  .next (if s.sec.entropyOk && decide (3 ≤ s.rst.ev) then
    ({ s with sec := { s.sec with entropyOk := false } } : State).flagErr .sec 16 0 0 none 0 0 else s)

/-- R390, R392: TAP_UNLOCK: every key is erased, and measurement 7 shows the unlock. -/
def execTapUnlock (s : State) : Host.Outcome State Fault Refusal :=
  if s.rst.ev < 2 then .next s
  else
    let s := forN 4 s.eraseAllKeys (fun s st => s.setFld (secR (0x8C + 16 * st)) 1 0 0)
    .next { s with sec := { s.sec with tap := true } }

/-! ### Gate dies (R455) -/

/-- R455: GATE_MEMORY_ERROR. -/
def execGateMemoryError (g : Fin 2) (correctable : Bool) (s : State) : Host.Outcome State Fault Refusal :=
  if s.rst.ev < 2 then .next s
  else if correctable then .next ((s.bump (gteR g.val 0xA0) 1).flagErr (.gte g.val) 17 0 0 none 0 0)
  else .next (s.raiseFatal (.gte g.val) 0x6100 0 0)

/-! ### Integrity stops (R432) -/

/-- RESUME: the check of the lost units begins. -/
def State.integCheck (s : State) (st : Nat) : State :=
  if s.bit (stlR st 0x280) 24 then s.modStall st (fun x => { x with checking := true }) else s

/-- Is a unit unclean as the controller reads it? -/
def State.unitBad (s : State) (da : Nat) : Bool × State :=
  if (s.tower (daTower da)).oos then (true, s)
  else
    let (_, bad, s) := s.unitRead da []
    (bad, s)

/-- Check the 2 MiB block b: unclean units are recorded as lost. Answers whether all were clean. -/
def State.checkBlock (s : State) (st b : Nat) : Bool × State :=
  forN 65536 (true, s) (fun (acc : Bool × State) i =>
    let da := blk b + 32 * i
    let (bad, s) := acc.2.unitBad da
    if bad then (false, s.noteLost st da) else (acc.1, s))

/-- The blocks that a check covers: both copies of those of lost units; with OVF every range of the mirror table and every
MODEL region. -/
def State.checkSet (s : State) (st : Nat) : List Nat :=
  let x := s.stall st
  if s.bit (stlR st 0x280) 25 then
    x.mirror.flatMap (fun e => (List.range (e.limit + 1 - e.base)).flatMap (fun i => [e.base + i, e.mbase + i])) ++
    (x.keys.filter (fun e => e.kind == 1 && e.ok)).flatMap (fun e => (List.range (e.limit + 1 - e.base)).map (fun i => e.base + i))
  else x.lost.flatMap (fun da => [da >>> 21] ++
    (match s.copyOf da with | some m => [m >>> 21] | none => []) ++
    (match s.primaryOf da with | some p => [p >>> 21] | none => []))

/-- R432: INTEGRITY_CHECK_DONE. -/
def execIntegrityCheckDone (st : Stall) (s : State) : Host.Outcome State Fault Refusal :=
  let i := st.val
  if !(s.stall i).checking then .next s
  else
    let (ok, s) := ((s.checkSet i).foldl sadd []).foldl (fun (acc : Bool × State) b =>
      let (c, s) := acc.2.checkBlock i b
      (acc.1 && c, s)) (true, s)
    -- the stop is in force already
    let s := s.modStall i (fun x => { x with checking := false, integ := false, clean := ok })
    .next (s.setFld (stlR i 0x280) 27 26 (if ok then 1 else 2)).settleIdle

/-! ### Persistent counts (R439) -/

/-- R439: SEV_HISTORY_FLUSH: at most once per hour of device time. -/
def execSevHistoryFlush (s : State) : Host.Outcome State Fault Refusal :=
  .next (if s.rst.booted && decide (s.rst.histTime + 3600000000000 ≤ s.time) then s.flushHist none else s)

end Sys2Proof.Machine
end

