-- ==== Sys2Proof/Machine/Boot.lean ====
section
/-! DEFINITION. Power, reset, domain release and boot: the pins and supplies (R395 to R402, R457, R462 to R465), the order of
release (R405, R406), the boot ROM, images and their checks (R377, R378, R409 to R412), failed starts and recovery (R413 to
R415), and the choice of a record bank (R417). -/

namespace Sys2Proof.Machine

/-! ### Supplies and pins -/

/-- R398: POWER_ON: VSB rises: every domain is cleared; the fuses, the module flash and the levels of the pins stand. A
record write under way was cut short with the supply. -/
def execPowerOn (s : State) : Host.Outcome State Fault Refusal :=
  let c := s.cleared
  .next { State.reset with
    pending := s.pending, sent := s.sent, free := c.free, fuses := s.fuses, flash := c.flash, prt := c.prt,
    rst := { Rst.reset with vmainFault := s.rst.vmainFault, pwrEn := s.rst.pwrEn, platLow := s.rst.platLow, resetN := s.rst.resetN } }

/-- The VMAIN converters start where PWR_EN is high and nothing holds them (R462, R464, R465). -/
def State.softStart (s : State) : State :=
  let x := s.rst
  if x.pwrEn && !x.holdoff && !x.vmainFault && !x.trip && x.vsb && !x.modGood then s.modRst (fun x => { x with soft := true }) else s

/-- R464, R465: PWR_EN_RISE; within 100 ms of a fall the rise is held. -/
def execPwrEnRise (s : State) : Host.Outcome State Fault Refusal :=
  if s.rst.pwrEn then .next s
  else
    let s := s.modRst (fun x => { x with pwrEn := true })
    .next (if s.rst.holdoff then s.modRst (fun x => { x with holdRise := true }) else s.softStart)

/-- PWR_GOOD reads high and nothing else holds the device in reset. -/
def State.mayLatch (s : State) : Bool := !s.heldReset && !s.rst.resetN

/-- R397, R464: SOFT_START_DONE: the module releases PWR_GOOD; with the wire high and RESET_N high the straps are
latched. -/
def execSoftStartDone (straps : Straps) (s : State) : Host.Outcome State Fault Refusal :=
  if !s.rst.soft then .next s
  else
    let s := (s.modRst (fun x => { x with soft := false, modGood := true })).emit (.pin "PWR_GOOD" (!s.rst.platLow))
    .next (if s.mayLatch then s.latchStraps straps else s)

/-- R465: PWR_EN_FALL. -/
def execPwrEnFall (s : State) : Host.Outcome State Fault Refusal :=
  if !s.rst.pwrEn then .next s
  else
    let s := s.pwrGoodDown
    .next (s.modRst (fun x => { x with pwrEn := false, soft := false, holdoff := true, holdRise := false }))

/-- R465: PWR_EN_HOLDOFF_EXPIRY: a held rise takes effect. -/
def execPwrEnHoldoffExpiry (s : State) : Host.Outcome State Fault Refusal :=
  if !s.rst.holdoff then .next s
  else
    let rise := s.rst.holdRise
    let s := s.modRst (fun x => { x with holdoff := false, holdRise := false })
    .next (if rise then s.softStart else s)

/-- R462: a VMAIN monitor trips: PWR_GOOD low, the converters off. -/
def State.supplyFault (s : State) : State :=
  (s.pwrGoodDown).modRst (fun x => { x with vmainFault := true, soft := false })

/-- R462: VMAIN_UNDERVOLTAGE: below 44 V for 10 µs. -/
def execVmainUndervoltage (s : State) : Host.Outcome State Fault Refusal := .next s.supplyFault

/-- R462: VMAIN_OVERVOLTAGE: above 60 V for 1 µs. -/
def execVmainOvervoltage (s : State) : Host.Outcome State Fault Refusal := .next s.supplyFault

/-- R462: SUPPLY_FAULT_CLEAR. -/
def execSupplyFaultClear (s : State) : Host.Outcome State Fault Refusal :=
  if !s.rst.vmainFault then .next s else .next (s.modRst (fun x => { x with vmainFault := false })).softStart

/-- R462: VSB_LOSS: the device resets and loses D0; the return of VSB is POWER_ON. -/
def execVsbLoss (s : State) : Host.Outcome State Fault Refusal :=
  if !s.rst.vsb then .next s
  else .next (s.pwrGoodDown.modRst (fun x => { x with vsb := false, soft := false }))

/-- R457: PWR_GOOD_LOW: the wire reads low. -/
def execPwrGoodLow (s : State) : Host.Outcome State Fault Refusal :=
  if s.rst.platLow then .next s
  else
    let high := s.rst.modGood
    let s := s.modRst (fun x => { x with platLow := true })
    .next (if high then s.deviceReset 2 else s)

/-- R397: PWR_GOOD_RELEASE: the platform releases the wire, which rises unless the module holds it. -/
def execPwrGoodRelease (straps : Straps) (s : State) : Host.Outcome State Fault Refusal :=
  if !s.rst.platLow then .next s
  else
    let s := s.modRst (fun x => { x with platLow := false })
    .next (if s.mayLatch then s.latchStraps straps else s)

/-- R400: RESET_N_ASSERT: the filter of D0 starts. -/
def execResetNAssert (s : State) : Host.Outcome State Fault Refusal :=
  .next (if s.rst.resetN then s else s.modRst (fun x => { x with resetN := true }))

/-- R400: RESET_N_FILTER_EXPIRY: low for 1 µs. -/
def execResetNFilterExpiry (s : State) : Host.Outcome State Fault Refusal :=
  .next (if s.rst.resetN && !s.rst.filter then (s.deviceReset 2).modRst (fun x => { x with filter := true }) else s)

/-- R402: 100 µs of RESET_N end a thermal trip; the converters restart if PWR_EN is high (R465). -/
def State.endTrip (s : State) : State :=
  if s.rst.trip then ((s.modRst (fun x => { x with trip := false })).emit (.pin "THERM_TRIP_N" true)).softStart else s

/-- R397, R400, R402, R405: RESET_N_RELEASE after lowNs: a pulse under 1 µs is only counted; a longer one ends a reset, and
with PWR_GOOD high the straps are latched. -/
def execResetNRelease (lowNs : Nat) (straps : Straps) (s : State) : Host.Outcome State Fault Refusal :=
  if !s.rst.resetN then .next s
  else if lowNs < 1000 && !s.rst.filter then
    .next ((s.modRst (fun x => { x with resetN := false })).bump (rscR 0x134) 1)
  else
    let s := if s.rst.filter then s else s.deviceReset 2
    let s := if lowNs < 100000 then s.bump (rscR 0x130) 1 else s.endTrip
    let s := s.modRst (fun x => { x with resetN := false, filter := false })
    .next (if s.mayLatch then s.latchStraps straps else s)

/-- R395: REFCLK_STOP: the PLLs hold their frequency. -/
def execRefclkStop (s : State) : Host.Outcome State Fault Refusal := .next (s.modRst (fun x => { x with refStop := true }))

/-- R395: REFCLK_RETURN. -/
def execRefclkReturn (s : State) : Host.Outcome State Fault Refusal := .next (s.modRst (fun x => { x with refStop := false }))

/-- R395: REFCLK_LOSS_TIMEOUT: a fatal error; it is raised once for one stop. -/
def execRefclkLossTimeout (s : State) : Host.Outcome State Fault Refusal :=
  if !s.rst.refStop then .next s
  else .next ((s.modRst (fun x => { x with refStop := false })).raiseFatal .rsc 0x6000 0 0)

/-! ### Sources of reset -/

/-- R398: SOFTWARE_DEVICE_RESET: 100 µs after the write of DEV.SWRST.GO. -/
def execSoftwareDeviceReset (s : State) : Host.Outcome State Fault Refusal :=
  .next (if s.rst.swrst then s.deviceReset 3 else s)

/-- R401: WATCHDOG_EXPIRY. -/
def execWatchdogExpiry (s : State) : Host.Outcome State Fault Refusal :=
  let ms := s.fld (rscR 0x88) 15 0
  .next (if s.phase == 1 && ms != 0 && decide (s.rst.beatAt + ms * 1000000 ≤ s.time) then s.resetOrNested 4 0 0 else s)

/-- Every image of the four types is accepted. -/
def State.allImages (s : State) : Bool := [1, 2, 3, 4].all (fun t => (s.running t).isSome)

/-- R413: START_TIMEOUT; the wait for a host image does not count. -/
def execStartTimeout (s : State) : Host.Outcome State Fault Refusal :=
  let waits := s.rst.straps.bootSel == 1 && !s.allImages
  .next (if s.rst.starting && s.phase == 0 && !waits &&
      decide (s.rst.startAt + s.fld (rscR 0x88) 31 24 * 100000000 ≤ s.time) then s.resetOrNested 5 0 0 else s)

/-- R413: START_CONFIRM. -/
def execStartConfirm (s : State) : Host.Outcome State Fault Refusal :=
  .next (if s.rst.starting && s.phase == 1 && decide (s.rst.readyAt + s.fld (rscR 0x88) 23 16 * 1000000000 ≤ s.time) then
    (s.setFld (rscR 0x84) 3 0 0).modRst (fun x => { x with starting := false, lastFailed := false }) else s)

/-- R403: CRITICAL_STATE_ERROR: 1 reset controller, 2 weighhouse tables, 3 ledger roots, 4 key store, 5 hawser routing
tables; the tower is recorded for 3 and 5. -/
def execCriticalStateError (crit : Fin 16) (tower : Tower) (s : State) : Host.Outcome State Fault Refusal :=
  if crit.val = 0 || 5 < crit.val then .next s
  else .next (s.resetOrNested 7 crit.val (if crit.val = 3 || crit.val = 5 then tower.val else 0))

/-- R404, R437: FATAL_ERROR. A fault that nothing confines has no code of its own in the spec: its CODE is free, and it is
recorded in the DEV page (assumption log 65). -/
def execFatalError (kind : FatalKind) (s : State) : Host.Outcome State Fault Refusal :=
  match kind with
  | .refclk => .next (s.raiseFatal .rsc 0x6000 0 0)
  | .gateMem g => .next (s.raiseFatal (.gte g.val) 0x6100 0 0)
  | .tallyman => .next (s.raiseFatal .tly 0x6200 0 0)
  | .reconfTwice st => .next (s.raiseFatal (.stl st.val) 0x6300 0 0)
  | .unconfined => let (c, s) := s.draw 65536; .next (s.raiseFatal .dev c 0 0)

/-- R404: FATAL_HANDLING_END. -/
def execFatalHandlingEnd (s : State) : Host.Outcome State Fault Refusal :=
  .next (if s.rst.fatal then s.deviceReset 8 else s)

/-! ### Release of the domains (R405, R406) -/

/-- What event n of R405 does. -/
def State.releaseEvent (s : State) (n : Nat) : State :=
  let s := s.modRst (fun x => { x with ev := n })
  if n = 3 then s.setFld (mgtR 0x88) 22 16 (0x38 + s.rst.straps.slotId.toNat) else s

/-- R405: DOMAIN_RELEASE_EVENT: the next event. In recovery D3 to D5 stay in reset (R415). -/
def execDomainReleaseEvent (locked : Bool) (s : State) : Host.Outcome State Fault Refusal :=
  let n := s.rst.ev
  if s.heldReset || s.rst.resetN && s.rst.filter then .next s
  else if n = 0 then .next s.event1
  else if n = 1 && !locked then .next (s.deviceReset 10)
  else if n < 4 || (n < 10 && s.phase != 2) then .next (s.releaseEvent (n + 1))
  else .next s

/-- R417: the logical channel that a controller serves under the record; 255 none. -/
def Rec.logical (r : Rec) (t c : Nat) : Nat :=
  let d := if c < 32 then c else 255
  mget 256 r.repair (33 * t + c) |> fun v => if v = 256 then d else v

/-- R406, R410 step 5: the repair map is loaded and the training results are judged. -/
def State.judge (s : State) : State :=
  if s.rst.judged || !s.rst.memInit || (s.running 2).isNone then s
  else
    let s := s.modRst (fun x => { x with judged := true })
    let bad := s.rst.failedCh
    forN 32 s (fun s t => forN 33 s (fun s c =>
      let l := s.rst.prec.logical t c
      let s := s.setFld (memR t c 0x98) 23 16 l
      let ok := !bad.contains (t, c)
      if l < 32 then
        if ok then s.setFld (memR t c 0x14) 31 28 0 else (s.setFld (memR t c 0x14) 31 28 4).towerOut t true
      else if c < 32 then s.setFld (memR t c 0x14) 31 28 3
      else s.setFld (memR t c 0x14) 31 28 (if ok then 5 else 4)))

/-- R406: MEMORY_INIT_DONE: every channel is trained and zeroed; failed lists those that did not train. -/
def execMemoryInitDone (failed : List (Nat × Nat)) (s : State) : Host.Outcome State Fault Refusal :=
  if s.rst.ev != 10 || s.rst.memInit then .next s
  else
    let s := s.modRst (fun x => { x with memInit := true, failedCh := failed })
    let s := forN 32 s (fun s t => forN 33 s (fun s c => if failed.contains (t, c) then s else s.noteTemp t c))
    .next s.judge

/-! ### The record and the slot (R410, R414, R417) -/

/-- R417: the bank in use: 0 or 1, the record, and whether the pair is unordered; none where neither is valid. -/
def Flash.choose (f : Flash) : Option (Nat × Rec × Bool) :=
  match f.bank0, f.bank1 with
  | some a, some b =>
    if unordered 32 a.seq b.seq then some (0, a, true)
    else if newer 32 b.seq a.seq then some (1, b, false) else some (0, a, false)
  | some a, none => some (0, a, false)
  | none, some b => some (1, b, false)
  | none, none => none

def State.slotValid (s : State) (slot : Nat) : Bool := if slot = 0 then s.rst.prec.validA else s.rst.prec.validB

/-- The slot of this start. -/
def State.setSlot (s : State) (slot : Nat) : State :=
  ((s.setFld (rscR 0x84) 8 8 slot).setFld (flsR 0x88) 8 8 slot).modRst (fun x => { x with images := [] })

/-- R410 step 4, R413, R415: no slot is left: the start fails and the module enters recovery, where D3 to D5 are in
reset. -/
def State.noSlot (s : State) : State :=
  (s.failStart.enterRecovery 3).modRst (fun x => { x with ev := min x.ev 4, images := [], memInit := false, failedCh := [], judged := false })

/-- R410 step 4: go on with a slot, or with the other one where it is valid and not yet tried. -/
def State.trySlot (s : State) (slot : Nat) : State :=
  let open_ (i : Nat) : Bool := s.slotValid i && !s.rst.tried.contains i
  if open_ slot then s.setSlot slot
  else if open_ (1 - slot) then s.setSlot (1 - slot)
  else s.noSlot

/-- R410 step 4: an image of the slot failed. -/
def State.slotFails (s : State) (slot : Nat) : State :=
  let s := s.putRec (fun r => if slot = 0 then { r with validA := false } else { r with validB := false })
  (s.modRst (fun x => { x with tried := slot :: x.tried })).trySlot (1 - slot)

/-- R410 step 1, R417: BOOT_RECORD_READ: the bank is chosen, MGT.PORTCFG supplied, and a start from flash gets its
slot. -/
def execBootRecordRead (s : State) : Host.Outcome State Fault Refusal :=
  if s.rst.ev < 3 || s.rst.booted then .next s
  else
    let (r, bank, s) : Rec × Nat × State := match s.flash.choose with
      | some (b, r, amb) => (r, b, if amb then s.flagErr .fls 17 0 0 none 0 0 else s)
      | none => ({ Rec.reset with serial := s.fuses.serial }, 0, s.flagErr .fls 16 0 0 none 0 0)
    let s := (s.modRst (fun x => { x with booted := true, prec := r, histTime := s.time })).showRec
    let s := ((s.setFld (flsR 0x80) 0 0 bank).setBit (flsR 0x80) 4 s.flash.bank0.isSome).setBit (flsR 0x80) 5 s.flash.bank1.isSome
    let s := (s.setReg (flsR 0x84) (w32 r.seq)).setReg (mgtR 0x84) r.portcfg
    if s.rst.straps.bootSel != 0 || s.phase != 0 then .next s
    else .next (s.trySlot (if s.rst.lastFailed && s.slotValid (1 - r.pref) then 1 - r.pref else r.pref))

/-! ### Images (R377, R378) -/

/-- A little-endian field of an image. -/
def imgField (img : List Byte) (at_ n : Nat) : Nat := leNat ((img.drop at_).take n)

/-- R378: the six checks of an image; the image that passes them. -/
def State.checkImage (s : State) (img : List Byte) : Option Img :=
  let type := imgField img 6 2
  let svn := imgField img 8 4
  let len := imgField img 12 4
  let key := imgField img 16 4
  let digest := (img.drop 20).take 32
  let pub := (img.drop 52).take 1312
  let sig := (img.drop 1364).take 2420
  if imgField img 0 4 = 0x4B535659 && imgField img 4 2 == 1 && decide (1 ≤ type) && decide (type ≤ 4) &&
     ((img.drop 3784).take 312).all (· == 0) && decide (4096 + len ≤ img.length) &&
     decide (key < 4) && !s.fuses.revoked.getLsbD key && sha3 pub == Config.vendorKeyHash key &&
     digest == sha3 ((img.drop 4096).take len) && Config.mlDsaVerify pub (sha3 (img.take 1364)) sig &&
     decide (s.arbCtr type ≤ svn) then some ⟨type, svn, key, digest⟩
  else none

/-- R378: a rejected image. -/
def State.rejectImage (s : State) : State := (s.bump (secR 0x150) 1).flagErr .sec 17 0 0 none 0 0

/-- The order in which the images of a slot are read (R410 steps 2 and 3). -/
def bootOrder : List Nat := [1, 4, 2, 3]

/-- R410: IMAGE_READ_DONE: the next image of the slot has been read, or its flash read failed. -/
def execImageReadDone (slot : Fin 2) (type : Fin 8) (ok : Bool) (s : State) : Host.Outcome State Fault Refusal :=
  let next := bootOrder.find? (fun t => (s.running t).isNone)
  if s.phase != 0 || !s.rst.booted || s.rst.straps.bootSel != 0 || s.fld (rscR 0x84) 8 8 != slot.val || next != some type.val then .next s
  else if !ok then .next ((s.flagErr .fls 20 0 0 none 0 0).slotFails slot.val)
  else
    match s.checkImage (mget [] s.flash.slots (slot.val * 8 + type.val)) with
    | some x =>
      if x.type = type.val then .next (s.modRst (fun r => { r with images := r.images ++ [x] })).judge
      else .next (s.rejectImage.slotFails slot.val)
    | none => .next (s.rejectImage.slotFails slot.val)

/-! ### Images from a host or the management bus (R412, R415) -/

def State.loadState (s : State) : Nat := s.fld (flsR 0x94) 3 0
def State.setLoad (s : State) (st : Nat) : State := s.setFld (flsR 0x94) 3 0 st

/-- The OWNER code of a source of load commands. -/
def loadOwner : Src → Nat
  | .port _ _ => 1
  | .mgmt .. => 2

/-- R412: ownership ends, and with it a PLDM firmware update. -/
def State.endLoad (s : State) : State :=
  ({ s with mgt := { s.mgt with fw := FwUpd.reset } }.setFld (flsR 0x94) 31 30 0).modRst (fun x => { x with loadData := [] })

/-- R412, R415: where an accepted image goes. -/
def State.storeImage (s : State) (x : Img) (img : List Byte) : State :=
  let s := s.setBit (flsR 0x94) (19 + x.type) true
  let all := s.fld (flsR 0x94) 23 20 == 15
  if s.phase = 0 && s.rst.straps.bootSel == 1 then
    -- held in tower 0, 64 MiB for each TYPE (assumption log 66)
    let s := s.write0 .tally ((x.type - 1) * 2 ^ 26) (img.map (fun b => (b, false)))
    (s.modRst (fun r => { r with images := r.images.filter (fun y => y.type != x.type) ++ [x] })).judge
  else
    let slot := 1 - s.rst.prec.pref
    let s := { s with flash := { s.flash with slots := mset [] s.flash.slots (slot * 8 + x.type) img } }
    let s := s.putRec (fun r =>
      let r := if slot = 0 then { r with validA := all } else { r with validB := all }
      if all && s.phase == 2 then { r with pref := slot } else r)
    if all then
      let s := s.setFld (flsR 0x94) 23 20 0
      -- the record is written before the reset
      if s.phase = 2 then (s.recWritten.recWritten.setFld (rscR 0x84) 3 0 0).deviceReset 3 else s
    else s

/-- R412: END: the image is checked. -/
def State.loadFinish (s : State) : State :=
  let img := s.rst.loadData
  let s := s.endLoad
  match s.checkImage img with
  | some x => (s.setLoad 4).storeImage x img
  | none => (s.setLoad 5).rejectImage.flagErr .fls 19 0 0 none 0 0

/-- R412: a command of FLS.LOAD_CMD: 1 BEGIN, 2 CHUNK, 3 END, 4 ABORT. Commands of a source that does not own the load are
refused. -/
def State.loadCmd (s : State) (src : Src) (op len : Nat) : State :=
  let owner := s.fld (flsR 0x94) 31 30
  let me := loadOwner src
  if owner ≠ 0 && owner ≠ me then s
  else
    let t := s.modRst (fun x => { x with loadAt := s.time })
    if op = 1 then
      if s.loadState = 2 then s
      else ((t.setFld (flsR 0x94) 31 30 me).setLoad 1).modRst (fun x => { x with loadData := [] })
    else if owner = 0 then s
    else if op = 2 then
      if s.loadState = 1 && decide (1 ≤ len) && decide (len ≤ 65536) then (t.setLoad 2).modRst (fun x => { x with loadLen := len })
      else s
    else if op = 3 then (if s.loadState = 1 then t.loadFinish else s)
    else if op = 4 then t.endLoad.setLoad 0
    else s

/-- R412: LOAD_CHUNK_DONE: LEN bytes of the load buffer are taken. -/
def execLoadChunkDone (s : State) : Host.Outcome State Fault Refusal :=
  if s.loadState ≠ 2 then .next s
  else
    let n := s.rst.loadLen
    let bs := (List.range n).map (fun i => s.rst.loadBuf.getD i 0)
    .next ((s.modRst (fun x => { x with loadData := x.loadData ++ bs })).setLoad 1)

/-- R412: LOAD_OWNER_TIMEOUT: 10 s without a command. -/
def execLoadOwnerTimeout (s : State) : Host.Outcome State Fault Refusal :=
  .next (if s.fld (flsR 0x94) 31 30 != 0 && decide (s.rst.loadAt + 10000000000 ≤ s.time) then s.endLoad.setLoad 0 else s)

/-- R415: RETRY leaves recovery with a device reset. -/
def State.retryBoot (s : State) : State :=
  if s.phase = 2 then (s.setFld (rscR 0x84) 3 0 0).deviceReset 3 else s

/-- R418: SWAP makes the other slot preferred, if it is VALID. -/
def State.swapSlot (s : State) : State :=
  let o := 1 - s.rst.prec.pref
  if s.slotValid o then s.putRec (fun r => { r with pref := o }) else s

/-! ### The Tallyman starts (R410 step 6) -/

/-- R382: measurement 5: ARB_CTR1 to 4 and REVOKED, a word each. -/
def State.meas5Now (s : State) : List Byte :=
  ([1, 2, 3, 4].map (fun t => leBytes 4 (s.arbCtr t))).flatten ++ leBytes 4 s.fuses.revoked.toNat

/-- R401, R410: TALLYMAN_HEARTBEAT: the first one sets PHASE to READY and fixes TLY.FWVER, which the image gives and the
spec places nowhere (assumption log 67). -/
def execTallymanHeartbeat (clerks : Byte) (s : State) : Host.Outcome State Fault Refusal :=
  if !s.rst.judged || !s.allImages || s.phase = 2 then .next s
  else
    let s := (s.setReg (tlyR 0x88) (s.reg (tlyR 0x88) + 1)).setFld (tlyR 0x84) 7 0 clerks.toNat
    let s := (s.setFld (gteR 0 0x84) 3 0 (clerks.toNat % 16)).setFld (gteR 1 0x84) 3 0 (clerks.toNat / 16)
    let s := s.modRst (fun x => { x with beatAt := s.time })
    if s.phase = 0 then
      let (v, s) := s.draw (2 ^ 32)
      let s := { s with sec := { s.sec with meas5 := some s.meas5Now } }
      .next (((s.setReg (tlyR 0x80) (w32 v)).setFld (devR 0x98) 3 0 1).modRst (fun x => { x with readyAt := s.time }))
    else .next s

end Sys2Proof.Machine
end

