-- ==== Sys2Proof/Machine/Hawser.lean ====
section
/-! DEFINITION. The hawser: routes (R13 to R15), packets and acknowledgements (R16, R17), links that fail and pairs with
no route (R17, R435). A node is a tower 0 to 31 or gate die 32, 33; a link end is tower × 4 + direction. -/

namespace Sys2Proof.Machine

def dirNum : Dir → Nat
  | .n => 0 | .e => 1 | .s => 2 | .w => 3

/-- The link ends that a packet leaves by, moving along row r from column a to column b. -/
def rowEnds (r a b : Nat) : List Nat :=
  if a ≤ b then (List.range (b - a)).map (fun i => (r * 8 + a + i) * 4 + 1)
  else (List.range (a - b)).map (fun i => (r * 8 + a - i) * 4 + 3)

/-- The same along column c from row a to row b. -/
def colEnds (c a b : Nat) : List Nat :=
  if a ≤ b then (List.range (b - a)).map (fun i => ((a + i) * 8 + c) * 4 + 2)
  else (List.range (a - b)).map (fun i => ((a - i) * 8 + c) * 4 + 0)

/-- The far end of a link, where it is a tower's: the same link seen from its other side. -/
def farEnd (e : Nat) : Option Nat :=
  let t := e / 4
  match e % 4 with
  | 0 => if t < 8 then none else some ((t - 8) * 4 + 2)
  | 1 => if t % 8 = 7 then none else some ((t + 1) * 4 + 3)
  | 2 => if 24 ≤ t then none else some ((t + 8) * 4 + 0)
  | _ => if t % 8 = 0 then none else some ((t - 1) * 4 + 1)

/-- The node behind a link end: a tower, or a gate die (R14); none where the port faces an edge without a link. -/
def behind (e : Nat) : Option Nat :=
  match farEnd e with
  | some f => some (f / 4)
  | none => if e % 4 = 3 && (e / 4) % 8 == 0 then some 32 else if e % 4 = 1 && (e / 4) % 8 == 7 then some 33 else none

/-- The column of a gate die's towers. -/
def gateCol (g : Nat) : Nat := if g = 32 then 0 else 7
def gateEnd (g r : Nat) : Nat := (r * 8 + gateCol g) * 4 + (if g = 32 then 3 else 1)

/-- R15: the link ends of the route of a pair, column first or row first; between the two gate dies through row r.
DESIGN CHOICE (assumption log 80): a pair with a gate-die end has the one route that R15 gives it, along the tower's row,
and no second one by R17: the order of the mesh has nothing to turn there, so when a link of that row is down the pair has
no route left. -/
def route (rowFirst : Bool) (r src dst : Nat) : List Nat :=
  if src < 32 then
    if dst < 32 then
      if rowFirst then colEnds (src % 8) (src / 8) (dst / 8) ++ rowEnds (dst / 8) (src % 8) (dst % 8)
      else rowEnds (src / 8) (src % 8) (dst % 8) ++ colEnds (dst % 8) (src / 8) (dst / 8)
    else rowEnds (src / 8) (src % 8) (gateCol dst) ++ [gateEnd dst (src / 8)]
  else if dst < 32 then gateEnd src (dst / 8) :: rowEnds (dst / 8) (gateCol src) (dst % 8)
  else if src = dst then [] else gateEnd src r :: rowEnds r (gateCol src) (gateCol dst) ++ [gateEnd dst r]

/-- A link is down, seen from either end. -/
def State.linkIsDown (s : State) (e : Nat) : Bool :=
  s.hw.down.contains e || (match farEnd e with | some f => s.hw.down.contains f | none => false)

def pairKey (src dst : Nat) : Nat := src * 64 + dst

/-- The route in use for a pair; none where it has no route left. DESIGN CHOICE (assumption log 80): R15 names no row for
packets from one gate die to the other; they take the lowest row whose links are all up. -/
def State.routeOf (s : State) (src dst : Nat) : Option (List Nat) :=
  let up (l : List Nat) : Bool := !l.any (fun e => s.linkIsDown e)
  if 32 ≤ src && decide (32 ≤ dst) then ((List.range 4).map (fun r => route false r src dst)).find? up
  else
    let a := route false 0 src dst
    let b := route true 0 src dst
    if !s.hw.rowFirst.contains (pairKey src dst) && up a then some a else if up b then some b else none

/-- Send a packet of a pair along its route. -/
def State.sendPacket (s : State) (src dst id : Nat) : State :=
  match s.routeOf src dst with
  | none => s
  | some l =>
    let k := pairKey src dst
    { s.emit (.hawser src dst id l.length) with
      hw := { s.hw with unacked := mset [] s.hw.unacked k (mget [] s.hw.unacked k ++ [id]) } }

/-- R15 to R17: HAWSER_PACKET. Replays on a link delay the packet and change nothing else; a pair whose resend is not
acknowledged sends nothing further. -/
def execHawserPacket (src dst : Node) (id replays : Nat) (s : State) : Host.Outcome State Fault Refusal :=
  let _ := replays
  let k := pairKey src.val dst.val
  match s.hw.hold.find? (fun h => h.1 == k) with
  | some _ =>
    .next { s with hw := { s.hw with hold := s.hw.hold.map (fun h => if h.1 = k then (k, h.2 ++ [id]) else h) } }
  | none => .next (s.sendPacket src.val dst.val id)

/-- R17: HAWSER_ACK: the receiver acknowledges n packets of a pair; once a resend is acknowledged, the sends that waited
follow. -/
def execHawserAck (src dst : Node) (n : Nat) (s : State) : Host.Outcome State Fault Refusal :=
  let k := pairKey src.val dst.val
  let left := (mget [] s.hw.unacked k).drop n
  let s := { s with hw := { s.hw with unacked := mset [] s.hw.unacked k left } }
  match s.hw.hold.find? (fun h => h.1 == k) with
  | some h =>
    if left.isEmpty then
      let s := { s with hw := { s.hw with hold := s.hw.hold.filter (fun h => h.1 != k) } }
      .next (h.2.foldl (fun s id => s.sendPacket src.val dst.val id) s)
    else .next s
  | none => .next s

/-- INFO of a hawser event (R422): gate 0 as 0x1E, gate 1 as 0x1F in the source field. -/
def hwInfo (src dst : Nat) : Nat :=
  if 32 ≤ dst then (dst - 2) * 256 + src % 32 else (if src < 32 then src else src - 2) * 256 + dst

/-- Every pair of nodes. -/
def allPairs : List (Nat × Nat) :=
  ((List.range 34).map (fun a => (List.range 34).map (fun b => (a, b)))).flatten

/-- R17: reroute a pair whose route used the link: its unacknowledged packets are resent on the new route. -/
def State.reroutePair (s : State) (src dst : Nat) : State :=
  let k := pairKey src dst
  let ids := mget [] s.hw.unacked k
  let s := { s with hw := { s.hw with rowFirst := sadd s.hw.rowFirst k, unacked := mset [] s.hw.unacked k [] } }
  let s := ids.foldl (fun s id => s.sendPacket src dst id) s
  if ids.isEmpty || s.hw.hold.any (fun h => h.1 == k) then s
  else { s with hw := { s.hw with hold := s.hw.hold ++ [(k, [])] } }

/-- R435: the tower that leaves service for a pair with no route: the one with the higher index, or the tower itself when
the other end is a gate die; pairs between stalls lose none. -/
def State.towerFor (s : State) (a b : Nat) : Option Nat :=
  if a < 32 && decide (b < 32) then (if s.stallOf a = s.stallOf b && a != b then some (max a b) else none)
  else if a < 32 then some a else if b < 32 then some b else none

/-- A pair with no route left (R17, R435). -/
def State.loseRoute (s : State) (t d a b : Nat) : State :=
  let out (x : Nat) : Bool := decide (x < 32) && (s.tower x).oos
  if out a || out b then s
  else
    let s := { s with hw := { s.hw with noRoute := sadd s.hw.noRoute (pairKey a b), hold := s.hw.hold.filter (fun h => h.1 != pairKey a b) } }
    let s := s.logErr (.hwp t d) 0x3100 2 0 (hwInfo a b)
    match s.towerFor a b with
    | some x => s.towerOut x true
    | none => s

/-- R17: LINK_DOWN: the link of port d of tower t fails its replay limit. DESIGN CHOICE (assumption log 80): of the two
HWP pages that see the link, the record goes to the page of the port that the command names. -/
def execLinkDown (t : Tower) (d : Dir) (s : State) : Host.Outcome State Fault Refusal :=
  let e := t.val * 4 + dirNum d
  match behind e with
  | none => .next s
  | some far =>
    if s.linkIsDown e then .next s
    else
      let used := allPairs.filter (fun (a, b) => match s.routeOf a b with
        | some l => l.contains e || (match farEnd e with | some f => l.contains f | none => false)
        | none => false)
      let s := { s with hw := { s.hw with down := sadd s.hw.down e } }
      let s := s.logErr (.hwp t.val (dirNum d)) 0x3000 0 0 (hwInfo t.val far)
      let (kept, lost) := used.partition (fun (a, b) => (s.routeOf a b).isSome)
      let s := kept.foldl (fun s (a, b) => s.reroutePair a b) s
      .next (lost.foldl (fun s (a, b) => s.loseRoute t.val (dirNum d) a b) s).settleIdle

end Sys2Proof.Machine
end

