-- ==== Sys2Proof/Machine/Power.lean ====
section
/-! DEFINITION. Grants, operating points, clock stretching, the soft cap and temperatures (R96, R441 to R455). -/

namespace Sys2Proof.Machine

open Sys2Proof

/-! ### Thermal steps -/

/-- The step that a temperature in half degrees gives, from the step now in force and the lower bounds of steps 1, 2, …:
a step is left when the temperature stands 2 °C or more below its lower bound (R96, R450). -/
def heatStep (bounds : List Nat) (cur h : Nat) : Nat :=
  let above (x : Nat) : Nat := (bounds.filter (fun b => decide (b < x))).length
  max (above h) (min cur (above (h + 4)))

/-- R96. -/
def deckBounds : List Nat := [170, 174, 178, 182, 186, 190]
/-- R450. -/
def baseBounds : List Nat := [200, 206, 212, 218]

/-- THM.STAT shows the operating point, the steps and the effective CK_A of a tower. -/
def State.showThm (s : State) (t : Nat) : State :=
  let x := s.tower t
  let mhz := ((s.fuses.ops[x.op]?).map (·.1)).getD 0 * (8 - x.slow) / 8
  let a := thmR t 0x84
  ((((s.setFld a 31 16 mhz).setFld a 15 13 x.op).setFld a 12 10 x.slow).setFld a 9 7 x.dstep)

/-- STRETCH_US counts the whole µs with s > 0 up to now. -/
def State.countStretch (s : State) (t : Nat) : State :=
  let x := s.tower t
  if x.slow = 0 then s
  else
    let us := (s.time - x.stretchAt) / 1000
    (s.modTower t (fun y => { y with stretchAt := x.stretchAt + us * 1000 })).bump (thmR t 0xA4) us

/-- New deck and base steps of a tower; THM.BLK_ERR.STRETCH when stretching begins (R450). -/
def State.setHeat (s : State) (t dstep stretch : Nat) : State :=
  let s := s.countStretch t
  let was := (s.tower t).slow
  let s := s.modTower t (fun x => { x with dstep := dstep, stretch := stretch })
  let s := if was = 0 && (s.tower t).slow != 0 then
      (s.modTower t (fun x => { x with stretchAt := s.time })).flagC (.thm t) 16
    else s
  s.showThm t

/-! ### Sensor events (R453) -/

/-- A PLDM sensor event: upper warning, critical and fatal states by level (PRESUMED, assumption log 68). -/
def sensorEvent (tid sensor level prev half : Nat) : List Byte :=
  let code (l : Nat) : Nat := if l = 0 then 1 else 7 + l
  [0x01, 0x80, 0x02, 0x0A, 0x01, BitVec.ofNat 8 tid, 0x00, BitVec.ofNat 8 sensor, BitVec.ofNat 8 (sensor / 256), 0x02,
   BitVec.ofNat 8 (code level), BitVec.ofNat 8 (code prev), 0x03, BitVec.ofNat 8 (half / 2), BitVec.ofNat 8 (half / 512)]

/-- R371: a message joins those waiting to be sent. -/
def State.queueMsg (s : State) (m : Medium) (dst : MsgSrc) (ses : Option Nat) (data : List Byte) : State :=
  { s with mgt := { s.mgt with out := s.mgt.out ++ [⟨m, dst, ses, data, 0, none⟩] } }

/-- The level of a sensor, 0 to 3. -/
def State.level (s : State) (sensor : Nat) : Nat :=
  ((List.range 4).filter (fun l => smem s.mgt.hot (sensor * 4 + l))).length

/-- A temperature sensor reads half degrees, with its three thresholds: a crossing raises PlatformEventMessage. -/
def State.sense (s : State) (sensor half : Nat) (bounds : List Nat) : State :=
  let prev := s.level sensor
  let level := (bounds.filter (fun b => decide (b ≤ half))).length
  if level = prev then s
  else
    let rest := s.mgt.hot.filter (fun k => k / 4 != sensor)
    let s := { s with mgt := { s.mgt with hot := rest ++ (List.range level).map (fun l => sensor * 4 + l) } }
    match s.mgt.receiver with
    | none => s
    | some (m, eid) => s.queueMsg m ⟨0, eid, 0, true⟩ none (sensorEvent s.mgt.tid sensor level prev half)

/-- WGH.TCFG.SOFT_C in half degrees. -/
def State.softHalf (s : State) : Nat := 2 * s.fld (wghR 0x90) 7 0

/-! ### Temperatures -/

/-- The highest temperature that a deck of the tower has reported. -/
def Tw.deckMax (x : Tw) : Nat := maxL (x.temp.map (fun y => y.2 - 1))

/-- R87: a reported temperature schedules a retrain of each working channel whose LAST_TEMP it differs from by RETRAIN_DT
or more. -/
def State.driftRetrain (s : State) (t : Nat) : State :=
  match s.hottest t with
  | none => s
  | some (_, h) =>
    forN 33 s (fun s c =>
      let dt := s.fld (memR t c 0x80) 19 16
      let last := s.fld (memR t c 0x94) 23 16
      let d := if last ≤ h / 2 then h / 2 - last else last - h / 2
      if s.chanWorks t c && decide (dt ≠ 0) && decide (dt ≤ d) then s.schedule t c else s)

/-- THM.TEMP shows the hottest deck once every deck has reported, and its sensor reads it. -/
def State.showDeck (s : State) (t : Nat) : State :=
  match s.hottest t with
  | none => s
  | some (d, h) =>
    ((s.setFld (thmR t 0x80) 19 16 d).setFld (thmR t 0x80) 15 4 h).sense (0x140 + t) h [s.softHalf, 190, 220]

/-- R71: the decks in hot refresh by the temperatures reported: entered above 85 °C, left below 83 °C. -/
def Tw.hotMask (x : Tw) : Nat :=
  sumL ((List.range 16).map (fun d =>
    let h := mget 0 x.temp d - 1
    if decide (170 < h) || (decide (166 ≤ h) && bitOf x.hotref d) then 2 ^ d else 0))

/-- R71, R87, R96, R402: DECK_TEMP_REPORT. -/
def execDeckTempReport (t : Tower) (deck : Deck) (half : HalfDeg) (s : State) : Host.Outcome State Fault Refusal :=
  let t := t.val
  let h := half.val
  if s.rst.ev != 10 then .next s
  else
    let s := s.modTower t (fun x => { x with temp := mset 0 x.temp deck.val (h + 1) })
    -- until every deck has reported, all count as at or below 85 °C
    let s := if (s.hottest t).isNone then s else
      let x := s.tower t
      (s.setTower t { x with hotref := x.hotMask }).setHeat t (heatStep deckBounds x.dstep x.deckMax) x.stretch
    let s := (s.showDeck t).driftRetrain t
    .next (if 220 ≤ h then s.thermalTrip else s.settleIdle)

/-- R450, R402: BASE_TEMP_READ. -/
def execBaseTempRead (t : Tower) (half : HalfDeg) (s : State) : Host.Outcome State Fault Refusal :=
  let t := t.val
  let h := half.val
  if s.rst.ev < 6 + t / 8 then .next s
  else
    let x := s.tower t
    let s := (s.setFld (thmR t 0x80) 31 20 h).setHeat t x.dstep (heatStep baseBounds x.stretch h)
    let s := s.sense (0x100 + t) h [s.softHalf, 200, 230]
    .next (if 230 ≤ h then s.thermalTrip else s)

/-- R455, R402: GATE_TEMP_READ. -/
def execGateTempRead (g : Fin 2) (half : HalfDeg) (s : State) : Host.Outcome State Fault Refusal :=
  let g := g.val
  let h := half.val
  if s.rst.ev < 3 then .next s
  else
    let s := s.setFld (gteR g 0x80) 31 20 h
    let s := if 210 ≤ h then (s.bump (gteR g 0xA4) 100).flagC (.gte g) 16 else s
    let s := s.sense (4 + g) h [200, 210, 230]
    .next (if 230 ≤ h then s.thermalTrip else s)

/-! ### Demands and grants, in units of 0.1 µW; registers show them in units of 0.125 W, truncated -/

/-- 0.125 W. -/
def unitW : Nat := 1250000

/-- D: the distributable budget of R441. -/
def State.budget (s : State) : Nat := (s.fld (wghR 0x80) 15 0 - 750) * 10000000

/-- g_f of a tower. -/
def State.gFloor (s : State) (t : Nat) : Nat := s.floorGrant (s.stallOf t)

/-- WGH.STLs of the stall of a tower. -/
def State.stlPower (s : State) (t : Nat) : Word := s.reg (wghR (0xA0 + 4 * s.stallOf t))

/-- The draw of n computing banks per deck: 40.625 n / 16 W (R441). -/
def banksDraw (n : Nat) : Nat := 25390625 * n

/-- The most that deck traffic of a tower draws: 29.69 W (R441). -/
def tsvMax : Nat := 296900000

/-- The demand of a tower: the sum of its classes. -/
def demandSum (d : Nat × Nat × Nat) : Nat := d.1 + banksDraw d.2.1 + d.2.2

/-- R445: DEMAND_REPORT: the draw asked in each class, each capped by R441. -/
def execDemandReport (t : Tower) (tsv : Fin 65536) (banks : Fin 17) (core : Fin 65536) (s : State) :
    Host.Outcome State Fault Refusal :=
  let t := t.val
  if s.rst.ev < 6 + t / 8 || decide (90000 < s.time % 100000) || (s.tower t).oos then .next s
  else
    let ceil := fget (s.stlPower t) 10 8
    let d := (min (tsv.val * unitW) tsvMax, min banks.val (s.maxBanks t), min (core.val * unitW) (s.pcore ceil))
    .next ((s.modTower t (fun x => { x with demand := some d })).setFld (thmR t 0x8C) 31 16 (demandSum d / unitW))

/-- The stall is LC for the epoch: its step holds LC sequences or an LC submission (R446). -/
def State.epochLc (s : State) (st : Nat) : Bool :=
  (s.sesOf st).any (fun x => x.inStep && !x.be) || s.subs.any (fun x => x.2.stall == st && x.2.started && !x.2.be)

/-- One round of the water-fill: towers with their need, weight and grant, and what is left to give. A tower whose need
its share covers is satisfied; when there is none, each takes its share truncated to 0.125 W and the remainders of
0.125 W go to the lower towers. -/
def fillRound (r : Nat) (l : List (Nat × Nat × Nat × Nat)) : Nat × List (Nat × Nat × Nat × Nat) × Bool :=
  let wsum := sumL ((l.filter (fun x => x.2.1 != 0)).map (fun x => x.2.2.1))
  let full (x : Nat × Nat × Nat × Nat) : Bool := x.2.1 != 0 && decide (x.2.1 * wsum ≤ r * x.2.2.1)
  if l.any full then
    (r - sumL ((l.filter full).map (fun x => x.2.1)),
     l.map (fun x => if full x then (x.1, 0, x.2.2.1, x.2.2.2 + x.2.1) else x), true)
  else
    let l := l.map (fun x => if x.2.1 = 0 || wsum = 0 then (x, 0) else (x, r * x.2.2.1 / wsum / unitW * unitW))
    let rest := r - sumL (l.map (·.2))
    let out := l.foldl (fun (acc : Nat × List (Nat × Nat × Nat × Nat)) (x, g) =>
      let e := if decide (unitW ≤ acc.1) && decide (g < x.2.1) then min unitW (x.2.1 - g) else 0
      (acc.1 - e, acc.2 ++ [(x.1, x.2.1 - (g + e), x.2.2.1, x.2.2.2 + g + e)])) (rest, [])
    (out.1, out.2, false)

/-- R446: fill r among towers of a class: rounds until a round satisfies no further tower. Each item is the tower, its
need, its weight and its grant. -/
def fill : Nat → Nat → List (Nat × Nat × Nat × Nat) → Nat × List (Nat × Nat × Nat × Nat)
  | 0, r, l => (r, l)
  | n + 1, r, l =>
    let (r, l, again) := fillRound r l
    if again then fill n r l else (r, l)

/-- R446: the grants of the next epoch, by tower: demands, and which stalls are LC. -/
def State.grants (s : State) (dem : Nat → Nat) : List (Nat × Nat) :=
  let live (t : Nat) : Bool := !(s.tower t).oos
  let g0 (t : Nat) : Nat := if live t then min (dem t) (s.gFloor t) else 0
  let r := s.budget - s.wgh.corr * 10000000 - sumL ((List.range 32).map g0)
  let items (lc : Bool) : List (Nat × Nat × Nat × Nat) :=
    ((List.range 32).filter (fun t => live t && s.epochLc (s.stallOf t) == lc)).map (fun t =>
      (t, dem t - g0 t, fget (s.stlPower t) 31 24, g0 t))
  let (r, a) := fill 33 r (items true)
  let (_, b) := fill 33 r (items false)
  (a ++ b).foldl (fun m x => mset 0 m x.1 x.2.2.2) []

/-- R445, R446: GRANT_COMPUTE: a tower that has not reported is given its floor; the classes of its grant are those of
the floor. -/
def execGrantCompute (s : State) : Host.Outcome State Fault Refusal :=
  if s.rst.ev < 3 || decide (s.time % 100000 < 90000) then .next s
  else
    let missing (t : Nat) : Bool := !(s.tower t).oos && (s.tower t).demand.isNone
    let dem (t : Nat) : Nat := match (s.tower t).demand with
      | some d => demandSum d
      | none => s.gFloor t
    let live := (List.range 32).filter (fun t => !(s.tower t).oos)
    let short := decide (s.budget < sumL (live.map dem))
    let next := s.grants dem
    let miss := (live.filter missing).length
    let s := live.foldl (fun (s : State) t =>
      let c := match (s.tower t).demand with
        | some d => (d.1, d.2.1)
        | none => (tsvMax, fget (s.stlPower t) 20 16)
      s.modTower t (fun x => { x with cls := c })) s
    let s := if miss = 0 then s else (s.bump (wghR 0x108) miss).flagC .wgh 17
    let s := if short then s.bump (wghR 0x104) 1 else s
    .next { s with wgh := { s.wgh with next := next } }

/-- R447: a tower divides its grant: TSV up to its demand, then the bench window, then the operating point. -/
def State.applyGrant (s : State) (t g : Nat) : State :=
  let x := s.tower t
  let w := s.stlPower t
  let tsv := min g x.cls.1
  let maxB := s.maxBanks t
  let rem := g - tsv
  let fits (n : Nat) : Bool := decide (banksDraw n ≤ rem)
  let n := maxL ((List.range (min maxB x.cls.2 + 1)).filter fits)
  let rem := rem - banksDraw n
  let n := max n (min (fget w 20 16) maxB)
  let ceil := s.fld (thmR t 0x84) 5 3
  let op := maxL ((List.range (ceil + 1)).filter (fun k => decide (s.pcore k ≤ rem)))
  let op := max op (fget w 2 0)
  (s.modTower t (fun y => { y with op := op, effBanks := n, rise := none })).showThm t

/-- R451: the ceiling of a tower at an epoch start. -/
def State.softCap (s : State) (t : Nat) : State :=
  let w := s.stlPower t
  let tb := s.fld (thmR t 0x80) 31 20
  let td := s.fld (thmR t 0x80) 15 4
  let c := min (s.fld (thmR t 0x84) 5 3) (fget w 10 8)
  if s.softHalf ≤ tb || s.softHalf ≤ td then
    let c' := max (c - 1) (fget w 2 0)
    let s := s.setFld (thmR t 0x84) 5 3 c'
    if c' < c then s.flagC (.thm t) 17 else s
  else if tb + 6 < s.softHalf && td + 6 < s.softHalf then
    s.setFld (thmR t 0x84) 5 3 (max (min (c + 1) (fget w 10 8)) (fget w 2 0))
  else s.setFld (thmR t 0x84) 5 3 (max c (fget w 2 0))

/-- R449: the input measurement of the epoch that ends, of which the values are free; corr. -/
def State.measureInput (s : State) : State :=
  let (v, s) := s.draw 65536
  let (i, s) := s.draw 65536
  let w := min 65535 (v * i / 10000)
  let lim := s.fld (wghR 0x80) 15 0
  let s := ((s.setFld (wghR 0x88) 31 16 v).setFld (wghR 0x88) 15 0 i).setFld (wghR 0x84) 31 16 w
  if lim < w then { s.flagC .wgh 18 with wgh := { s.wgh with corr := w - lim } }
  else { s with wgh := { s.wgh with corr := s.wgh.corr / 2 } }

/-- R445, R447 to R452: EPOCH_START: heat is charged for the epoch that ends, the ceilings move, falling grants take
effect and raised ones wait for their rise. -/
def execEpochStart (s : State) : Host.Outcome State Fault Refusal :=
  if s.rst.ev < 3 || s.time % 100000 != 0 then .next s
  else
    let s := (forN 4 s (fun s st => s.chargeHeat st)).measureInput
    let old := s.wgh.grants
    let new := s.wgh.next
    let s := { s with wgh := { s.wgh with grants := new, epochAt := s.time } }
    let s := s.setFld (wghR 0x84) 15 0 (sumL (new.map (·.2)) / 10000000 + 750)
    .next (forN 32 s (fun s t =>
      let g := mget 0 new t
      let s := ((s.countStretch t).setFld (thmR t 0x88) 15 0 (g / unitW)).softCap t
      let s := (s.modTower t (fun x => { x with demand := none, clipped := false })).setBit (thmR t 0x84) 6 false
      if (s.tower t).oos then s
      else if mget 0 old t < g then s.modTower t (fun x => { x with rise := some g })
      else s.applyGrant t g))

/-- R448: GRANT_RISE: 5 µs into the epoch, a raised grant takes effect. -/
def execGrantRise (t : Tower) (s : State) : Host.Outcome State Fault Refusal :=
  match (s.tower t.val).rise with
  | none => .next s
  | some g => .next (if s.time < s.wgh.epochAt + 5000 then s else s.applyGrant t.val g)

/-- R447: ISSUE_THROTTLE: the draw measured in a tower against its grant. -/
def execIssueThrottle (t : Tower) (measured : Fin 65536) (s : State) : Host.Outcome State Fault Refusal :=
  let t := t.val
  let m := measured.val
  if s.rst.ev < 6 + t / 8 || (s.tower t).oos then .next s
  else
    let s := s.setFld (thmR t 0x8C) 15 0 m
    if m * unitW ≤ mget 0 s.wgh.grants t then .next (s.setBit (thmR t 0x84) 6 false)
    else
      let first := !(s.tower t).clipped
      let s := (s.setBit (thmR t 0x84) 6 true).modTower t (fun x => { x with clipped := true })
      .next (if first then ((s.bump (thmR t 0xA0) 1).bump (wghR 0x100) 1).flagC (.thm t) 18 else s)

end Sys2Proof.Machine
end

