-- ==== Sys2Proof/Machine/Registers.lean ====
section
/-! DEFINITION. Reads and writes of registers: views that are computed (R48 and the chapters), permission (R45, R46,
R61), reserved encodings (R49), actions, staging (R52 to R59) and classes (R5). -/

namespace Sys2Proof.Machine

open Sys2Proof

/-! ### What a read returns -/

/-- R8, R405: the domain of a page is released. -/
def State.released (s : State) (pg : Pg) : Bool :=
  let ev := s.rst.ev
  match pg with
  | .hwp .. => decide (5 ≤ ev)
  | .twr t | .thm t | .bsq t | .pkr t | .ais t _ | .mem t _ => decide (6 + t / 8 ≤ ev)
  | .prt p => decide (4 ≤ ev) && s.present p
  | _ => decide (3 ≤ ev)

/-- BLK_STAT.READY: the page's domain is released and no block-level reset of the page runs (R48, R407). -/
def State.ready (s : State) (pg : Pg) : Bool := s.released pg && !smem s.rf.brst (pg.base / 4096)

/-- Bits 31 to 16 of BLK_STAT. -/
def State.blkStat (s : State) (pg : Pg) : Word :=
  let st := s.reg (pg.base + 0x14)
  match pg with
  | .mem t _ =>
    let x := s.tower t
    fset (fset (fset 0 31 28 (fget st 31 28)) 27 25 x.dstep) 24 24 (b2n (x.hotref != 0))
  | .bsq t =>
    let x := s.tower t
    let owed := maxL ((List.range 33).map (fun c => maxL ((s.chan t c).banks.map (fun b => b.2.owed))))
    fset (fset (fset (fset 0 31 27 x.effBanks) 25 25 (b2n x.bench.open_)) 24 24 (b2n x.bench.paused)) 23 20 (min owed 4)
  | .pkr t => fset 0 30 30 (b2n ((s.stall (s.stallOf t)).hist && (s.stall (s.stallOf t)).part != 0))
  | .stl _ => fset 0 31 28 (fget st 31 28)
  | .mgt => fset 0 31 30 (b2n s.mgt.i3c)
  | _ => 0

/-- The latched writes of a page are held (R48). -/
def State.lpend (s : State) (n : Nat) : Bool := s.rf.latched.any (fun h => h.addr / 4096 == n)

/-- The common header (R48). -/
def State.readHeader (s : State) (pg : Pg) (o : Nat) : Word :=
  let n := pg.base / 4096
  let x := s.txn n
  let ready := s.ready pg
  if o = 0 then w32 pg.id
  else if o = 0x10 then
    match pg with
    | .mem .. => s.reg (pg.base + 0x10) &&& 1#32
    | _ => w32 (b2n ready)
  else if o = 0x14 then
    let w := s.blkStat pg
    let w := fset w 4 4 (b2n ((pg.tower?.map (fun t => (s.tower t).oos)).getD false))
    fset (fset (fset (fset w 3 3 (b2n x.open_)) 2 2 (b2n (s.lpend n))) 1 1 (b2n (s.runs pg))) 0 0 (b2n ready)
  else if o = 0x20 then
    let src := match x.src with
      | some src => srcNum src
      | none => 7
    fset (fset (fset (fset 0 23 16 x.group) 15 8 x.staged.length) 6 4 src) 3 0 x.st
  else s.reg (pg.base + o)

/-- DEV.TXG_STATk: the states of eight groups. -/
def State.txgStat (s : State) (k : Nat) : Word :=
  forN 8 0 (fun w i => fset w (4 * i + 3) (4 * i) (s.grp (8 * k + i + 1)).st)

/-- The DEV page as source n reads it. -/
def State.readDev (s : State) (n o : Nat) : Word :=
  if o = 0x88 then fset (s.reg 0x88) 7 0 s.ports
  else if o = 0x8C then w32 n
  else if o = 0x90 then s.copy n 0
  else if o = 0x94 then s.copy n 1
  else if o = 0xA0 then w32 s.time
  else if o = 0xA4 then s.copy n 2
  else if o = 0xA8 then w32 s.rst.prec.serial.toNat
  else if o = 0xAC then w32 (s.rst.prec.serial.toNat >>> 32)
  else if o = 0xB4 then s.txgStat 0
  else if o = 0xB8 then s.txgStat 1
  else if o = 0x100 then s.copy n 3
  else if o = 0x104 then s.copy n 4
  else if 0x110 ≤ o && decide (o < 0x130) && o % 4 == 0 then s.copy n (5 + (o - 0x110) / 4)
  else s.reg o

/-- The STL page: sessions now waiting, admitted and parked; live sequences of each context. -/
def State.readStl (s : State) (st o : Nat) : Word :=
  let count (f : Ses → Bool) : Nat := ((s.sesOf st).filter f).length
  if o = 0x250 then
    fset (fset 0 31 16 (count (fun x => x.st == .wait && !x.be))) 14 0 (count (fun x => x.st != .wait))
  else if o = 0x254 then w32 (count (fun x => x.st == .parked))
  else if 0x400 ≤ o && o % 8 == 4 then
    fset (s.reg (stlR st o)) 14 0 (count (fun x => x.ctx == ctxNo st ((o - 0x400) / 8)))
  else s.reg (stlR st o)

/-- R214: the cores of an aisle whose queue j (0 MX, 1 VX) executes a command of its own family. -/
def State.busyMask (s : State) (t a j : Nat) : Nat :=
  sumL ((List.range 16).map (fun i =>
    let q := (s.core (coreKey t a i)).queue j
    if q.st == 1 && !q.go && (q.cur.map (fun d => dfld d 0 23 20)) == some (j + 1) then 2 ^ i else 0))

/-- The AIS page: busy and saturation flags, and the states of the cores' queues. -/
def State.readAis (s : State) (t a o : Nat) : Word :=
  if o = 0x104 then w32 (s.busyMask t a 0)
  else if o = 0x204 then w32 (s.busyMask t a 1)
  else if 0x140 ≤ o && decide (o < 0x180) then w32 (s.core (coreKey t a ((o - 0x140) / 4))).sat.toNat
  else if 0x300 ≤ o && decide (o < 0x340) then
    let c := s.core (coreKey t a ((o - 0x300) / 4))
    let slot := match (s.aisle (t * 32 + a)).cur with
      | some k => ((s.subs.find? (fun y => y.1 == k)).map (fun y => y.2.slot)).getD 255
      | none => 255
    fset (fset (fset (fset (fset 0 23 16 slot) 7 6 (c.queue 3).st) 5 4 (c.queue 2).st) 3 2 (c.queue 1).st) 1 0 (c.queue 0).st
  else s.reg (aisR t a o)

/-- The SEC page: fuses and keys held. -/
def State.readSec (s : State) (o : Nat) : Word :=
  if 0x104 ≤ o && decide (o < 0x114) then w32 (s.arbCtr ((o - 0x100) / 4))
  else if o = 0x124 then fset (s.reg (secR o)) 3 0 s.fuses.revoked.toNat
  else if o = 0x128 then
    fset (fset 0 19 16 (sumL (s.sec.model.map (fun x => 2 ^ x.1)))) 8 0 s.sec.ctxKey.length
  else s.reg (secR o)

/-- What source n reads at a BAR0 address; reserved offsets read zero (R4, R6, R51). -/
def State.read (s : State) (n addr : Nat) : Word :=
  let o := addr % 4096
  match pageNo (addr / 4096) with
  | none => 0
  | some pg =>
    if (pg.kind.regAt o).isNone then 0
    else if o < 0x80 then s.readHeader pg o
    else match pg with
      | .dev => s.readDev n o
      | .stl st => s.readStl st o
      | .ais t a => s.readAis t a o
      | .sec => s.readSec o
      | .bsq t =>
        if o = 0x84 then
          let b := (s.tower t).bench
          if b.open_ then fset (fset (fset 0 23 16 b.cmds) 8 8 1) 7 0 b.ctx else 0
        else s.reg addr
      | .mem t _ =>
        if o = 0x90 then
          let (d, h) := (s.hottest t).getD (0, 0)
          fset (fset (fset 0 31 28 d) 27 16 h) 15 0 (s.tower t).hotref
        else s.reg addr
      | .wgh =>
        if 0xC0 ≤ o && decide (o < 0xE0) then
          let (mhz, mv, p) := (s.fuses.ops[(o - 0xC0) / 4]?).getD (0, 0, 0)
          fset (fset (fset 0 31 20 mhz) 19 10 mv) 9 0 p
        else s.reg addr
      | _ => s.reg addr

/-! ### Who may write (R45, R46, R61) -/

/-- R305: the port owns every stall of the present configuration. -/
def State.ownsAll (s : State) (p : Nat) : Bool := (List.range s.stalls).all (fun st => s.owner st == p)

/-- R45 with the additions of the chapters: may the source write val at offset o of the page? -/
def State.mayWrite (s : State) (src : Src) (pg : Pg) (o : Nat) (val : Word) : Bool :=
  match src with
  | .mgmt _ _ sec =>
    match pg with
    | .dev => o != 0x90
    | .sec =>
      if 0xC0 ≤ o && decide (o < 0x100) then sec
      else if o = 0x120 || o == 0x124 then sec
      else if 0x80 ≤ o && decide (o < 0xC0) && o % 16 == 12 then sec || !fbit val 30
      else true
    | _ => true
  | .port p _ =>
    let owns (st : Nat) : Bool := s.owner st == p.val
    let ownsSome := (List.range s.stalls).any owns
    if pg = .dev && o == 0x90 then true
    else if !s.accepted p.val then false
    else match pg with
      | .dev => if o = 0xC0 || o == 0xD0 then s.ownsAll p.val else true
      | .stl st => owns st && !(o == 0x80 && fbit val 31)
      | .twr t | .thm t | .bsq t | .pkr t | .hwp t _ | .mem t _ | .ais t _ => owns (s.stallOf t)
      | .prt q => q == p.val || (decide (0x100 ≤ o) && decide (o < 0x200))
      | .sec =>
        decide (0x80 ≤ o) && decide (o < 0xC0) && owns ((o - 0x80) / 16) && !(o % 16 == 12 && fbit val 30)
      | .wgh =>
        if 0xA0 ≤ o && decide (o < 0xB0) then owns ((o - 0xA0) / 4)
        else (o == 0x20 || o == 0x24) && ownsSome
      | .fls => o == 0x90 && s.portMode p.val == .restricted
      | _ => false

/-! ### Reserved encodings (R49) -/

/-- The value lies in one of the reserved ranges of a field. -/
def Field.reserved (f : Field) (val : Word) : Bool :=
  (f.acc == .rw || f.acc == .wo) && f.rsv.any (fun (a, b) => decide (a ≤ fget val f.hi f.lo) && decide (fget val f.hi f.lo ≤ b))

/-- R49: a write carries a reserved encoding; fields that go with an action count only beside it. -/
def State.reservedWrite (s : State) (pg : Pg) (o : Nat) (r : RegDef) (val : Word) : Bool :=
  r.fields.any (fun f => f.reserved val) || (o == 0x20 && fget val 31 30 == 1 && decide (16 < fget val 23 16)) ||
  match pg with
  | .dev => o == 0xB0 && fget val 31 30 != 0 && (fget val 7 0 == 0 || decide (16 < fget val 7 0))
  | .stl _ => o == 0x80 && fbit val 31 && [4, 5, 6].contains (fget val 2 0)
  | .sec => o == 0x120 && fbit val 31 && (fget val 2 0 == 0 || decide (4 < fget val 2 0))
  | .wgh =>
    0xA0 ≤ o && decide (o < 0xB0) &&
      (decide (fget val 10 8 < s.fld (wghR o) 2 0) || decide (fget val 10 8 < fget val 2 0))
  | _ => false

/-! ### Transactions (R52 to R59) -/

/-- A source number equals the opener's. -/
def Txn.by (x : Txn) (src : Src) : Bool :=
  match x.src with
  | some y => srcNum y == srcNum src
  | none => false

/-- R52, R57: BEGIN. -/
def State.txnBegin (s : State) (src : Src) (n g : Nat) (pg : Pg) : State :=
  let x := s.txn n
  let y := s.grp g
  if x.open_ then s.flagConflict pg
  else if g = 0 then s.setTxn n ⟨1, some src, 0, []⟩
  else if y.st = 1 && y.owner == srcNum src && decide (y.members.length < 64) then
    (s.setTxn n ⟨1, some src, g, []⟩).setGrp g { y with members := y.members ++ [n] }
  else s.flagConflict pg

/-- R54, R58: COMMIT of a page. DESIGN CHOICE (assumption log 119): a PRT page holds no L field and no S field, so R50 gives
its transactions no safe point of their own; they are applied at once, whether or not the link is up. -/
def State.txnCommit (s : State) (src : Src) (n : Nat) (pg : Pg) : State :=
  let x := s.txn n
  if x.st ≠ 1 || !x.by src || x.group != 0 then s.flagConflict pg
  else
    let s := s.setTxn n { x with st := 2 }
    if pg.always || !s.runs pg || pg.kind == .prt then s.applyTxn n
    else { s with rf := { s.rf with commits := s.rf.commits ++ [n] } }

/-- R55, R58: ROLLBACK of a page. -/
def State.txnRollback (s : State) (src : Src) (n : Nat) (pg : Pg) : State :=
  let x := s.txn n
  if !x.open_ || !(x.by src || srcNum src == 4) then s.flagConflict pg
  else if x.group = 0 then s.rollPage n
  else s.endGroup x.group 4

/-- R52 to R55: a command written to BLK_TXN: 1 BEGIN, 2 COMMIT, 3 ROLLBACK. -/
def State.txnCmd (s : State) (src : Src) (n : Nat) (pg : Pg) (val : Word) : State :=
  match fget val 31 30 with
  | 1 => s.txnBegin src n (fget val 23 16) pg
  | 2 => s.txnCommit src n pg
  | 3 => s.txnRollback src n pg
  | _ => s

/-- R57 to R59: a command written to DEV.TXG_CMD: 1 OPEN, 2 COMMIT, 3 ABORT. -/
def State.txgCmd (s : State) (src : Src) (val : Word) : State :=
  let g := fget val 7 0
  let x := s.grp g
  let mine := x.owner == srcNum src
  match fget val 31 30 with
  | 1 =>
    if x.st = 0 || ([3, 4, 5].contains x.st && mine) then s.setGrp g ⟨1, srcNum src, [], none, 0⟩
    else s.flagConflict .dev
  | 2 =>
    if x.st ≠ 1 || !mine then s.flagConflict .dev
    else if x.members.any (fun n => s.waitsReconf n) then s.endGroup g 5
    else (x.members.foldl (fun (s : State) n => s.setTxn n { s.txn n with st := 2 }) s).setGrp g { x with st := 2 }
  | 3 => if [1, 2].contains x.st && mine then s.endGroup g 4 else s.flagConflict .dev
  | _ => s

/-! ### Actions of WO fields -/

/-- R306: a CLAIM or RELEASE of a port: the pending owner must be none, or the port. -/
def State.claimStall (s : State) (p st : Nat) (release : Bool) : State :=
  let ok := decide (st < s.stalls) && s.pendingOwner st == (if release then p else 7)
  let s := s.setFld (prtR p 0x400) 3 2 (if ok then 1 else 2)
  if ok then s.pushOwner st (if release then 7 else p) else s

/-- Does a write of val request an action through a WO field beside which RW fields of the same register stand? They are
written before the action, which takes its own operands from the write (assumption log 104). -/
def takesCompanion (pg : Pg) (o : Nat) (val : Word) : Bool :=
  match pg with
  | .pkr _ => o == 0x94 && fbit val 31
  | .mem .. => o == 0x100 && (fbit val 31 || fbit val 30)
  | .sec => (o == 0x120 || o == 0x124) && fbit val 31
  | .fls => o == 0x90 && fget val 31 28 != 0
  | .prt _ => o == 0x400 && (fbit val 31 || fbit val 30)
  | _ => false

/-- The actions that a write of val at offset o of a page requests, in the page's own order. -/
def State.act (s : State) (src : Src) (pg : Pg) (o : Nat) (val : Word) : State :=
  let n := pg.base / 4096
  if o = 0x10 then (if fbit val 1 then s.brst n else s)
  else if o = 0x18 then
    s.setReg (pg.base + 0x18) (s.reg (pg.base + 0x18) &&& ~~~val)
  else if o = 0x20 then s.txnCmd src n pg val
  else match pg with
    | .dev =>
      if o = 0xB0 then s.txgCmd src val
      else if o = 0xC0 then (if fbit val 0 then s.modRst (fun x => { x with swrst := true }) else s)
      else s
    | .stl st =>
      if o = 0x80 then (if fbit val 31 && decide (st < s.stalls) then s.pushOwner st (fget val 2 0) else s)
      else if o = 0x84 then
        if fbit val 31 && decide (st < s.stalls) then
          s.modStall st (fun x => { x with reconf := some (fbit val 30) })
        else s
      else if o = 0x280 then (if fbit val 31 then s.integCheck st else s)
      else s
    | .pkr t =>
      if o = 0x94 && fbit val 31 then
        s.modStall (s.stallOf t) (fun x => { x with loads := x.loads ++ [t * 256 + fget val 7 0] })
      else s
    | .mem t c =>
      if o = 0x94 then (if fbit val 31 then s.schedule t c else s)
      else if o = 0x98 then
        if fget val 31 30 = 1 then s.repairGo t c else if fget val 31 30 = 2 then s.repairStop t c else s
      else if o = 0x100 then
        let s := if fbit val 31 then s.tgStart t c else s
        if fbit val 30 then s.tgHalt t c else s
      else s
    | .sec =>
      if 0xC0 ≤ o && decide (o < 0x100) then
        { s with sec := { s.sec with kimport := mset 0 s.sec.kimport ((o - 0xC0) / 4) val } }
      else if 0x80 ≤ o && decide (o < 0xC0) && o % 16 == 12 then
        let st := (o - 0x80) / 16
        let s := if fbit val 31 then s.newModelKey st else s
        if fbit val 30 then s.importModelKey st else s
      else if o = 0x120 then (if fbit val 31 then s.arbCommit (fget val 2 0) else s)
      else if o = 0x124 then (if fbit val 31 then s.revokeKey (fget val 9 8) else s)
      else s
    | .fls =>
      if o = 0x88 then (if fbit val 31 then s.swapSlot else s)
      else if o = 0x90 then s.loadCmd src (fget val 31 28) (fget val 16 0)
      else s
    | .rsc => if o = 0x84 then (if fbit val 31 then s.retryBoot else s) else s
    | .prt p =>
      if o = 0x400 then
        let s := if fbit val 31 then s.claimStall p (fget val 1 0) false else s
        if fbit val 30 then s.claimStall p (fget val 1 0) true else s
      else s
    | _ => s

/-! ### RW fields: staging and classes -/

/-- R5, R54: a plain write of the RW bits of a register, each field by its class. -/
def State.plainWrite (s : State) (src : Src) (pg : Pg) (addr : Nat) (val : Word) : State :=
  let sm := rwBits addr (fun c => c == .s)
  let lm := rwBits addr (fun c => c == .l)
  let dm := rwBits addr (fun c => c == .d)
  if pg.always then
    let s := if sm = 0 then s else s.holdS addr sm val
    if dm = 0 then s else s.applyRW src addr dm val
  else if !s.runs pg then s.applyRW src addr (sm ||| lm ||| dm) val
  else
    let s := if (s.reg addr ^^^ val) &&& sm = 0 then s else s.flagWhileRun pg
    let s := if lm = 0 then s
      else { s with rf := { s.rf with latched := s.rf.latched ++ [⟨addr, lm.toNat, val.toNat⟩] } }
    if dm = 0 then s else s.applyRW src addr dm val

/-- R53: stage a write; the 65th fails the transaction and, of a group, the group. -/
def State.stage (s : State) (n o : Nat) (val : Word) (pg : Pg) : State :=
  let x := s.txn n
  if x.staged.length < 64 then s.setTxn n { x with staged := x.staged ++ [(o, val)] }
  else
    let s := s.flagAbort pg
    if x.group = 0 then s.setTxn n { x with st := 5, staged := [] } else s.endGroup x.group 5

/-- R53 to R55: the RW fields of a write. BLK_TXTAG is never staged; EN counts only in MEM pages (R48). The RW fields
beside an action are no exception: they are staged for the opener and refused to others. -/
def State.writeRW (s : State) (src : Src) (pg : Pg) (addr : Nat) (val : Word) : State :=
  let o := addr % 4096
  let n := addr / 4096
  let x := s.txn n
  if rwBits addr (fun _ => true) = 0 || o == 0x20 || (o == 0x10 && pg.kind != .mem) || (o == 0x80 && pg.kind == .stl) then s
  else if x.st = 5 || (x.open_ && !x.by src) then s.flagConflict pg
  else if x.st = 1 && o != 0x24 then s.stage n o val pg
  else s.plainWrite src pg addr val

/-! ### A write of one register -/

/-- R45 to R59: a 32-bit write by a source that its interface has received. Fields that go with an action, and EN beside
BRST, are written before it. -/
def State.writeReg (s : State) (src : Src) (addr : Nat) (val : Word) : State :=
  let o := addr % 4096
  match pageNo (addr / 4096) with
  | none => s
  | some pg =>
    match pg.kind.regAt o with
    | none => s
    | some r =>
      if !s.released pg then s
      else if !s.mayWrite src pg o val then s.denyWrite src addr
      else if s.reservedWrite pg o r val then
        match pg with
        | .twr t => if o = 0x80 then s.logErr (.twr t) 0x2100 0 0 0 else s.flagResval pg
        | _ => s.flagResval pg
      else if takesCompanion pg o val || o == 0x10 then (s.writeRW src pg addr val).act src pg o val
      else (s.act src pg o val).writeRW src pg addr val

/-- R411: the pages that port 0 presents in its restricted mode. -/
def Pg.restricted : Pg → Bool
  | .dev | .rsc | .sec | .mgt | .fls => true
  | _ => false

/-- R361, R411: how the source's interface receives a BAR0 access: none when it drops or refuses it, with what that leaves
behind. -/
def State.receive (s : State) (src : Src) (addr : Nat) : Bool × State :=
  match src with
  | .mgmt .. => (decide (3 ≤ s.rst.ev), s)
  | .port p _ =>
    match s.portMode p.val with
    | .refuses => (false, s.portEvent p.val 0x2000 addr (srcInfo src))
    | .restricted => (((pageNo (addr / 4096)).map Pg.restricted).getD false, s)
    | .normal => (true, s)

/-- A write of one register from a source, as it arrives; what is due at once then takes effect (R467). -/
def State.regCmd (s : State) (src : Src) (addr : Nat) (val : Word) : State :=
  let (ok, s) := s.receive src addr
  if ok then (s.writeReg src addr val).settleIdle else s

end Sys2Proof.Machine
end

