-- ==== Sys2Proof/Machine/RegRows.lean ====
section
/-! DEFINITION. The register writes and reads that are rows of their own: each is a write of its register as R45 to R59
govern it. -/

namespace Sys2Proof.Machine

open Sys2Proof

/-- Bits as a word. -/
def bitW (i : Nat) : Word := w32 (2 ^ i)

/-! ### BAR0 accesses (R5, R32, R63) -/

/-- R5, R32: REG_WRITE: 4 B or 8 B, aligned; 8 B is two writes, lower address first. Any other is dropped and recorded. -/
def execRegWrite (src : Src) (addr : BarOff) (size : Nat) (val : W64) (s : State) : Host.Outcome State Fault Refusal :=
  let a := addr.toNat
  if size = 4 && a % 4 == 0 then .next (s.regCmd src a (w32 val.toNat))
  else if size = 8 && a % 8 == 0 then
    .next ((s.regCmd src a (w32 val.toNat)).regCmd src (a + 4) (w32 (val.toNat >>> 32)))
  else match src with
    | .port p _ =>
      let (ok, s) := s.receive src a
      .next (if ok then s.logErr (.prt p.val) 0x0100 0 a (srcInfo src) else s)
    | .mgmt .. => .next s

/-- A 4 B read of a register; one of TIME_LO latches TIME_HI for the source (R63). -/
def State.readWord (s : State) (src : Src) (addr : Nat) : Word × State :=
  (s.read (srcNum src) addr, if addr = devR 0xA0 then s.setCopy (srcNum src) 2 (w32 (s.time >>> 32)) else s)

/-- The answer to a BAR0 read of the source. -/
def State.answerRead (s : State) (src : Src) (ws : List Word) : State :=
  match src with
  | .port p _ => s.emit (.cpl p.val 0 (ws.flatMap (fun w => leBytes 4 w.toNat)) false)
  | .mgmt .. => s.emit (.regs ws)

/-- R32, R63: TIME_LO_READ: a BAR0 read, of TIME_LO and with it latching TIME_HI, or of another register. One of 8 B is two
of 4 B, lower address first; one of any other size or alignment receives a Completer Abort and is recorded (R423). -/
def execTimeLoRead (r : RegRead) (s : State) : Host.Outcome State Fault Refusal :=
  let src := r.src
  let a := r.addr.toNat
  let (ok, s) := s.receive src a
  if !ok then .next (match src with
    | .port p _ => s.emit (.cpl p.val 1 [] false)
    | .mgmt .. => s)
  else if r.size = 4 && a % 4 == 0 then
    let (w, s) := s.readWord src a
    .next (s.answerRead src [w])
  else if r.size = 8 && a % 8 == 0 then
    let (w, s) := s.readWord src a
    let (w', s) := s.readWord src (a + 4)
    .next (s.answerRead src [w, w'])
  else match src with
    | .port p _ => .next ((s.logErr (.prt p.val) 0x0100 0 a (srcInfo src)).emit (.cpl p.val 4 [] false))
    | .mgmt .. => .next s

/-! ### Windows (R34, R36) -/

/-- R34: WIN_BASE_WRITE. -/
def execWinBaseWrite (src : Src) (p : Port) (w : Fin 8) (val : Word) (s : State) : Host.Outcome State Fault Refusal :=
  .next (s.regCmd src (prtR p.val (0x84 + 8 * w.val)) val)

/-- R34: WIN_CTL_WRITE. -/
def execWinCtlWrite (src : Src) (p : Port) (w : Fin 8) (val : Word) (s : State) : Host.Outcome State Fault Refusal :=
  .next (s.regCmd src (prtR p.val (0x80 + 8 * w.val)) val)

/-- R36: ACW_HELD_WRITE. -/
def execAcwHeldWrite (src : Src) (p : Port) (a : Fin 16) (limit : Bool) (val : Word) (s : State) :
    Host.Outcome State Fault Refusal :=
  .next (s.regCmd src (prtR p.val ((if limit then 0x108 else 0x104) + 16 * a.val)) val)

/-- R36: ACW_CTL_WRITE. -/
def execAcwCtlWrite (src : Src) (p : Port) (a : Fin 16) (val : Word) (s : State) : Host.Outcome State Fault Refusal :=
  .next (s.regCmd src (prtR p.val (0x100 + 16 * a.val)) val)

/-- R25: MEMMAP_WRITE. -/
def execMemmapWrite (src : Src) (t : Tower) (val : Word) (s : State) : Host.Outcome State Fault Refusal :=
  .next (s.regCmd src (twrR t.val 0x80) val)

/-! ### Transactions (R52 to R59) -/

/-- R52: TXN_BEGIN. -/
def execTxnBegin (src : Src) (page : PageNo) (group : Byte) (s : State) : Host.Outcome State Fault Refusal :=
  .next (s.regCmd src (page.toNat * 4096 + 0x20) (w32 (2 ^ 30 + group.toNat * 2 ^ 16)))

/-- R54: TXN_COMMIT. -/
def execTxnCommit (src : Src) (page : PageNo) (s : State) : Host.Outcome State Fault Refusal :=
  .next (s.regCmd src (page.toNat * 4096 + 0x20) (bitW 31))

/-- R55: TXN_ROLLBACK. -/
def execTxnRollback (src : Src) (page : PageNo) (s : State) : Host.Outcome State Fault Refusal :=
  .next (s.regCmd src (page.toNat * 4096 + 0x20) (w32 (3 * 2 ^ 30)))

/-- R57: TXG_OPEN. -/
def execTxgOpen (src : Src) (g : Byte) (s : State) : Host.Outcome State Fault Refusal :=
  .next (s.regCmd src (devR 0xB0) (w32 (2 ^ 30 + g.toNat)))

/-- R59: TXG_COMMIT. -/
def execTxgCommit (src : Src) (g : Byte) (s : State) : Host.Outcome State Fault Refusal :=
  .next (s.regCmd src (devR 0xB0) (w32 (2 ^ 31 + g.toNat)))

/-- R58: TXG_ABORT. -/
def execTxgAbort (src : Src) (g : Byte) (s : State) : Host.Outcome State Fault Refusal :=
  .next (s.regCmd src (devR 0xB0) (w32 (3 * 2 ^ 30 + g.toNat)))

/-- R59 step 4: TXG_TIMEOUT: 10 ms after the first hold an armed group fails. -/
def execTxgTimeout (g : Byte) (s : State) : Host.Outcome State Fault Refusal :=
  let x := s.grp g.toNat
  match x.since with
  | some t => .next (if x.st = 2 && decide (t + 10000000 ≤ s.time) then (s.endGroup g.toNat 5).settleIdle else s)
  | none => .next s

/-- R57: TXG_RELEASE: 1 s after it ended, a group is FREE. -/
def execTxgRelease (g : Byte) (s : State) : Host.Outcome State Fault Refusal :=
  let x := s.grp g.toNat
  .next (if [3, 4, 5].contains x.st && decide (x.endAt + 1000000000 ≤ s.time) then s.setGrp g.toNat Grp.reset else s)

/-! ### DEV -/

/-- R60: IFVER_REQ_WRITE. -/
def execIfverReqWrite (p : Port) (rid : Rid) (val : Word) (s : State) : Host.Outcome State Fault Refusal :=
  .next (s.regCmd (.port p rid) (devR 0x90) val)

/-- R398: SWRST_GO. -/
def execSwrstGo (src : Src) (s : State) : Host.Outcome State Fault Refusal :=
  .next (s.regCmd src (devR 0xC0) (bitW 0))

/-- R305: PARTITION_CHANGE. -/
def execPartitionChange (src : Src) (val : Word) (s : State) : Host.Outcome State Fault Refusal :=
  .next (s.regCmd src (devR 0xD0) val)

/-- R425: ERR_SEL_WRITE. -/
def execErrSelWrite (src : Src) (val : Word) (s : State) : Host.Outcome State Fault Refusal :=
  .next (s.regCmd src (devR 0x100) val)

/-! ### MEM, TWR and PKR -/

/-- R87: TRAIN_REQ. -/
def execTrainReq (src : Src) (t : Tower) (c : Chan) (s : State) : Host.Outcome State Fault Refusal :=
  .next (s.regCmd src (memR t.val c.val 0x94) (bitW 31))

/-- R90: REPAIR_START. -/
def execRepairStart (src : Src) (t : Tower) (c : Chan) (s : State) : Host.Outcome State Fault Refusal :=
  .next (s.regCmd src (memR t.val c.val 0x98) (bitW 30))

/-- R94: REPAIR_ABORT. -/
def execRepairAbort (src : Src) (t : Tower) (c : Chan) (s : State) : Host.Outcome State Fault Refusal :=
  .next (s.regCmd src (memR t.val c.val 0x98) (bitW 31))

/-- R95: TG_GO. -/
def execTgGo (src : Src) (t : Tower) (c : Chan) (val : Word) (s : State) : Host.Outcome State Fault Refusal :=
  .next (s.regCmd src (memR t.val c.val 0x100) (val ||| bitW 31))

/-- R95: TG_STOP. -/
def execTgStop (src : Src) (t : Tower) (c : Chan) (val : Word) (s : State) : Host.Outcome State Fault Refusal :=
  .next (s.regCmd src (memR t.val c.val 0x100) ((val ||| bitW 30) &&& ~~~(bitW 31)))

/-- R97: MEM_EN_WRITE. -/
def execMemEnWrite (src : Src) (t : Tower) (c : Chan) (en : Bool) (s : State) : Host.Outcome State Fault Refusal :=
  .next (s.regCmd src (memR t.val c.val 0x10) (w32 (b2n en)))

/-- R156: KV_ISOLATE_WRITE: a write of TWR.KV_CFG. -/
def execKvIsolateWrite (src : Src) (t : Tower) (val : Word) (s : State) : Host.Outcome State Fault Refusal :=
  .next (s.regCmd src (twrR t.val 0xA0) val)

/-- R253: TAB_LOAD. -/
def execTabLoad (src : Src) (t : Tower) (tid : Byte) (s : State) : Host.Outcome State Fault Refusal :=
  .next (s.regCmd src (pkrR t.val 0x94) (w32 (2 ^ 31 + tid.toNat)))

/-! ### PRT and STL -/

/-- R289: RING_CTL_WRITE. -/
def execRingCtlWrite (src : Src) (p : Port) (n : Pair) (val : Word) (s : State) : Host.Outcome State Fault Refusal :=
  .next (s.regCmd src (prtR p.val (0x200 + 64 * n.val)) val)

/-- R306: CLAIM. -/
def execClaim (src : Src) (p : Port) (st : Stall) (s : State) : Host.Outcome State Fault Refusal :=
  .next (s.regCmd src (prtR p.val 0x400) (w32 (2 ^ 31 + st.val)))

/-- R306: RELEASE. -/
def execRelease (src : Src) (p : Port) (st : Stall) (s : State) : Host.Outcome State Fault Refusal :=
  .next (s.regCmd src (prtR p.val 0x400) (w32 (2 ^ 30 + st.val)))

/-- R306: OWNER_SET. -/
def execOwnerSet (src : Src) (st : Stall) (port : Fin 8) (s : State) : Host.Outcome State Fault Refusal :=
  .next (s.regCmd src (stlR st.val 0x80) (w32 (2 ^ 31 + port.val)))

/-- R307: RECONF_GO. -/
def execReconfGo (src : Src) (st : Stall) (force : Bool) (s : State) : Host.Outcome State Fault Refusal :=
  .next (s.regCmd src (stlR st.val 0x84) (w32 (2 ^ 31 + b2n force * 2 ^ 30)))

/-- R309: CONTEXT_OPEN. -/
def execContextOpen (src : Src) (st : Stall) (k : Fin 64) (val : Word) (s : State) : Host.Outcome State Fault Refusal :=
  .next (s.regCmd src (ctxCfg st.val k.val) (val ||| bitW 31))

/-- R310: CONTEXT_CLOSE: the register is written as it stands with EN = 0. -/
def execContextClose (src : Src) (st : Stall) (k : Fin 64) (s : State) : Host.Outcome State Fault Refusal :=
  .next (s.regCmd src (ctxCfg st.val k.val) (s.reg (ctxCfg st.val k.val) &&& ~~~(bitW 31)))

/-- R407: BRST_WRITE: EN is written as it stands. -/
def execBrstWrite (src : Src) (page : PageNo) (s : State) : Host.Outcome State Fault Refusal :=
  let a := page.toNat * 4096 + 0x10
  .next (s.regCmd src a (s.reg a &&& 1#32 ||| bitW 1))

/-- R432: INTEG_RESUME. -/
def execIntegResume (src : Src) (st : Stall) (s : State) : Host.Outcome State Fault Refusal :=
  .next (s.regCmd src (stlR st.val 0x280) (bitW 31))

/-! ### SEC -/

/-- R379: ARB_COMMIT. -/
def execArbCommit (src : Src) (type : Fin 8) (s : State) : Host.Outcome State Fault Refusal :=
  .next (s.regCmd src (secR 0x120) (w32 (2 ^ 31 + type.val)))

/-- R380: REVOKE. -/
def execRevoke (src : Src) (idx : Fin 4) (s : State) : Host.Outcome State Fault Refusal :=
  .next (s.regCmd src (secR 0x124) (w32 (2 ^ 31 + idx.val * 2 ^ 8)))

/-- R391: NEWKEY. -/
def execNewkey (src : Src) (st : Stall) (s : State) : Host.Outcome State Fault Refusal :=
  .next (s.regCmd src (secR (0x8C + 16 * st.val)) (bitW 31))

/-- R391: IMPORT. -/
def execImportKey (src : Src) (st : Stall) (s : State) : Host.Outcome State Fault Refusal :=
  .next (s.regCmd src (secR (0x8C + 16 * st.val)) (bitW 30))

/-- R391: KIMPORT_WRITE. -/
def execKimportWrite (src : Src) (i : Fin 16) (val : Word) (s : State) : Host.Outcome State Fault Refusal :=
  .next (s.regCmd src (secR (0xC0 + 4 * i.val)) val)

/-! ### FLS, RSC and WGH -/

/-- R412: LOAD_BEGIN. -/
def execLoadBegin (src : Src) (s : State) : Host.Outcome State Fault Refusal :=
  .next (s.regCmd src (flsR 0x90) (w32 (1 * 2 ^ 28)))

/-- R412: LOAD_CHUNK. -/
def execLoadChunk (src : Src) (len : BitVec 17) (s : State) : Host.Outcome State Fault Refusal :=
  .next (s.regCmd src (flsR 0x90) (w32 (2 * 2 ^ 28 + len.toNat)))

/-- R412: LOAD_END. -/
def execLoadEnd (src : Src) (s : State) : Host.Outcome State Fault Refusal :=
  .next (s.regCmd src (flsR 0x90) (w32 (3 * 2 ^ 28)))

/-- R412: LOAD_ABORT. -/
def execLoadAbort (src : Src) (s : State) : Host.Outcome State Fault Refusal :=
  .next (s.regCmd src (flsR 0x90) (w32 (4 * 2 ^ 28)))

/-- R415: BOOT_RETRY. -/
def execBootRetry (src : Src) (s : State) : Host.Outcome State Fault Refusal :=
  .next (s.regCmd src (rscR 0x84) (bitW 31))

/-- R418: SLOT_SWAP. -/
def execSlotSwap (src : Src) (s : State) : Host.Outcome State Fault Refusal :=
  .next (s.regCmd src (flsR 0x88) (bitW 31))

/-- R443: MODULE_W_WRITE. -/
def execModuleWWrite (src : Src) (val : Word) (s : State) : Host.Outcome State Fault Refusal :=
  .next (s.regCmd src (wghR 0x80) val)

end Sys2Proof.Machine
end

