-- ==== Sys2Proof/Machine/Mgmt.lean ====
section
/-! DEFINITION. The management target below its messages: modes of the bus, rate limits, sending, and register access
(R367, R368, R371 to R374). -/

namespace Sys2Proof.Machine

open Sys2Proof

def State.modMgt (s : State) (f : Mgt → Mgt) : State := { s with mgt := f s.mgt }

/-- n free bytes (assumption log 13). -/
def State.drawBytes (s : State) (n : Nat) : List Byte × State :=
  ((List.range n).map (fun i => Config.freeByte (s.free + i)), { s with free := s.free + n })

/-- The target lives in D2, and ignores the bus from an HDR entry to the HDR exit (R367). -/
def State.busUp (s : State) : Bool := decide (3 ≤ s.rst.ev) && !s.mgt.hdr

/-- A medium carries messages: the bus, or a port that is present with its link up (R369). -/
def State.mediumUp (s : State) (m : Medium) : Bool :=
  match m with
  | .bus => s.busUp
  | .vdm p => decide (3 ≤ s.rst.ev) && s.present p.val && s.linkUpNow p.val && !s.portShut p.val

/-- The EID of the target on a medium (R370). -/
def State.eid (s : State) (m : Medium) : Option Byte :=
  match m with
  | .bus => if s.bit (mgtR 0x8C) 31 then some (BitVec.ofNat 8 (s.fld (mgtR 0x8C) 7 0)) else none
  | .vdm p => match mget 0 s.mgt.vdmEid p.val with
    | 0 => none
    | e + 1 => some (BitVec.ofNat 8 e)

/-! ### The bus (R367, R368) -/

/-- The target takes a dynamic address and runs I3C. -/
def State.takeAddr (s : State) (dyn : BitVec 7) : State :=
  (s.modMgt (fun x => { x with i3c := true })).setFld (mgtR 0x88) 14 8 dyn.toNat

/-- R367: SETDASA from the static address. -/
def execSetdasa (static : BitVec 7) (dyn : BitVec 7) (s : State) : Host.Outcome State Fault Refusal :=
  .next (if s.busUp && static.toNat == s.fld (mgtR 0x88) 22 16 && s.fld (mgtR 0x88) 14 8 == 0 then s.takeAddr dyn else s)

/-- R367, R383: ENTDAA: a target without a dynamic address offers a random provisional ID from the generator; the
address is its own where its arbitration is won. -/
def execEntdaa (won : Bool) (dyn : BitVec 7) (s : State) : Host.Outcome State Fault Refusal :=
  if !s.busUp || s.fld (mgtR 0x88) 14 8 != 0 then .next s
  else
    let s := { s with free := s.free + 1, sec := { s.sec with drbg := s.sec.drbg + 1 } }
    .next (if won then s.takeAddr dyn else s)

/-- R367: RSTDAA or the target reset pattern: back to SMBus mode. -/
def execRstdaa (s : State) : Host.Outcome State Fault Refusal :=
  .next (if s.busUp then (s.modMgt (fun x => { x with i3c := false })).setFld (mgtR 0x88) 14 8 0 else s)

/-- R367: HDR_ENTRY. -/
def execHdrEntry (s : State) : Host.Outcome State Fault Refusal :=
  .next (if s.busUp && s.mgt.i3c then s.modMgt (fun x => { x with hdr := true }) else s)

/-- R367: HDR_EXIT. -/
def execHdrExit (s : State) : Host.Outcome State Fault Refusal := .next (s.modMgt (fun x => { x with hdr := false }))

/-- R368: I3C_PARITY_ERROR: the rest of the transfer, which is no command, is ignored. -/
def execI3cParityError (s : State) : Host.Outcome State Fault Refusal :=
  .next (if s.busUp && s.mgt.i3c then s.bump (mgtR 0x108) 1 else s)

/-- R368: BUS_TIMEOUT: SCL low for 25 ms. -/
def execBusTimeout (s : State) : Host.Outcome State Fault Refusal :=
  .next (if 3 ≤ s.rst.ev then (s.bump (mgtR 0x110) 1).flagC .mgt 17 else s)

/-- R371: ALERT_N is asserted while a BLK_ERR bit of the MGT page is set that BLK_IEN enables. -/
def State.alert (s : State) : Bool := s.reg (mgtR 0x18) &&& s.reg (mgtR 0x1C) != 0

/-! ### Rate limits (R372) -/

/-- Burst and refill per second of a class. -/
def rateOf (cls : Nat) : Nat × Nat :=
  if cls = 0 then (32, 400) else if cls = 1 then (16, 100) else if cls = 2 then (2, 4) else (4, 8)

/-- The key of a source among the 16 that the target tracks; further sources share one. -/
def State.rateKey (s : State) (w : MsgSrc) : Nat :=
  let k := w.phys.toNat * 256 + w.eid.toNat
  let seen := ((s.mgt.buckets.map (·.src)).foldl sadd []).filter (fun x => decide (x < 65536))
  if seen.contains k || seen.length < 16 then k else 65536

/-- A bucket as it stands now: full where it was never drawn on, else filled for the time since. -/
def State.bucket (s : State) (src cls : Nat) : Bucket :=
  let (burst, rate) := rateOf cls
  match s.mgt.buckets.find? (fun b => b.src == src && b.cls == cls) with
  | none => ⟨src, cls, burst * 1000, s.time⟩
  | some b =>
    let add := (s.time - b.at_) * rate / 1000000
    if burst * 1000 ≤ b.tok + add then { b with tok := burst * 1000, at_ := s.time }
    else { b with tok := b.tok + add, at_ := b.at_ + add * 1000000 / rate }

/-- Take one message from a bucket. -/
def State.spend (s : State) (b : Bucket) : State :=
  s.modMgt (fun x => { x with
    buckets := x.buckets.filter (fun y => !(y.src == b.src && y.cls == b.cls)) ++ [{ b with tok := b.tok - 1000 }] })

/-- R372: take one message from each of several classes of a source, if every one of them has it; otherwise the message
is dropped. -/
def State.rate (s : State) (w : MsgSrc) (classes : List Nat) : Bool × State :=
  let bs := classes.map (fun c => s.bucket (if c = 3 then 65537 else s.rateKey w) c)
  if bs.all (fun b => decide (1000 ≤ b.tok)) then (true, bs.foldl (fun s b => s.spend b) s)
  else (false, (s.bump (mgtR 0x120) 1).flagC .mgt 19)

/-! ### Sending (R371) -/

/-- A response to a message: the same tag, not the owner's. -/
def State.reply (s : State) (m : Medium) (w : MsgSrc) (ses : Option Nat) (data : List Byte) : State :=
  s.queueMsg m { w with owner := false } ses data

/-- R371: RESPONSE_ATTEMPT: the oldest message of a medium that is not in backoff is sent, or the attempt fails: it backs
off by a time drawn from 1 to 8 ms in steps of 0.125 ms, and the fourth failure drops it. -/
def execResponseAttempt (m : Medium) (lost : Bool) (nack : Bool) (s : State) : Host.Outcome State Fault Refusal :=
  match s.mgt.out.find? (fun r => r.m == m && r.backoff.isNone) with
  | none => .next s
  | some r =>
    let drop (s : State) : State := s.modMgt (fun x => { x with out := dropFirst (fun y => y == r) x.out })
    if !s.mediumUp m then .next s
    else
      let s := if lost then s.bump (mgtR 0x100) 1 else s
      if !lost && !nack then .next ((drop s).emit (.mgmt m r.dst r.ses r.data))
      else if 3 ≤ r.tries then .next (((drop s).bump (mgtR 0x104) 1).flagC .mgt 20)
      else
        let (k, s) := s.draw 57
        let r' : Rsp := { r with tries := r.tries + 1, backoff := some (s.time + 1000000 + 125000 * k) }
        .next (s.modMgt (fun x => { x with out := mapFirst (fun y => y == r) (fun _ => r') x.out }))

/-- R371: BACKOFF_EXPIRY: the oldest message of a medium whose backoff has passed may be tried again. -/
def execBackoffExpiry (m : Medium) (s : State) : Host.Outcome State Fault Refusal :=
  let ready (r : Rsp) : Bool := r.m == m && (match r.backoff with
    | some t => decide (t ≤ s.time)
    | none => false)
  .next (s.modMgt (fun x => { x with out := mapFirst ready (fun r => { r with backoff := none }) x.out }))

/-! ### Register access (R373, R374) -/

/-- R374: the source is the bus owner, or its EID is enabled. -/
def State.allowed (s : State) (w : MsgSrc) : Bool :=
  (s.fld (mgtR 0x8C) 22 16 == w.phys.toNat % 128 && s.fld (mgtR 0x8C) 15 8 == w.eid.toNat) ||
  (List.range 8).any (fun i => s.bit (mgtR (0xC0 + 4 * i)) 31 && s.fld (mgtR (0xC0 + 4 * i)) 7 0 == w.eid.toNat)

/-- The management bus as a source of register writes. -/
def busSrc (w : MsgSrc) (sec : Bool) : Src := .mgmt w.eid (w.phys.setWidth 7) sec

/-- A refused access (R46, R374). -/
def State.refuse (s : State) (w : MsgSrc) (off : Nat) : State := s.denyWrite (busSrc w false) off

/-- Read words in ascending order; a read of TIME_LO latches TIME_HI (R63). -/
def State.readWordsAt (s : State) (off n : Nat) : List Byte × State :=
  forN n (([] : List Byte), s) (fun (acc : List Byte × State) i =>
    let a := off + 4 * i
    let w := acc.2.read 4 a
    (acc.1 ++ leBytes 4 w.toNat, if a = 0xA0 then acc.2.setCopy 4 2 (w32 (acc.2.time >>> 32)) else acc.2))

/-- Is a write of a word one that R45 refuses? -/
def State.wouldDeny (s : State) (src : Src) (a : Nat) (val : Word) : Bool :=
  match pageNo (a / 4096) with
  | some pg => (pg.kind.regAt (a % 4096)).isSome && s.released pg && !s.mayWrite src pg (a % 4096) val
  | none => false

/-- Write words in ascending order; whether any was refused. -/
def State.writeWordsAt (s : State) (src : Src) (off : Nat) (ws : List Word) : Bool × State :=
  forN ws.length (false, s) (fun (acc : Bool × State) i =>
    let a := off + 4 * i
    (acc.1 || acc.2.wouldDeny src a (wd ws i), (acc.2.writeReg src a (wd ws i)).settleIdle))

/-- R373: a response: command, INST, RESULT, OFFSET, data. -/
def regResponse (cmd inst res off : Nat) (data : List Byte) : List Byte :=
  [0x7E, 0x1F, 0x3C, BitVec.ofNat 8 cmd, BitVec.ofNat 8 inst, BitVec.ofNat 8 res, 0, 0] ++ leBytes 4 off ++ data

/-- R373, R374: a register access message after its type byte, inside an SPDM session or not. -/
def State.regAccess (s : State) (m : Medium) (w : MsgSrc) (ses : Option Nat) (b : List Byte) : State :=
  let at_ (i : Nat) : Nat := (b.getD i 0).toNat
  let cmd := at_ 2
  let inst := at_ 3
  let n := at_ 4
  let off := leNat ((b.drop 7).take 4)
  let ans (s : State) (res : Nat) (d : List Byte) : State := s.reply m w ses (regResponse (0x80 + cmd) inst res off d)
  let lenOk := 1 ≤ n && decide (n ≤ 16) && b.length == (if cmd = 2 then 11 + 4 * n else 11)
  let offOk := off % 4 == 0 && decide (off + 4 * n ≤ 0x4000000)
  if m ≠ .bus || at_ 0 != 0x1F || at_ 1 != 0x3C then s.bump (mgtR 0x11C) 1
  else if cmd ≠ 1 && cmd ≠ 2 then s
  else if !s.allowed w then ans (s.refuse w off) 1 []
  else if cmd = 1 then
    if !lenOk then ans s 3 []
    else if !offOk then ans s 2 []
    else let (d, s) := s.readWordsAt off n; ans s 0 d
  else
    let (ok, s) := s.rate w [1]
    if !ok then s
    else if ses.isNone && s.bit (mgtR 0x80) 0 then ans (s.refuse w off) 4 []
    else if !lenOk then ans s 3 []
    else if !offOk then ans s 2 []
    else
      let (denied, s) := s.writeWordsAt (busSrc w ses.isSome) off (wordsOf n (b.drop 11))
      ans s (if denied then 1 else 0) []

end Sys2Proof.Machine
end

