-- ==== Sys2Proof/Machine/Pldm.lean ====
section
/-! DEFINITION. PLDM over the management bus and VDM: Type 0 base, Type 2 sensors and the effecter, Type 5 firmware
update (R370, R412, R453). The layouts are those of DSP0240, DSP0248 and DSP0267 (PRESUMED, assumption log 68). -/

namespace Sys2Proof.Machine

open Sys2Proof

/-- A PLDM response: instance, type, command, completion code, data. -/
def State.pldmReply (s : State) (m : Medium) (w : MsgSrc) (ses : Option Nat) (b : List Byte) (cc : Byte) (d : List Byte) :
    State :=
  s.reply m w ses ([0x01, b.getD 0 0 &&& 0x1F, b.getD 1 0, b.getD 2 0, cc] ++ d)

/-! ### Type 0 -/

/-- The commands that a PLDM type supports, as a bit map of 32 bytes. -/
def pldmCommands (type : Nat) : List Byte :=
  let bits : List Nat :=
    if type = 0 then [1, 2, 3, 4, 5]
    else if type = 2 then [4, 0x0A, 0x11, 0x31]
    else if type = 5 then [1, 2, 0x10, 0x13, 0x14, 0x15, 0x16, 0x17, 0x18, 0x1A, 0x1B, 0x1C, 0x1D]
    else []
  leBytes 32 (sumL (bits.map (fun b => 2 ^ b)))

/-- R370: PLDM Type 0: SetTID, GetTID, GetPLDMVersion, GetPLDMTypes, GetPLDMCommands. -/
def State.pldm0 (s : State) (m : Medium) (w : MsgSrc) (ses : Option Nat) (b : List Byte) : State :=
  let d := b.drop 3
  let x := (d.getD 0 0).toNat
  match (b.getD 2 0).toNat with
  | 1 =>
    if x = 0 || x == 255 then s.pldmReply m w ses b 0x02 []
    else (s.modMgt (fun y => { y with tid := x })).pldmReply m w ses b 0 []
  | 2 => s.pldmReply m w ses b 0 [BitVec.ofNat 8 s.mgt.tid]
  | 3 =>
    let (v, s) := s.drawBytes 8
    s.pldmReply m w ses b 0 ([0, 0, 0, 0, 0x05] ++ v)
  | 4 => s.pldmReply m w ses b 0 (leBytes 8 0x25)
  | 5 => if [0, 2, 5].contains x then s.pldmReply m w ses b 0 (pldmCommands x) else s.pldmReply m w ses b 0x20 []
  | _ => s.pldmReply m w ses b 0x05 []

/-! ### Type 2 (R453) -/

/-- The reading of a sensor in its unit, truncated, and whether it is a temperature. -/
def State.sensor (s : State) (id : Nat) : Option (Nat × Bool) :=
  if id = 1 then some (s.fld (wghR 0x84) 31 16, false)
  else if id = 2 then some (s.fld (wghR 0x88) 31 16 / 100, false)
  else if id = 3 then some (s.fld (wghR 0x88) 15 0 / 100, false)
  else if id = 4 || id == 5 then some (s.fld (gteR (id - 4) 0x80) 31 20 / 2, true)
  else if 0x100 ≤ id && decide (id < 0x120) then some (s.fld (thmR (id - 0x100) 0x80) 31 20 / 2, true)
  else if 0x140 ≤ id && decide (id < 0x160) then some (s.fld (thmR (id - 0x140) 0x80) 15 4 / 2, true)
  else if 0x180 ≤ id && decide (id < 0x1A0) then some (s.fld (thmR (id - 0x180) 0x8C) 15 0 / 8, false)
  else none

/-- R453: GetSensorReading: size, operational state, event enable, present, previous and event state, reading. -/
def State.getSensor (s : State) (m : Medium) (w : MsgSrc) (ses : Option Nat) (b : List Byte) : State :=
  let id := leNat ((b.drop 3).take 2)
  if b.length ≠ 6 then s.pldmReply m w ses b 0x03 []
  else match s.sensor id with
    | none => s.pldmReply m w ses b 0x80 []
    | some (v, temp) =>
      let (prev, s) := s.drawBytes 1
      let l := s.level id
      let code : Byte := if l = 0 then 1 else BitVec.ofNat 8 (7 + l)
      let en : Byte := if !temp then 0 else if s.mgt.receiver.isSome then 2 else 1
      s.pldmReply m w ses b 0 ([if temp then 0x03 else 0x02, 0, en, code] ++ prev ++ [code] ++ leBytes 2 v)

/-- R453, R443: SetNumericEffecterValue: effecter 1 sets MODULE_W. -/
def State.setEffecter (s : State) (m : Medium) (w : MsgSrc) (ses : Option Nat) (b : List Byte) : State :=
  let v := leNat (b.drop 6)
  if b.length < 7 then s.pldmReply m w ses b 0x03 []
  else if leNat ((b.drop 3).take 2) ≠ 1 then s.pldmReply m w ses b 0x80 []
  else if v < 2400 || decide (3600 < v) then s.pldmReply m w ses b 0x02 []
  else
    let fits := s.floorsFit 4 0 v
    (s.writeModuleW v).pldmReply m w ses b (if fits then 0 else 0x02) []

/-- R453: SetEventReceiver: where PlatformEventMessage is sent. -/
def State.setReceiver (s : State) (m : Medium) (w : MsgSrc) (ses : Option Nat) (b : List Byte) : State :=
  let en := (b.getD 3 0).toNat
  if b.length < 6 then s.pldmReply m w ses b 0x03 []
  else if (b.getD 4 0).toNat ≠ 0 then s.pldmReply m w ses b 0x80 []
  else if en = 0 then (s.modMgt (fun x => { x with receiver := none })).pldmReply m w ses b 0 []
  else if en = 1 then (s.modMgt (fun x => { x with receiver := some (m, b.getD 5 0) })).pldmReply m w ses b 0 []
  else s.pldmReply m w ses b 0x81 []

def State.pldm2 (s : State) (m : Medium) (w : MsgSrc) (ses : Option Nat) (b : List Byte) : State :=
  match (b.getD 2 0).toNat with
  | 0x11 => s.getSensor m w ses b
  | 0x31 => s.setEffecter m w ses b
  | 0x04 => s.setReceiver m w ses b
  | _ => s.pldmReply m w ses b 0x05 []

/-! ### Type 5 (R370, R412) -/

def State.modFw (s : State) (f : FwUpd → FwUpd) : State := s.modMgt (fun x => { x with fw := f x.fw })

/-- The largest piece of an image that the target asks for. -/
def fwPiece : Nat := 1024

/-- A request of the target's own to the update agent. -/
def State.fwAsk (s : State) (m : Medium) (w : MsgSrc) (ses : Option Nat) (cmd : Byte) (d : List Byte) : State :=
  s.queueMsg m { w with owner := true } ses ([0x01, 0x80, 0x05, cmd] ++ d)

/-- Ask for the next piece of the component. -/
def State.fwNext (s : State) (m : Medium) (w : MsgSrc) (ses : Option Nat) : State :=
  let x := s.mgt.fw
  s.fwAsk m w ses 0x15 (leBytes 4 x.data.length ++ leBytes 4 (min (x.size - x.data.length) (min x.max fwPiece)))

/-- The update ends; ownership of the load ends with it. -/
def State.fwEnd (s : State) : State := s.endLoad.setLoad 0

/-- R412: the whole component is here: it is checked, and an accepted image goes where END sends it. -/
def State.fwDone (s : State) (m : Medium) (w : MsgSrc) (ses : Option Nat) : State :=
  let img := s.mgt.fw.data
  let s := (s.modFw (fun x => { x with st := 2, data := [] })).fwAsk m w ses 0x16 [0]
  match s.checkImage img with
  | some x =>
    let s := (s.fwAsk m w ses 0x17 [0]).fwAsk m w ses 0x18 [0, 0, 0]
    if x.type = s.mgt.fw.type then (s.setLoad 4).storeImage x img else s
  | none => ((s.fwAsk m w ses 0x17 [0x02]).setLoad 5).rejectImage.flagErr .fls 19 0 0 none 0 0

/-- Commands of the update agent. -/
def State.fwCmd (s : State) (m : Medium) (w : MsgSrc) (ses : Option Nat) (b : List Byte) : State :=
  let d := b.drop 3
  let x := s.mgt.fw
  let at_ (i n : Nat) : Nat := leNat ((d.drop i).take n)
  let r (s : State) (cc : Byte) (e : List Byte) : State := s.pldmReply m w ses b cc e
  match (b.getD 2 0).toNat with
  | 0x01 => r s 0 (leBytes 4 6 ++ [1, 0, 0, 2, 0, 0x3C, 0x1F])
  | 0x02 => let (v, s) := s.drawBytes 64; r s 0 v
  | 0x10 =>
    -- while a load is owned, the target is in update mode already (R412)
    if s.fld (flsR 0x94) 31 30 ≠ 0 then r s 0x81 []
    else
      let s := ((s.setFld (flsR 0x94) 31 30 2).setLoad 1).modRst (fun y => { y with loadAt := s.time })
      r (s.modFw (fun _ => ⟨1, 0, 0, [], max 32 (at_ 0 4)⟩)) 0 [0, 0, 0]
  | 0x13 =>
    if x.st ≠ 1 then r s (if x.st = 0 then 0x80 else 0x84) []
    else
      let last := bitOf (at_ 0 1) 2
      r (if last then s.modFw (fun y => { y with st := 2 }) else s) 0 [0, 0]
  | 0x14 =>
    if x.st ≠ 2 then r s (if x.st = 0 then 0x80 else 0x84) []
    else
      let s := s.modFw (fun y => { y with st := 3, type := at_ 2 2, size := at_ 9 4, data := [] })
      let s := (s.setLoad 1).modRst (fun y => { y with loadAt := s.time })
      (r s 0 [0, 0, 0, 0, 0, 0, 0, 0]).fwNext m w ses
  | 0x1A =>
    if x.st ≠ 2 then r s (if x.st = 0 then 0x80 else 0x84) []
    else if at_ 0 1 ≠ 0 then r s 0x8C []
    else r s.fwEnd 0 [0, 0]
  | 0x1B => let (v, s) := s.drawBytes 10; r s 0 (BitVec.ofNat 8 x.st :: v)
  | 0x1C =>
    if x.st = 0 then r s 0x80 []
    else if x.st ≠ 3 then r s 0x84 []
    else r (s.modFw (fun y => { y with st := 2, data := [] })) 0 []
  | 0x1D => if x.st = 0 then r s 0x80 [] else r s.fwEnd 0 [0, 0, 0, 0, 0, 0, 0, 0, 0]
  | _ => r s 0x05 []

/-- Answers of the update agent to the target's requests: a piece of the image. -/
def State.fwAnswer (s : State) (m : Medium) (w : MsgSrc) (ses : Option Nat) (b : List Byte) : State :=
  let x := s.mgt.fw
  if x.st ≠ 3 || b.getD 2 0 != 0x15 then s
  else if b.getD 3 0 ≠ 0 then s
  else
    let d := (b.drop 4).take (min (x.size - x.data.length) (min x.max fwPiece))
    let s := (s.modFw (fun y => { y with data := y.data ++ d })).modRst (fun y => { y with loadAt := s.time })
    if x.size ≤ x.data.length + d.length then s.fwDone m w ses else s.fwNext m w ses

/-- R370: a PLDM message after its type byte: instance byte, PLDM type, command. Responses count only for Type 5. -/
def State.pldm (s : State) (m : Medium) (w : MsgSrc) (ses : Option Nat) (b : List Byte) : State :=
  let rq := bitOf (b.getD 0 0).toNat 7
  let type := (b.getD 1 0).toNat % 64
  if b.length < 3 then s
  else if !rq then (if type = 5 then s.fwAnswer m w ses b else s)
  else if type = 0 then s.pldm0 m w ses b
  else if type = 2 then s.pldm2 m w ses b
  else if type = 5 then s.fwCmd m w ses b
  else s.pldmReply m w ses b 0x20 []

end Sys2Proof.Machine
end

