-- ==== Sys2Proof/Machine/Spdm.lean ====
section
/-! DEFINITION. SPDM 1.3 and 1.2 (R375, R381, R382). The layouts are those of DSP0274 (PRESUMED, assumption log 69);
signatures, key shares, nonces and certificates are free bytes (log 17). -/

namespace Sys2Proof.Machine

open Sys2Proof

/-! ### Connections -/

/-- The connection of a source. -/
def Spdm.of (x : Spdm) (m : Medium) (w : MsgSrc) : Bool := x.m == m && x.phys == w.phys && x.eid == w.eid

def State.conn (s : State) (m : Medium) (w : MsgSrc) : Option Spdm := s.mgt.spdm.find? (fun x => x.of m w)

def State.setConn (s : State) (x : Spdm) : State :=
  s.modMgt (fun g => { g with spdm := g.spdm.map (fun y => if y.m = x.m && y.phys == x.phys && y.eid == x.eid then x else y) })

/-- The established session of a source. -/
def State.session (s : State) (m : Medium) (w : MsgSrc) : Option Nat :=
  match s.conn m w with
  | some x => if x.up then x.session else none
  | none => none

/-- The version byte that a source's answers carry. -/
def State.spdmVer (s : State) (m : Medium) (w : MsgSrc) : Byte :=
  match s.conn m w with
  | some x => if x.stage = 0 then 0x10 else x.ver
  | none => 0x10

/-- An SPDM ERROR. -/
def State.spdmErr (s : State) (m : Medium) (w : MsgSrc) (err data : Byte) : State × List Byte :=
  (s, [s.spdmVer m w, 0x7F, err, data])

/-! ### Certificates and measurements (R381, R382) -/

/-- The digest of the running image of a type; empty where none runs. -/
def State.imgDigest (s : State) (t : Nat) : List Byte := ((s.running t).map (·.digest)).getD []

/-- The chain of slot 0: of the digests that the Alias key derives from. -/
def State.certChain (s : State) : List Byte :=
  (List.range (Config.certLen % 65536)).map (Config.certByte (Config.bootRomDigest ++ s.imgDigest 1))

/-- A measurement block: index, DMTF form, type, contents. -/
def measBlock (i type : Nat) (d : List Byte) : List Byte :=
  [BitVec.ofNat 8 i, 1] ++ leBytes 2 (d.length + 3) ++ [BitVec.ofNat 8 type] ++ leBytes 2 d.length ++ d

/-- R382: blocks 2 to 4: the DIGEST of the running image followed by its SVN. -/
def State.measImage (s : State) (t : Nat) : List Byte :=
  s.imgDigest t ++ leBytes 4 (((s.running t).map (·.svn)).getD 0)

/-- R382: the contents of a measurement block, with its DMTF type. -/
def State.meas (s : State) (i : Nat) : Option (Nat × List Byte) :=
  if i = 1 then some (0x00, Config.bootRomDigest)
  else if i = 2 || i == 3 || i == 4 then some (0x01, s.measImage (i - 1))
  else if i = 5 then some (0x83, s.sec.meas5.getD s.meas5Now)
  else if i = 6 then
    let st := s.rst.straps
    some (0x82, [BitVec.ofNat 8 st.bootSel.toNat, BitVec.ofNat 8 st.clkMode.toNat, BitVec.ofNat 8 st.slotId.toNat] ++
      leBytes 4 (s.reg (mgtR 0x84)).toNat ++ [BitVec.ofNat 8 s.nstall])
  else if i = 7 then some (0x85, [BitVec.ofNat 8 (b2n s.sec.tap)])
  else if 16 ≤ i && decide (i < 20) then
    let st := i - 16
    some (0x83, leBytes 4 (s.reg (stlR st 0x24C)).toNat ++ [BitVec.ofNat 8 (s.fld (secR (0x8C + 16 * st)) 1 0)] ++
      (s.stall st).keyDigest)
  else none

/-- The indices of R382. -/
def measIndices : List Nat := [1, 2, 3, 4, 5, 6, 7, 16, 17, 18, 19]

/-- The record of all blocks, or of one. -/
def State.measRecord (s : State) (op : Nat) : List Byte :=
  (measIndices.filter (fun i => op == 255 || op == i)).flatMap (fun i =>
    match s.meas i with
    | some (t, d) => measBlock i t d
    | none => [])

/-- The measurement summary hash that a request asks for: 0 none. -/
def State.measSummary (s : State) (kind : Nat) : List Byte :=
  if kind = 0 then [] else sha3 (s.measRecord (if kind = 1 then 1 else 255))

/-- A signature under the Alias key: SIGN_CNT counts it. -/
def State.sign (s : State) : List Byte × State :=
  let (b, s) := s.drawBytes 2420
  (b, s.bump (secR 0x14C) 1)

/-! ### Requests -/

/-- GET_VERSION: the source's connection is reset and its sessions end. A fifth connection is answered Busy. -/
def State.spdmVersion (s : State) (m : Medium) (w : MsgSrc) : State × List Byte :=
  let rest := s.mgt.spdm.filter (fun x => !x.of m w)
  if 4 ≤ rest.length then (s, [0x10, 0x7F, 0x03, 0])
  else
    (s.modMgt (fun g => { g with spdm := rest ++ [⟨m, w.phys, w.eid, 0, 0x10, none, false, 0, none, none, 0⟩] }),
     [0x10, 0x04, 0, 0, 0, 2, 0, 0x12, 0, 0x13])

/-- GET_CAPABILITIES: version 1.2 or 1.3. -/
def State.spdmCaps (s : State) (m : Medium) (w : MsgSrc) (x : Spdm) (b : List Byte) : State × List Byte :=
  let v := b.getD 0 0
  if x.stage ≠ 0 then s.spdmErr m w 0x04 0
  else if v ≠ 0x12 && v != 0x13 then s.spdmErr m w 0x41 0
  else
    let (sz, s) := s.drawBytes 4
    (s.setConn { x with stage := 1, ver := v },
     [v, 0x61, 0, 0, 0, 20, 0, 0] ++ leBytes 4 0x000262D6 ++ leBytes 4 4096 ++ sz)

/-- NEGOTIATE_ALGORITHMS: SHA3-256, ML-DSA-44 as an extended algorithm, secp384r1, AES-256-GCM. -/
def State.spdmAlgs (s : State) (m : Medium) (w : MsgSrc) (x : Spdm) (b : List Byte) : State × List Byte :=
  if x.stage ≠ 1 then s.spdmErr m w 0x04 0
  else if !bitOf (b.getD 12 0).toNat 3 then s.spdmErr m w 0x01 0
  else
    let body := [1, 0] ++ leBytes 4 0x10 ++ leBytes 4 0 ++ leBytes 4 0x08 ++ leBytes 12 0 ++ [1, 0, 0, 0] ++ [0x03, 0, 0x01, 0x00] ++
      [2, 0x20, 0x10, 0, 3, 0x20, 0x02, 0, 4, 0x20, 0, 0, 5, 0x20, 1, 0]
    (s.setConn { x with stage := 2 }, [x.ver, 0x63, 4, 0] ++ leBytes 2 (body.length + 6) ++ body)

/-- GET_DIGESTS: slot 0 alone is provisioned. -/
def State.spdmDigests (s : State) (x : Spdm) : State × List Byte :=
  (s, [x.ver, 0x01, 0, 0x01] ++ sha3 s.certChain)

/-- GET_CERTIFICATE. -/
def State.spdmCert (s : State) (m : Medium) (w : MsgSrc) (x : Spdm) (b : List Byte) : State × List Byte :=
  let off := leNat ((b.drop 4).take 2)
  let len := leNat ((b.drop 6).take 2)
  let c := s.certChain
  if (b.getD 2 0).toNat % 16 ≠ 0 || decide (c.length < off) then s.spdmErr m w 0x01 0
  else
    let p := (c.drop off).take len
    (s, [x.ver, 0x02, 0, 0] ++ leBytes 2 p.length ++ leBytes 2 (c.length - off - p.length) ++ p)

/-- The requester context that version 1.3 carries: 8 bytes from an offset of the request. -/
def reqContext (x : Spdm) (b : List Byte) (off : Nat) : List Byte :=
  if x.ver = 0x13 then (List.range 8).map (fun i => b.getD (off + i) 0) else []

/-- CHALLENGE. -/
def State.spdmChallenge (s : State) (m : Medium) (w : MsgSrc) (x : Spdm) (b : List Byte) : State × List Byte :=
  if (b.getD 2 0).toNat % 16 ≠ 0 then s.spdmErr m w 0x01 0
  else
    let (nonce, s) := s.drawBytes 32
    let (sig, s) := s.sign
    (s, [x.ver, 0x03, 0, 0x01] ++ sha3 s.certChain ++ nonce ++ s.measSummary (b.getD 3 0).toNat ++ [0, 0] ++
      reqContext x b 36 ++ sig)

/-- GET_MEASUREMENTS: the number of blocks, one, or all; signed on request. -/
def State.spdmMeas (s : State) (m : Medium) (w : MsgSrc) (x : Spdm) (b : List Byte) : State × List Byte :=
  let op := (b.getD 3 0).toNat
  let signed := bitOf (b.getD 2 0).toNat 0
  let rec_ := if op = 0 then [] else s.measRecord op
  let n := if op = 0 then 0 else if op = 255 then measIndices.length else 1
  if op ≠ 0 && op != 255 && !measIndices.contains op then s.spdmErr m w 0x01 0
  else
    let (nonce, s) := s.drawBytes 32
    let (sig, s) := if signed then s.sign else ([], s)
    (s, [x.ver, 0x60, (if op = 0 then BitVec.ofNat 8 measIndices.length else 0), 0, BitVec.ofNat 8 n] ++
      leBytes 3 rec_.length ++ rec_ ++ nonce ++ [0, 0] ++ reqContext x b (if signed then 37 else 4) ++ sig)

/-- KEY_EXCHANGE: a session in handshake, of the requester's and a free half of the session ID. At most four sessions,
one of a connection. -/
def State.spdmKeyEx (s : State) (m : Medium) (w : MsgSrc) (x : Spdm) (b : List Byte) : State × List Byte :=
  if (b.getD 3 0).toNat % 16 ≠ 0 then s.spdmErr m w 0x01 0
  else if x.session.isSome || decide (4 ≤ (s.mgt.spdm.filter (fun y => y.session.isSome)).length) then s.spdmErr m w 0x0A 0
  else
    let (half, s) := s.drawBytes 2
    let (rnd, s) := s.drawBytes 128
    let (sig, s) := s.sign
    let (ver, s) := s.drawBytes 32
    let id := leNat ((b.drop 4).take 2) + 65536 * leNat half
    (s.setConn { x with session := some id, up := false, keyGen := 0, beat := s.time },
     [x.ver, 0x64, 0, 0] ++ half ++ [0, 0] ++ rnd ++ s.measSummary (b.getD 2 0).toNat ++ [0, 0] ++ sig ++ ver)

/-- FINISH in the handshake: established where its verification succeeds, else the session ends. -/
def State.spdmFinish (s : State) (m : Medium) (w : MsgSrc) (x : Spdm) (ok : Bool) : State × List Byte :=
  if x.session.isNone || x.up then s.spdmErr m w 0x04 0
  else if ok then (s.setConn { x with up := true, beat := s.time }, [x.ver, 0x65, 0, 0])
  else ((s.setConn { x with session := none }), [x.ver, 0x7F, 0x06, 0])

/-- HEARTBEAT, KEY_UPDATE and END_SESSION inside a session. -/
def State.spdmIn (s : State) (m : Medium) (w : MsgSrc) (x : Spdm) (b : List Byte) : State × List Byte :=
  let c := b.getD 1 0
  if !x.up then s.spdmErr m w 0x04 0
  else if c = 0xE8 then (s.setConn { x with beat := s.time }, [x.ver, 0x68, 0, 0])
  else if c = 0xE9 then
    let op := (b.getD 2 0).toNat
    if op = 1 || op == 2 then (s.setConn { x with keyGen := x.keyGen + 1 }, [x.ver, 0x69, b.getD 2 0, b.getD 3 0])
    else if op = 3 then (s, [x.ver, 0x69, b.getD 2 0, b.getD 3 0])
    else s.spdmErr m w 0x01 0
  else (s.setConn { x with session := none, up := false, keyGen := 0 }, [x.ver, 0x6C, 0, 0])

/-- The classes of R372 that a request draws on. -/
def signsClass (b : List Byte) : List Nat :=
  let c := b.getD 1 0
  if c = 0x83 || c == 0xE4 || (c == 0xE0 && bitOf (b.getD 2 0).toNat 0) then [2, 3] else []

/-- R375: a request that is not a chunk: none where it is dropped by R372. In a session or not; ok: whether the
verification of FINISH succeeds. -/
def State.spdmReq (s : State) (m : Medium) (w : MsgSrc) (inSes ok : Bool) (b : List Byte) : State × Option (List Byte) :=
  let c := b.getD 1 0
  let some' (r : State × List Byte) : State × Option (List Byte) := (r.1, some r.2)
  if c = 0x84 then some' (s.spdmVersion m w)
  else match s.conn m w with
    | none => some' (s.spdmErr m w 0x04 0)
    | some x =>
      if c = 0xE1 then some' (s.spdmCaps m w x b)
      else if c = 0xE3 then some' (s.spdmAlgs m w x b)
      else if x.stage ≠ 2 then some' (s.spdmErr m w 0x04 0)
      else
        let (go, s) := if signsClass b = [] then (true, s) else s.rate w (signsClass b)
        if !go then (s, none)
        else if c = 0x81 then some' (s.spdmDigests x)
        else if c = 0x82 then some' (s.spdmCert m w x b)
        else if c = 0x83 then some' (s.spdmChallenge m w x b)
        else if c = 0xE0 then some' (s.spdmMeas m w x b)
        else if c = 0xE4 then some' (s.spdmKeyEx m w x b)
        else if c = 0xE5 then some' (s.spdmFinish m w x ok)
        else if c = 0xE8 || c == 0xE9 || c == 0xEC then
          if inSes then some' (s.spdmIn m w x b) else some' (s.spdmErr m w 0x04 0)
        else some' (s.spdmErr m w 0x07 c)

/-! ### Chunks -/

/-- A response above DataTransferSize is kept for CHUNK_GET, and LargeResponse answers. -/
def State.fitOut (s : State) (m : Medium) (w : MsgSrc) (r : List Byte) : State × List Byte :=
  if r.length ≤ 4096 then (s, r)
  else match s.conn m w with
    | none => (s, r)
    | some x =>
      let h := match x.chunkOut with
        | some (h, _, _) => (h + 1) % 256
        | none => 0
      (s.setConn { x with chunkOut := some (h, 0, r) }, [x.ver, 0x7F, 0x0F, 0, BitVec.ofNat 8 h])

/-- CHUNK_SEND: the pieces of a large request in order; the last one carries it out, and its answer goes with the
acknowledgement. -/
def State.chunkSend (s : State) (m : Medium) (w : MsgSrc) (inSes : Bool) (x : Spdm) (b : List Byte) : State × Option (List Byte) :=
  let h := (b.getD 3 0).toNat
  let seq := leNat ((b.drop 4).take 2)
  let size := leNat ((b.drop 8).take 4)
  let last := bitOf (b.getD 2 0).toNat 0
  let data := if seq = 0 then (b.drop 16).take size else (b.drop 12).take size
  let fits := match x.chunkIn with
    | some (h', n, _) => h' == h && n == seq && seq != 0
    | none => seq == 0
  let ack (attr : Byte) (r : List Byte) : List Byte := [x.ver, 0x05, attr, BitVec.ofNat 8 h] ++ leBytes 2 seq ++ r
  if x.stage = 0 then let (s, r) := s.spdmErr m w 0x04 0; (s, some r)
  else if !fits then (s.setConn { x with chunkIn := none }, some (ack 1 [x.ver, 0x7F, 0x01, 0]))
  else
    let all := (match x.chunkIn with
      | some (_, _, d) => d
      | none => []) ++ data
    if !last then (s.setConn { x with chunkIn := some (h, seq + 1, all) }, some (ack 0 []))
    else
      let s := s.setConn { x with chunkIn := none }
      let (s, r) := s.spdmReq m w inSes false all
      match r with
      | some r => let (s, r) := s.fitOut m w r; (s, some (ack 0 r))
      | none => (s, some (ack 0 []))

/-- CHUNK_GET: the next piece of the large response. -/
def State.chunkGet (s : State) (m : Medium) (w : MsgSrc) (x : Spdm) (b : List Byte) : State × List Byte :=
  let h := (b.getD 3 0).toNat
  let seq := leNat ((b.drop 4).take 2)
  match x.chunkOut with
  | none => s.spdmErr m w 0x04 0
  | some (h', n, d) =>
    if h' ≠ h || n != seq then s.spdmErr m w 0x01 0
    else
      let room := 4096 - (if seq = 0 then 16 else 12)
      let p := d.take room
      let rest := d.drop room
      (s.setConn { x with chunkOut := if rest.isEmpty then none else some (h, n + 1, rest) },
       [x.ver, 0x06, BitVec.ofNat 8 (b2n rest.isEmpty), BitVec.ofNat 8 h] ++ leBytes 2 seq ++ [0, 0] ++ leBytes 4 p.length ++
         (if seq = 0 then leBytes 4 d.length else []) ++ p)

/-- R375: an SPDM request after its type byte; ok: whether the verification of FINISH succeeds. -/
def State.spdm (s : State) (m : Medium) (w : MsgSrc) (ses : Option Nat) (ok : Bool) (b : List Byte) : State :=
  let c := b.getD 1 0
  let send (s : State) (r : List Byte) : State := let (s, r) := s.fitOut m w r; s.reply m w ses (0x05 :: r)
  if b.length < 4 then let (s, r) := s.spdmErr m w 0x01 0; send s r
  else
    let r := match s.conn m w with
      | some x =>
        if c = 0x85 then s.chunkSend m w ses.isSome x b
        else if c = 0x86 then let (s, r) := s.chunkGet m w x b; (s, some r)
        else s.spdmReq m w ses.isSome ok b
      | none => s.spdmReq m w ses.isSome ok b
    match r.2 with
    | some d => send r.1 d
    | none => r.1

end Sys2Proof.Machine
end

