-- ==== Sys2Proof/Machine/Mctp.lean ====
section
/-! DEFINITION. MCTP: packets and assembly (R368, R369), message types and control messages (R370), and the messages that
are rows of their own. -/

namespace Sys2Proof.Machine

open Sys2Proof

/-! ### MCTP control (R370) -/

/-- The EID of a medium is assigned; on the bus its source becomes the bus owner. -/
def State.assignEid (s : State) (m : Medium) (w : MsgSrc) (eid : Byte) : State :=
  match m with
  | .bus => s.setReg (mgtR 0x8C)
      (fset (fset (fset (fset 0 31 31 1) 22 16 (w.phys.toNat % 128)) 15 8 w.eid.toNat) 7 0 eid.toNat)
  | .vdm p => s.modMgt (fun x => { x with vdmEid := mset 0 x.vdmEid p.val (eid.toNat + 1) })

/-- An MCTP control response: instance, command, completion code, data. -/
def State.ctlReply (s : State) (m : Medium) (w : MsgSrc) (b : List Byte) (cc : Byte) (d : List Byte) : State :=
  s.reply m w none ([0x00, b.getD 0 0 &&& 0x1F, b.getD 1 0, cc] ++ d)

/-- R370: an MCTP control request after its type byte: instance byte, command, data. The layouts are those of DSP0236
(PRESUMED, assumption log 68). -/
def State.mctpCtl (s : State) (m : Medium) (w : MsgSrc) (b : List Byte) : State :=
  let d (i : Nat) : Byte := b.getD (2 + i) 0
  if b.length < 2 || !bitOf (b.getD 0 0).toNat 7 then s
  else match (b.getD 1 0).toNat with
    | 1 =>
      if (d 0 = 0 || d 0 == 1) && d 1 != 0 && d 1 != 0xFF && b.length == 4 then
        (s.assignEid m w (d 1)).ctlReply m w b 0 [0, d 1, 0]
      else s.ctlReply m w b 0x02 []
    | 2 => s.ctlReply m w b 0 [(s.eid m).getD 0, 0, 0]
    | 4 =>
      let (v, s) := s.drawBytes 4
      s.ctlReply m w b 0 ([1] ++ v)
    | 5 => s.ctlReply m w b 0 (if m = .bus then [4, 0x01, 0x05, 0x06, 0x7E] else [3, 0x01, 0x05, 0x06])
    | 6 => if m = .bus then s.ctlReply m w b 0 [0xFF, 0, 0x1F, 0x3C, 0, 0] else s.ctlReply m w b 0x02 []
    | _ => s.ctlReply m w b 0x05 []

/-! ### Messages -/

/-- R370, R372: a whole message, outside a session: its type byte first; ok: whether the verification of FINISH
succeeds. A secured message is handled when it is deciphered, as SECURED_MESSAGE. -/
def State.deliver (s : State) (m : Medium) (w : MsgSrc) (ok : Bool) (msg : List Byte) : State :=
  let type := (msg.getD 0 0).toNat % 128
  let b := msg.drop 1
  if !s.mediumUp m || msg.isEmpty then s
  else if type ≠ 0 && (s.eid m).isNone then s
  else
    let (go, s) := s.rate w [0]
    if !go then s
    else if type = 0 then s.mctpCtl m w b
    else if type = 1 then s.pldm m w none b
    else if type = 5 then s.spdm m w none ok b
    else if type = 6 then s
    else if type = 0x7E then s.regAccess m w none b
    else s.bump (mgtR 0x11C) 1

/-- A whole message inside the established session of its source. -/
def State.deliverIn (s : State) (m : Medium) (w : MsgSrc) (id : Nat) (ok : Bool) (msg : List Byte) : State :=
  let type := (msg.getD 0 0).toNat % 128
  let b := msg.drop 1
  if !s.mediumUp m || msg.isEmpty || (s.eid m).isNone then s
  else
    let (go, s) := s.rate w [0]
    if !go then s
    else if type = 1 then s.pldm m w (some id) b
    else if type = 5 then s.spdm m w (some id) ok b
    else if type = 0x7E then s.regAccess m w (some id) b
    else s.bump (mgtR 0x11C) 1

/-! ### Packets (R368, R369) -/

/-- R369: assemblies are keyed by medium, source EID, tag and tag owner. -/
def Asm.of (a : Asm) (m : Medium) (w : MsgSrc) : Bool :=
  a.key.m == m && a.key.src.eid == w.eid && a.key.src.tag == w.tag && a.key.src.owner == w.owner

/-- Assemblies are discarded: each adds 1 to REASM_DROP_CNT. -/
def State.dropAsm (s : State) (f : Asm → Bool) : State :=
  let n := (s.mgt.asm.filter f).length
  let s := s.modMgt (fun x => { x with asm := x.asm.filter (fun a => !f a) })
  if n = 0 then s else s.bump (mgtR 0x114) n

/-- R369: a packet of the target: start, end, sequence number, payload. -/
def State.packet (s : State) (m : Medium) (w : MsgSrc) (som eom : Bool) (seq : Nat) (d : List Byte) : State :=
  let s := if som then s.dropAsm (fun a => a.of m w) else s
  match s.mgt.asm.find? (fun a => a.of m w) with
  | none =>
    if !som || decide (8 ≤ s.mgt.asm.length) then s.bump (mgtR 0x114) 1
    else if 4096 < d.length then s.bump (mgtR 0x114) 1
    else if eom then s.deliver m w true d
    else s.modMgt (fun x => { x with asm := x.asm ++ [⟨⟨m, w⟩, (seq + 1) % 4, d, s.time⟩] })
  | some a =>
    let all := a.data ++ d
    if a.seq ≠ seq || decide (4096 < all.length) then s.dropAsm (fun y => y.of m w)
    else
      let s := s.modMgt (fun x => { x with asm := x.asm.filter (fun y => !y.of m w) })
      if eom then s.deliver m w true all
      else s.modMgt (fun x => { x with asm := x.asm ++ [⟨a.key, (seq + 1) % 4, all, s.time⟩] })

/-- R368 to R370: MCTP_PACKET: header version, destination and source EID, flags; the PEC on the bus; packets to another
EID are discarded, and before an EID is set all but control messages to EID 0 or the broadcast EID. -/
def execMctpPacket (m : Medium) (phys : Byte) (bytes : List Byte) (pecOk : Bool) (s : State) :
    Host.Outcome State Fault Refusal :=
  let dst := bytes.getD 1 0
  let flags := (bytes.getD 3 0).toNat
  let d := bytes.drop 4
  let w : MsgSrc := ⟨phys, bytes.getD 2 0, BitVec.ofNat 3 flags, bitOf flags 3⟩
  let som := bitOf flags 7
  if !s.mediumUp m || decide (bytes.length < 5) then .next s
  else if m = .bus && !pecOk then .next ((s.bump (mgtR 0x10C) 1).flagC .mgt 18)
  else if s.eid m = some dst then .next (s.packet m w som (bitOf flags 6) (bitsOf flags 5 4) d)
  else if dst = 0 || dst == 0xFF then
    let ctl := if som then (d.getD 0 0).toNat % 128 == 0 else s.mgt.asm.any (fun a => a.of m w)
    .next (if ctl then s.packet m w som (bitOf flags 6) (bitsOf flags 5 4) d else s)
  else .next (s.bump (mgtR 0x118) 1)

/-- R369: ASSEMBLY_TIMEOUT: 100 ms without a packet. -/
def execAssemblyTimeout (key : AsmKey) (s : State) : Host.Outcome State Fault Refusal :=
  .next (s.dropAsm (fun a => a.of key.m key.src && decide (a.at_ + 100000000 ≤ s.time)))

/-! ### Messages that are rows -/

/-- R370: SET_ENDPOINT_ID. -/
def execSetEndpointId (m : Medium) (w : MsgSrc) (op : Byte) (eid : Byte) (s : State) : Host.Outcome State Fault Refusal :=
  .next (s.deliver m w true [0x00, 0x80, 0x01, op, eid])

/-- R370: MCTP_CONTROL: any other control request. -/
def execMctpControl (m : Medium) (w : MsgSrc) (cmd : Byte) (body : List Byte) (s : State) :
    Host.Outcome State Fault Refusal :=
  .next (if cmd = 1 then s else s.deliver m w true ([0x00, 0x80, cmd] ++ body))

/-- R373, R374: REGISTER_ACCESS_READ: body is the message after its type byte. -/
def execRegisterAccessRead (m : Medium) (w : MsgSrc) (body : List Byte) (s : State) : Host.Outcome State Fault Refusal :=
  .next (if body.getD 2 0 = 1 then s.deliver m w true (0x7E :: body) else s)

/-- R373, R374: REGISTER_ACCESS_WRITE, inside the session of its source where secured. -/
def execRegisterAccessWrite (m : Medium) (w : MsgSrc) (secured : Bool) (body : List Byte) (s : State) :
    Host.Outcome State Fault Refusal :=
  .next (if body.getD 2 0 ≠ 2 then s
    else if !secured then s.deliver m w true (0x7E :: body)
    else match s.session m w with
      | some id => s.deliverIn m w id true (0x7E :: body)
      | none => s)

/-- A PLDM message of one type, and of some of its commands, as it arrives. -/
def State.pldmRow (s : State) (m : Medium) (w : MsgSrc) (type : Byte) (cmd : Byte → Bool) (body : List Byte) : State :=
  if body.getD 1 0 &&& 0x3F = type && cmd (body.getD 2 0) then s.deliver m w true (0x01 :: body) else s

/-- R370: PLDM_BASE. -/
def execPldmBase (m : Medium) (w : MsgSrc) (body : List Byte) (s : State) : Host.Outcome State Fault Refusal :=
  .next (s.pldmRow m w 0 (fun _ => true) body)

/-- R453: GET_SENSOR_READING. -/
def execGetSensorReading (m : Medium) (w : MsgSrc) (body : List Byte) (s : State) : Host.Outcome State Fault Refusal :=
  .next (s.pldmRow m w 2 (fun c => c == 0x11) body)

/-- R453: SET_NUMERIC_EFFECTER_VALUE. -/
def execSetNumericEffecterValue (m : Medium) (w : MsgSrc) (body : List Byte) (s : State) :
    Host.Outcome State Fault Refusal :=
  .next (s.pldmRow m w 2 (fun c => c == 0x31) body)

/-- R453: SET_EVENT_RECEIVER. -/
def execSetEventReceiver (m : Medium) (w : MsgSrc) (body : List Byte) (s : State) : Host.Outcome State Fault Refusal :=
  .next (s.pldmRow m w 2 (fun c => c == 0x04) body)

/-- R370, R412: PLDM_FIRMWARE_UPDATE. -/
def execPldmFirmwareUpdate (m : Medium) (w : MsgSrc) (body : List Byte) (s : State) : Host.Outcome State Fault Refusal :=
  .next (s.pldmRow m w 5 (fun _ => true) body)

/-- An SPDM request of one code, inside the session of its source where it has one. -/
def State.spdmRow (s : State) (m : Medium) (w : MsgSrc) (code : Byte) (inSes ok : Bool) (body : List Byte) : State :=
  if body.getD 1 0 ≠ code then s
  else match s.session m w with
    | some id => if inSes then s.deliverIn m w id ok (0x05 :: body) else s.deliver m w ok (0x05 :: body)
    | none => s.deliver m w ok (0x05 :: body)

/-- R375. -/
def execGetVersion (m : Medium) (w : MsgSrc) (body : List Byte) (s : State) : Host.Outcome State Fault Refusal :=
  .next (s.spdmRow m w 0x84 false true body)

/-- R375. -/
def execGetCapabilities (m : Medium) (w : MsgSrc) (body : List Byte) (s : State) : Host.Outcome State Fault Refusal :=
  .next (s.spdmRow m w 0xE1 false true body)

/-- R375. -/
def execNegotiateAlgorithms (m : Medium) (w : MsgSrc) (body : List Byte) (s : State) : Host.Outcome State Fault Refusal :=
  .next (s.spdmRow m w 0xE3 false true body)

/-- R375, R381. -/
def execGetDigests (m : Medium) (w : MsgSrc) (body : List Byte) (s : State) : Host.Outcome State Fault Refusal :=
  .next (s.spdmRow m w 0x81 false true body)

/-- R375, R381. -/
def execGetCertificate (m : Medium) (w : MsgSrc) (body : List Byte) (s : State) : Host.Outcome State Fault Refusal :=
  .next (s.spdmRow m w 0x82 false true body)

/-- R375, R372. -/
def execChallenge (m : Medium) (w : MsgSrc) (body : List Byte) (s : State) : Host.Outcome State Fault Refusal :=
  .next (s.spdmRow m w 0x83 false true body)

/-- R382. -/
def execGetMeasurements (m : Medium) (w : MsgSrc) (body : List Byte) (s : State) : Host.Outcome State Fault Refusal :=
  .next (s.spdmRow m w 0xE0 false true body)

/-- R375, R372. -/
def execKeyExchange (m : Medium) (w : MsgSrc) (body : List Byte) (s : State) : Host.Outcome State Fault Refusal :=
  .next (s.spdmRow m w 0xE4 false true body)

/-- R375: ok tells whether the verification data is right. -/
def execFinish (m : Medium) (w : MsgSrc) (ok : Bool) (body : List Byte) (s : State) : Host.Outcome State Fault Refusal :=
  .next (s.spdmRow m w 0xE5 false ok body)

/-- R375. -/
def execHeartbeat (m : Medium) (w : MsgSrc) (body : List Byte) (s : State) : Host.Outcome State Fault Refusal :=
  .next (s.spdmRow m w 0xE8 true true body)

/-- R375. -/
def execKeyUpdate (m : Medium) (w : MsgSrc) (body : List Byte) (s : State) : Host.Outcome State Fault Refusal :=
  .next (s.spdmRow m w 0xE9 true true body)

/-- R375. -/
def execEndSession (m : Medium) (w : MsgSrc) (body : List Byte) (s : State) : Host.Outcome State Fault Refusal :=
  .next (s.spdmRow m w 0xEC true true body)

/-- R375. -/
def execChunkSend (m : Medium) (w : MsgSrc) (body : List Byte) (s : State) : Host.Outcome State Fault Refusal :=
  .next (s.spdmRow m w 0x85 false true body)

/-- R375. -/
def execChunkGet (m : Medium) (w : MsgSrc) (body : List Byte) (s : State) : Host.Outcome State Fault Refusal :=
  .next (s.spdmRow m w 0x86 false true body)

/-- R370: SECURED_MESSAGE: body is the inner message; one that does not decipher, or that names no session of its source,
is discarded. -/
def execSecuredMessage (m : Medium) (w : MsgSrc) (session : Word) (ok : Bool) (body : List Byte) (s : State) :
    Host.Outcome State Fault Refusal :=
  .next (if ok && s.session m w == some session.toNat then s.deliverIn m w session.toNat true body else s)

end Sys2Proof.Machine
end

