-- ==== Sys2Proof/Machine/Units.lean ====
section
/-! DEFINITION. The micro-operations of the Stethar units as commands (R102): each acts in every unit that the RUN in
progress engages, under the fields of the word and of the RUN's descriptor. -/

namespace Sys2Proof.Machine

/-- A micro-operation of the RUN in progress: the operation is the command's own, the other fields are the word's. A
reserved encoding is refused by R113; with no RUN in progress no unit is engaged and nothing happens (assumption log 40). -/
def State.unitRow (s : State) (t op : Nat) (u : Word) : State :=
  let u := fset u 31 27 op
  let b := (s.tower t).bench
  match b.run with
  | none => s
  | some d =>
    if !uValid (dbit d 1 21) u then ((s.bnRefuse t d 0).modBench t (fun b => { b with run := none })).settleIdle
    else
      match s.unitOp ⟨t, d, setBanks b.rows, b.iter, 0⟩ u with
      | (s, none) => s
      | (s, some cause) => (s.failSub (bnKey t) cause (s.qGet (bnKey t)).idx (dfld d 0 6 0)).settleIdle

/-- R102: UNIT_NOP. -/
def execUnitNop (t : Tower) (u : Word) (s : State) : Host.Outcome State Fault Refusal := .next (s.unitRow t.val 0 u)

/-- R102: UNIT_MAC. -/
def execUnitMac (t : Tower) (u : Word) (s : State) : Host.Outcome State Fault Refusal := .next (s.unitRow t.val 1 u)

/-- R102: UNIT_MUL. -/
def execUnitMul (t : Tower) (u : Word) (s : State) : Host.Outcome State Fault Refusal := .next (s.unitRow t.val 2 u)

/-- R102: UNIT_FMA. -/
def execUnitFma (t : Tower) (u : Word) (s : State) : Host.Outcome State Fault Refusal := .next (s.unitRow t.val 3 u)

/-- R102: UNIT_ADD. -/
def execUnitAdd (t : Tower) (u : Word) (s : State) : Host.Outcome State Fault Refusal := .next (s.unitRow t.val 4 u)

/-- R102: UNIT_SUB. -/
def execUnitSub (t : Tower) (u : Word) (s : State) : Host.Outcome State Fault Refusal := .next (s.unitRow t.val 5 u)

/-- R102: UNIT_MAX. -/
def execUnitMax (t : Tower) (u : Word) (s : State) : Host.Outcome State Fault Refusal := .next (s.unitRow t.val 6 u)

/-- R102: UNIT_MIN. -/
def execUnitMin (t : Tower) (u : Word) (s : State) : Host.Outcome State Fault Refusal := .next (s.unitRow t.val 7 u)

/-- R102: UNIT_CMPGT. -/
def execUnitCmpgt (t : Tower) (u : Word) (s : State) : Host.Outcome State Fault Refusal := .next (s.unitRow t.val 8 u)

/-- R102: UNIT_CMPGE. -/
def execUnitCmpge (t : Tower) (u : Word) (s : State) : Host.Outcome State Fault Refusal := .next (s.unitRow t.val 9 u)

/-- R102: UNIT_CMPEQ. -/
def execUnitCmpeq (t : Tower) (u : Word) (s : State) : Host.Outcome State Fault Refusal := .next (s.unitRow t.val 10 u)

/-- R102: UNIT_SEL. -/
def execUnitSel (t : Tower) (u : Word) (s : State) : Host.Outcome State Fault Refusal := .next (s.unitRow t.val 11 u)

/-- R102: UNIT_EXP2. -/
def execUnitExp2 (t : Tower) (u : Word) (s : State) : Host.Outcome State Fault Refusal := .next (s.unitRow t.val 12 u)

/-- R102: UNIT_LOG2. -/
def execUnitLog2 (t : Tower) (u : Word) (s : State) : Host.Outcome State Fault Refusal := .next (s.unitRow t.val 13 u)

/-- R102: UNIT_HSUM. -/
def execUnitHsum (t : Tower) (u : Word) (s : State) : Host.Outcome State Fault Refusal := .next (s.unitRow t.val 14 u)

/-- R102: UNIT_HMAX. -/
def execUnitHmax (t : Tower) (u : Word) (s : State) : Host.Outcome State Fault Refusal := .next (s.unitRow t.val 15 u)

/-- R102: UNIT_RSUM. -/
def execUnitRsum (t : Tower) (u : Word) (s : State) : Host.Outcome State Fault Refusal := .next (s.unitRow t.val 16 u)

/-- R102: UNIT_RMAX. -/
def execUnitRmax (t : Tower) (u : Word) (s : State) : Host.Outcome State Fault Refusal := .next (s.unitRow t.val 17 u)

/-- R102: UNIT_MOV. -/
def execUnitMov (t : Tower) (u : Word) (s : State) : Host.Outcome State Fault Refusal := .next (s.unitRow t.val 18 u)

/-- R102: UNIT_ST. -/
def execUnitSt (t : Tower) (u : Word) (s : State) : Host.Outcome State Fault Refusal := .next (s.unitRow t.val 19 u)

/-- R102: UNIT_CLR. -/
def execUnitClr (t : Tower) (u : Word) (s : State) : Host.Outcome State Fault Refusal := .next (s.unitRow t.val 20 u)

/-- R102: UNIT_OUT. -/
def execUnitOut (t : Tower) (u : Word) (s : State) : Host.Outcome State Fault Refusal := .next (s.unitRow t.val 21 u)

end Sys2Proof.Machine
end

