-- ==== Sys2Proof/Machine/Dispatch.lean ====
section
/-! DEFINITION. The meaning of every command: one arm per row of spec/opcode_table.json, each a direct call of the
command's own meaning. -/

namespace Sys2Proof.Machine

open Sys2Proof

/-- The effect of a command on everything but the queue of waiting commands. -/
def exec (i : Instr) (s : State) : Host.Outcome State Fault Refusal :=
  match i with
  | .hawserPacket src dst id replays => Sys2Proof.Machine.execHawserPacket src dst id replays s
  | .hawserAck src dst n => Sys2Proof.Machine.execHawserAck src dst n s
  | .linkDown t d => Sys2Proof.Machine.execLinkDown t d s
  | .regWrite src addr size val => Sys2Proof.Machine.execRegWrite src addr size val s
  | .timeLoRead r => Sys2Proof.Machine.execTimeLoRead r s
  | .bar2Read p rid off len => Sys2Proof.Machine.execBar2Read p rid off len s
  | .bar2Write p rid off data ep => Sys2Proof.Machine.execBar2Write p rid off data ep s
  | .winBaseWrite src p w val => Sys2Proof.Machine.execWinBaseWrite src p w val s
  | .winCtlWrite src p w val => Sys2Proof.Machine.execWinCtlWrite src p w val s
  | .acwHeldWrite src p a limit val => Sys2Proof.Machine.execAcwHeldWrite src p a limit val s
  | .acwCtlWrite src p a val => Sys2Proof.Machine.execAcwCtlWrite src p a val s
  | .memmapWrite src t val => Sys2Proof.Machine.execMemmapWrite src t val s
  | .txnBegin src page group => Sys2Proof.Machine.execTxnBegin src page group s
  | .txnCommit src page => Sys2Proof.Machine.execTxnCommit src page s
  | .txnRollback src page => Sys2Proof.Machine.execTxnRollback src page s
  | .txgOpen src g => Sys2Proof.Machine.execTxgOpen src g s
  | .txgCommit src g => Sys2Proof.Machine.execTxgCommit src g s
  | .txgAbort src g => Sys2Proof.Machine.execTxgAbort src g s
  | .txgTimeout g => Sys2Proof.Machine.execTxgTimeout g s
  | .txgRelease g => Sys2Proof.Machine.execTxgRelease g s
  | .ifverReqWrite p rid val => Sys2Proof.Machine.execIfverReqWrite p rid val s
  | .swrstGo src => Sys2Proof.Machine.execSwrstGo src s
  | .softwareDeviceReset => Sys2Proof.Machine.execSoftwareDeviceReset s
  | .stepBoundary st => Sys2Proof.Machine.execStepBoundary st s
  | .channelCommandIssue t c => Sys2Proof.Machine.execChannelCommandIssue t c s
  | .memReadRequest da units tag => Sys2Proof.Machine.execMemReadRequest da units tag s
  | .memWriteRequest da data poison => Sys2Proof.Machine.execMemWriteRequest da data poison s
  | .narrowRead da tag => Sys2Proof.Machine.execNarrowRead da tag s
  | .atomicAdd da af addend mask => Sys2Proof.Machine.execAtomicAdd da af addend mask s
  | .readDataReturn t c errs => Sys2Proof.Machine.execReadDataReturn t c errs s
  | .mirrorReadReturn t errs => Sys2Proof.Machine.execMirrorReadReturn t errs s
  | .mirrorRepairReadback t errs => Sys2Proof.Machine.execMirrorRepairReadback t errs s
  | .wcbTimeoutFlush t c => Sys2Proof.Machine.execWcbTimeoutFlush t c s
  | .atomicIdleWriteback t c => Sys2Proof.Machine.execAtomicIdleWriteback t c s
  | .refreshDue t c b => Sys2Proof.Machine.execRefreshDue t c b s
  | .patrolScrubRead t c b row unit errs => Sys2Proof.Machine.execPatrolScrubRead t c b row unit errs s
  | .parityError t c e => Sys2Proof.Machine.execParityError t c e s
  | .forcedRetrainStart t c => Sys2Proof.Machine.execForcedRetrainStart t c s
  | .retrainSliceEnd t c => Sys2Proof.Machine.execRetrainSliceEnd t c s
  | .retrainAttemptEnd t c converged => Sys2Proof.Machine.execRetrainAttemptEnd t c converged s
  | .trainReq src t c => Sys2Proof.Machine.execTrainReq src t c s
  | .deckTempReport t deck half => Sys2Proof.Machine.execDeckTempReport t deck half s
  | .repairStart src t c => Sys2Proof.Machine.execRepairStart src t c s
  | .repairAbort src t c => Sys2Proof.Machine.execRepairAbort src t c s
  | .repairRowCopy t => Sys2Proof.Machine.execRepairRowCopy t s
  | .tgGo src t c val => Sys2Proof.Machine.execTgGo src t c val s
  | .tgStop src t c val => Sys2Proof.Machine.execTgStop src t c val s
  | .tgRunDone t c cycles => Sys2Proof.Machine.execTgRunDone t c cycles s
  | .memEnWrite src t c en => Sys2Proof.Machine.execMemEnWrite src t c en s
  | .bnRun t d => Sys2Proof.Machine.execBnRun t d s
  | .bnSetload t d => Sys2Proof.Machine.execBnSetload t d s
  | .bnBload t d => Sys2Proof.Machine.execBnBload t d s
  | .bnRunComplete t => Sys2Proof.Machine.execBnRunComplete t s
  | .unitNop t u => Sys2Proof.Machine.execUnitNop t u s
  | .unitMac t u => Sys2Proof.Machine.execUnitMac t u s
  | .unitMul t u => Sys2Proof.Machine.execUnitMul t u s
  | .unitFma t u => Sys2Proof.Machine.execUnitFma t u s
  | .unitAdd t u => Sys2Proof.Machine.execUnitAdd t u s
  | .unitSub t u => Sys2Proof.Machine.execUnitSub t u s
  | .unitMax t u => Sys2Proof.Machine.execUnitMax t u s
  | .unitMin t u => Sys2Proof.Machine.execUnitMin t u s
  | .unitCmpgt t u => Sys2Proof.Machine.execUnitCmpgt t u s
  | .unitCmpge t u => Sys2Proof.Machine.execUnitCmpge t u s
  | .unitCmpeq t u => Sys2Proof.Machine.execUnitCmpeq t u s
  | .unitSel t u => Sys2Proof.Machine.execUnitSel t u s
  | .unitExp2 t u => Sys2Proof.Machine.execUnitExp2 t u s
  | .unitLog2 t u => Sys2Proof.Machine.execUnitLog2 t u s
  | .unitHsum t u => Sys2Proof.Machine.execUnitHsum t u s
  | .unitHmax t u => Sys2Proof.Machine.execUnitHmax t u s
  | .unitRsum t u => Sys2Proof.Machine.execUnitRsum t u s
  | .unitRmax t u => Sys2Proof.Machine.execUnitRmax t u s
  | .unitMov t u => Sys2Proof.Machine.execUnitMov t u s
  | .unitSt t u => Sys2Proof.Machine.execUnitSt t u s
  | .unitClr t u => Sys2Proof.Machine.execUnitClr t u s
  | .unitOut t u => Sys2Proof.Machine.execUnitOut t u s
  | .kvIsolateWrite src t val => Sys2Proof.Machine.execKvIsolateWrite src t val s
  | .scrubProgramIssue t => Sys2Proof.Machine.execScrubProgramIssue t s
  | .scrubComplete t => Sys2Proof.Machine.execScrubComplete t s
  | .mxCommand q d => Sys2Proof.Machine.execMxCommand q d s
  | .vxNop q d => Sys2Proof.Machine.execVxNop q d s
  | .vxAdd q d => Sys2Proof.Machine.execVxAdd q d s
  | .vxSub q d => Sys2Proof.Machine.execVxSub q d s
  | .vxMul q d => Sys2Proof.Machine.execVxMul q d s
  | .vxFma q d => Sys2Proof.Machine.execVxFma q d s
  | .vxMax q d => Sys2Proof.Machine.execVxMax q d s
  | .vxMin q d => Sys2Proof.Machine.execVxMin q d s
  | .vxSel q d => Sys2Proof.Machine.execVxSel q d s
  | .vxCmpgt q d => Sys2Proof.Machine.execVxCmpgt q d s
  | .vxCmpge q d => Sys2Proof.Machine.execVxCmpge q d s
  | .vxCmpeq q d => Sys2Proof.Machine.execVxCmpeq q d s
  | .vxMand q d => Sys2Proof.Machine.execVxMand q d s
  | .vxMor q d => Sys2Proof.Machine.execVxMor q d s
  | .vxMnot q d => Sys2Proof.Machine.execVxMnot q d s
  | .vxExp2 q d => Sys2Proof.Machine.execVxExp2 q d s
  | .vxLog2 q d => Sys2Proof.Machine.execVxLog2 q d s
  | .vxRsqrt q d => Sys2Proof.Machine.execVxRsqrt q d s
  | .vxRcp q d => Sys2Proof.Machine.execVxRcp q d s
  | .vxCvt q d => Sys2Proof.Machine.execVxCvt q d s
  | .vxLdt q d => Sys2Proof.Machine.execVxLdt q d s
  | .vxStt q d => Sys2Proof.Machine.execVxStt q d s
  | .vxAcc q d => Sys2Proof.Machine.execVxAcc q d s
  | .vxScl q d => Sys2Proof.Machine.execVxScl q d s
  | .vxRsum q d => Sys2Proof.Machine.execVxRsum q d s
  | .vxRmax q d => Sys2Proof.Machine.execVxRmax q d s
  | .vxRargmax q d => Sys2Proof.Machine.execVxRargmax q d s
  | .vxTopk q d => Sys2Proof.Machine.execVxTopk q d s
  | .vxSample q d => Sys2Proof.Machine.execVxSample q d s
  | .vxMerge q d => Sys2Proof.Machine.execVxMerge q d s
  | .vxQnt q d => Sys2Proof.Machine.execVxQnt q d s
  | .mvCopy q d => Sys2Proof.Machine.execMvCopy q d s
  | .mvConvert q d => Sys2Proof.Machine.execMvConvert q d s
  | .mvFill q d => Sys2Proof.Machine.execMvFill q d s
  | .mvAtomic q d => Sys2Proof.Machine.execMvAtomic q d s
  | .mvHostrd q d => Sys2Proof.Machine.execMvHostrd q d s
  | .mvHostwr q d => Sys2Proof.Machine.execMvHostwr q d s
  | .pack q d => Sys2Proof.Machine.execPack q d s
  | .syFence q d => Sys2Proof.Machine.execSyFence q d s
  | .syWait q d => Sys2Proof.Machine.execSyWait q d s
  | .syPost q d => Sys2Proof.Machine.execSyPost q d s
  | .syStamp q d => Sys2Proof.Machine.execSyStamp q d s
  | .stDescriptor q d => Sys2Proof.Machine.execStDescriptor q d s
  | .waitTimeout q => Sys2Proof.Machine.execWaitTimeout q s
  | .word0WaitTimeout q => Sys2Proof.Machine.execWord0WaitTimeout q s
  | .descriptorComplete q => Sys2Proof.Machine.execDescriptorComplete q s
  | .sliceExpiry r => Sys2Proof.Machine.execSliceExpiry r s
  | .ringCtlWrite src p n val => Sys2Proof.Machine.execRingCtlWrite src p n val s
  | .stepIntake st samples => Sys2Proof.Machine.execStepIntake st samples s
  | .idleSampleTimer st samples => Sys2Proof.Machine.execIdleSampleTimer st samples s
  | .hostReadCompletion p tag ok ep data => Sys2Proof.Machine.execHostReadCompletion p tag ok ep data s
  | .cplTimeout p tag => Sys2Proof.Machine.execCplTimeout p tag s
  | .openSession p n r => Sys2Proof.Machine.execOpenSession p n r s
  | .submit p n r => Sys2Proof.Machine.execSubmit p n r s
  | .append p n r => Sys2Proof.Machine.execAppend p n r s
  | .draft p n r => Sys2Proof.Machine.execDraft p n r s
  | .cancel p n r => Sys2Proof.Machine.execCancel p n r s
  | .close p n r => Sys2Proof.Machine.execClose p n r s
  | .expertList p n r => Sys2Proof.Machine.execExpertList p n r s
  | .stepAdmission st => Sys2Proof.Machine.execStepAdmission st s
  | .stepAllocate st => Sys2Proof.Machine.execStepAllocate st s
  | .stepLayers st rows => Sys2Proof.Machine.execStepLayers st rows s
  | .layerCheck st layer => Sys2Proof.Machine.execLayerCheck st layer s
  | .stepVerify st => Sys2Proof.Machine.execStepVerify st s
  | .stepCommit st => Sys2Proof.Machine.execStepCommit st s
  | .stepEmit st rooms => Sys2Proof.Machine.execStepEmit st rooms s
  | .stepFree st => Sys2Proof.Machine.execStepFree st s
  | .resultHoldRetry p n rcons => Sys2Proof.Machine.execResultHoldRetry p n rcons s
  | .msixModeration p n => Sys2Proof.Machine.execMsixModeration p n s
  | .msixVectorUnmask p e => Sys2Proof.Machine.execMsixVectorUnmask p e s
  | .admissionTimeout st ctx sid => Sys2Proof.Machine.execAdmissionTimeout st ctx sid s
  | .lcParkExpiry st => Sys2Proof.Machine.execLcParkExpiry st s
  | .parkMaxExpiry t => Sys2Proof.Machine.execParkMaxExpiry t s
  | .stepRecordRefresh t r => Sys2Proof.Machine.execStepRecordRefresh t r s
  | .histogramStep st => Sys2Proof.Machine.execHistogramStep st s
  | .tabLoad src t tid => Sys2Proof.Machine.execTabLoad src t tid s
  | .partitionChange src val => Sys2Proof.Machine.execPartitionChange src val s
  | .claim src p st => Sys2Proof.Machine.execClaim src p st s
  | .release src p st => Sys2Proof.Machine.execRelease src p st s
  | .ownerSet src st port => Sys2Proof.Machine.execOwnerSet src st port s
  | .reconfGo src st force => Sys2Proof.Machine.execReconfGo src st force s
  | .reconfiguration st => Sys2Proof.Machine.execReconfiguration st s
  | .contextOpen src st k val => Sys2Proof.Machine.execContextOpen src st k val s
  | .contextClose src st k => Sys2Proof.Machine.execContextClose src st k s
  | .stallResetDone st => Sys2Proof.Machine.execStallResetDone st s
  | .brstWrite src page => Sys2Proof.Machine.execBrstWrite src page s
  | .brstDone page => Sys2Proof.Machine.execBrstDone page s
  | .perst p => Sys2Proof.Machine.execPerst p s
  | .hotReset p => Sys2Proof.Machine.execHotReset p s
  | .portLinkDown p => Sys2Proof.Machine.execPortLinkDown p s
  | .flr p => Sys2Proof.Machine.execFlr p s
  | .isolationComplete p => Sys2Proof.Machine.execIsolationComplete p s
  | .flrComplete p => Sys2Proof.Machine.execFlrComplete p s
  | .linkUp p rate width flit reversed => Sys2Proof.Machine.execLinkUp p rate width flit reversed s
  | .configRequest p wr off val => Sys2Proof.Machine.execConfigRequest p wr off val s
  | .unsupportedRequest p rid kind addr => Sys2Proof.Machine.execUnsupportedRequest p rid kind addr s
  | .mctpPacket m phys bytes pecOk => Sys2Proof.Machine.execMctpPacket m phys bytes pecOk s
  | .assemblyTimeout key => Sys2Proof.Machine.execAssemblyTimeout key s
  | .setdasa static dyn => Sys2Proof.Machine.execSetdasa static dyn s
  | .entdaa won dyn => Sys2Proof.Machine.execEntdaa won dyn s
  | .rstdaa => Sys2Proof.Machine.execRstdaa s
  | .hdrEntry => Sys2Proof.Machine.execHdrEntry s
  | .i3cParityError => Sys2Proof.Machine.execI3cParityError s
  | .busTimeout => Sys2Proof.Machine.execBusTimeout s
  | .setEndpointId m w op eid => Sys2Proof.Machine.execSetEndpointId m w op eid s
  | .mctpControl m w cmd body => Sys2Proof.Machine.execMctpControl m w cmd body s
  | .registerAccessRead m w body => Sys2Proof.Machine.execRegisterAccessRead m w body s
  | .registerAccessWrite m w secured body => Sys2Proof.Machine.execRegisterAccessWrite m w secured body s
  | .responseAttempt m lost nack => Sys2Proof.Machine.execResponseAttempt m lost nack s
  | .backoffExpiry m => Sys2Proof.Machine.execBackoffExpiry m s
  | .pldmBase m w body => Sys2Proof.Machine.execPldmBase m w body s
  | .getSensorReading m w body => Sys2Proof.Machine.execGetSensorReading m w body s
  | .setNumericEffecterValue m w body => Sys2Proof.Machine.execSetNumericEffecterValue m w body s
  | .setEventReceiver m w body => Sys2Proof.Machine.execSetEventReceiver m w body s
  | .pldmFirmwareUpdate m w body => Sys2Proof.Machine.execPldmFirmwareUpdate m w body s
  | .getVersion m w body => Sys2Proof.Machine.execGetVersion m w body s
  | .getCapabilities m w body => Sys2Proof.Machine.execGetCapabilities m w body s
  | .negotiateAlgorithms m w body => Sys2Proof.Machine.execNegotiateAlgorithms m w body s
  | .getDigests m w body => Sys2Proof.Machine.execGetDigests m w body s
  | .getCertificate m w body => Sys2Proof.Machine.execGetCertificate m w body s
  | .challenge m w body => Sys2Proof.Machine.execChallenge m w body s
  | .getMeasurements m w body => Sys2Proof.Machine.execGetMeasurements m w body s
  | .keyExchange m w body => Sys2Proof.Machine.execKeyExchange m w body s
  | .finish m w ok body => Sys2Proof.Machine.execFinish m w ok body s
  | .heartbeat m w body => Sys2Proof.Machine.execHeartbeat m w body s
  | .keyUpdate m w body => Sys2Proof.Machine.execKeyUpdate m w body s
  | .endSession m w body => Sys2Proof.Machine.execEndSession m w body s
  | .chunkSend m w body => Sys2Proof.Machine.execChunkSend m w body s
  | .chunkGet m w body => Sys2Proof.Machine.execChunkGet m w body s
  | .securedMessage m w session ok body => Sys2Proof.Machine.execSecuredMessage m w session ok body s
  | .arbCommit src type => Sys2Proof.Machine.execArbCommit src type s
  | .revoke src idx => Sys2Proof.Machine.execRevoke src idx s
  | .newkey src st => Sys2Proof.Machine.execNewkey src st s
  | .importKey src st => Sys2Proof.Machine.execImportKey src st s
  | .kimportWrite src k val => Sys2Proof.Machine.execKimportWrite src k val s
  | .drbgReseed => Sys2Proof.Machine.execDrbgReseed s
  | .entropyFail => Sys2Proof.Machine.execEntropyFail s
  | .tapUnlock => Sys2Proof.Machine.execTapUnlock s
  | .powerOn => Sys2Proof.Machine.execPowerOn s
  | .resetNAssert => Sys2Proof.Machine.execResetNAssert s
  | .resetNFilterExpiry => Sys2Proof.Machine.execResetNFilterExpiry s
  | .resetNRelease lowNs straps => Sys2Proof.Machine.execResetNRelease lowNs straps s
  | .pwrGoodLow => Sys2Proof.Machine.execPwrGoodLow s
  | .refclkStop => Sys2Proof.Machine.execRefclkStop s
  | .refclkLossTimeout => Sys2Proof.Machine.execRefclkLossTimeout s
  | .watchdogExpiry => Sys2Proof.Machine.execWatchdogExpiry s
  | .tallymanHeartbeat clerks => Sys2Proof.Machine.execTallymanHeartbeat clerks s
  | .startTimeout => Sys2Proof.Machine.execStartTimeout s
  | .startConfirm => Sys2Proof.Machine.execStartConfirm s
  | .criticalStateError crit tower => Sys2Proof.Machine.execCriticalStateError crit tower s
  | .fatalError kind => Sys2Proof.Machine.execFatalError kind s
  | .fatalHandlingEnd => Sys2Proof.Machine.execFatalHandlingEnd s
  | .domainReleaseEvent locked => Sys2Proof.Machine.execDomainReleaseEvent locked s
  | .memoryInitDone failed => Sys2Proof.Machine.execMemoryInitDone failed s
  | .bootRecordRead => Sys2Proof.Machine.execBootRecordRead s
  | .imageReadDone slot type ok => Sys2Proof.Machine.execImageReadDone slot type ok s
  | .loadBegin src => Sys2Proof.Machine.execLoadBegin src s
  | .loadChunk src len => Sys2Proof.Machine.execLoadChunk src len s
  | .loadChunkDone => Sys2Proof.Machine.execLoadChunkDone s
  | .loadEnd src => Sys2Proof.Machine.execLoadEnd src s
  | .loadAbort src => Sys2Proof.Machine.execLoadAbort src s
  | .loadOwnerTimeout => Sys2Proof.Machine.execLoadOwnerTimeout s
  | .bootRetry src => Sys2Proof.Machine.execBootRetry src s
  | .slotSwap src => Sys2Proof.Machine.execSlotSwap src s
  | .recordWriteDone ok => Sys2Proof.Machine.execRecordWriteDone ok s
  | .errSelWrite src val => Sys2Proof.Machine.execErrSelWrite src val s
  | .sevHistoryFlush => Sys2Proof.Machine.execSevHistoryFlush s
  | .integResume src st => Sys2Proof.Machine.execIntegResume src st s
  | .integrityCheckDone st => Sys2Proof.Machine.execIntegrityCheckDone st s
  | .gateMemoryError g correctable => Sys2Proof.Machine.execGateMemoryError g correctable s
  | .epochStart => Sys2Proof.Machine.execEpochStart s
  | .demandReport t tsv banks core => Sys2Proof.Machine.execDemandReport t tsv banks core s
  | .grantCompute => Sys2Proof.Machine.execGrantCompute s
  | .grantRise t => Sys2Proof.Machine.execGrantRise t s
  | .issueThrottle t measured => Sys2Proof.Machine.execIssueThrottle t measured s
  | .baseTempRead t half => Sys2Proof.Machine.execBaseTempRead t half s
  | .gateTempRead g half => Sys2Proof.Machine.execGateTempRead g half s
  | .moduleWWrite src val => Sys2Proof.Machine.execModuleWWrite src val s
  | .pwrEnRise => Sys2Proof.Machine.execPwrEnRise s
  | .softStartDone straps => Sys2Proof.Machine.execSoftStartDone straps s
  | .pwrEnFall => Sys2Proof.Machine.execPwrEnFall s
  | .pwrEnHoldoffExpiry => Sys2Proof.Machine.execPwrEnHoldoffExpiry s
  | .vmainUndervoltage => Sys2Proof.Machine.execVmainUndervoltage s
  | .vmainOvervoltage => Sys2Proof.Machine.execVmainOvervoltage s
  | .supplyFaultClear => Sys2Proof.Machine.execSupplyFaultClear s
  | .vsbLoss => Sys2Proof.Machine.execVsbLoss s
  | .perstDeassert p => Sys2Proof.Machine.execPerstDeassert p s
  | .hdrExit => Sys2Proof.Machine.execHdrExit s
  | .refclkReturn => Sys2Proof.Machine.execRefclkReturn s
  | .pwrGoodRelease straps => Sys2Proof.Machine.execPwrGoodRelease straps s
  | .reconfigurationDone st => Sys2Proof.Machine.execReconfigurationDone st s

end Sys2Proof.Machine
end

