-- ==== Sys2Proof/Machine/Tick.lean ====
section
/-! DEFINITION. The passing of device time while no command waits. -/

namespace Sys2Proof.Machine

/-- R63: device time advances in steps of 10 ns. Every other effect of time is a command of its own. -/
def State.tick (s : State) : State := { s with time := (s.time + 10) % 2 ^ 64 }

end Sys2Proof.Machine
end

