-- ==== Sys2Proof/Safety.lean ====
section
/-! DEFINITION. The terms that claims use: the invariants of a state, when a register write reaches its register, and the
outcomes of a list of commands. -/

namespace Sys2Proof.Safety

open Sys2Proof Sys2Proof.Machine

/-- The stored memory, its check bits and the on-die SRAM are in canonical form: equal memories are equal lists. -/
def MemInv (s : State) : Prop := Memory.wf s.mem ∧ Memory.wf s.chk ∧ Memory.wf s.sram

/-- R379, R380, R383: the fuses of t hold at least those of s: no counter is lower and no revoked key is restored. -/
def FusesKept (s t : State) : Prop :=
  (∀ k, s.arbCtr k ≤ t.arbCtr k) ∧ s.fuses.revoked &&& t.fuses.revoked = s.fuses.revoked

/-- A write reaches its register's page: the source's interface receives it, the page's domain is released, R45 permits
it, and it carries no reserved encoding. -/
def reaches (s : State) (src : Src) (addr : Nat) (val : Word) : Bool :=
  (s.receive src addr).1 &&
  match pageNo (addr / 4096) with
  | none => false
  | some pg => match pg.kind.regAt (addr % 4096) with
    | none => false
    | some r => s.released pg && s.mayWrite src pg (addr % 4096) val && !s.reservedWrite pg (addr % 4096) r val

/-- A write that reaches its page while no transaction is open there: it takes effect by the class of its fields. -/
def takes (s : State) (src : Src) (addr : Nat) (val : Word) : Bool :=
  reaches s src addr val && !(s.txn (addr / 4096)).open_

/-- R112, R113: the state in which a BN descriptor at the head of the bench queue of tower t begins its own effect, where it
does: no RUN is in progress, no other submission's program is open, the head of the queue lets it run, nothing of its context
is discarded, and the program, opened if none was, has counted it within PROG_MAX. -/
def bnBegin (s : State) (t : Nat) (d : Desc) : Option State :=
  let k := bnKey t
  let e := ({ s with hit := false } : State).ensureRes (keyRes k)
  let b := (e.tower t).bench
  if b.run = none ∧ (b.open_ = false ∨ b.slot = (e.actor k).slot) then
    match e.head k 3 (fun _ => dfld d 1 25 24 != 3) d with
    | .run v =>
      let a := v.actor k
      let u := (v.modBench t (fun b =>
        let b := if b.open_ then b else { b with open_ := true, ctx := a.ctx, slot := a.slot, cmds := 0 }
        if b.taken then b else { b with cmds := b.cmds + 1 })).modBench t (fun b => { b with taken := false })
      if smem b.discard a.slot = false ∧ (u.tower t).bench.cmds ≤ u.fld (bsqR t 0x80) 15 8 then some u else none
    | _ => none
  else none

/-- R265 to R268: the state in which a descriptor at the head of queue k begins its own effect, where it does: the head of the
queue lets it run and its family's checks ok pass; on a bench queue no RUN is in progress and no other program is open. -/
def rowBegin (s : State) (k fam : Nat) (ok : State → Bool) (d : Desc) : Option State :=
  let e : State := { s with hit := false }
  let b := (e.tower (keyTower k)).bench
  if k / 8 < 10240 ∨ (b.run = none ∧ (b.open_ = false ∨ b.slot = (e.actor k).slot)) then
    match e.head k fam ok d with
    | .run v => some v
    | _ => none
  else none

/-- The steps of a list of commands from a state, each run by exec; none where one stops. -/
def run (s : State) : List Instr → Option State
  | [] => some s
  | c :: rest => match Sys2Proof.Machine.exec c s with
    | .next t => run t rest
    | _ => none

end Sys2Proof.Safety
end

