-- ==== Sys2Proof/Certificates/Slice0/Obligations.lean ====
section
/-! DEFINITION. The statements for the provers. -/

open Sys2Proof Sys2Proof.Machine Sys2Proof.Safety

/-! ### The machine -/

/-- A step runs the command at the front of the queue by exec on the state with the queue's rest; on an empty queue it
answers the state 10 ns later (assumption log 6). -/
def Obligations.StepRunsFront : Prop :=
  ∀ (s : State) (c : Instr) (rest : List Instr),
    Sys2Proof.Machine.step { s with pending := c :: rest } = Sys2Proof.Machine.exec c { s with pending := rest } ∧
    (s.pending = [] → Sys2Proof.Machine.step s = .next { s with time := (s.time + 10) % 2 ^ 64 })

/-- The state after reset: no command waits, no memory is listed, MODULE_W is 3600 W, MEMMAP and WIN_CTL are 0, every
stall is unowned, DEV.STALL_CFG is 0, and the memory is in canonical form. Clauses the spec leaves open rest on the
model's choices of assumption logs 4, 5 and 83. -/
def Obligations.ResetState : Prop :=
  State.reset.pending = [] ∧ State.reset.mem = [] ∧ State.reset.reg (wghR 0x80) = 3600#32 ∧
  (∀ t : Tower, State.reset.reg (twrR t.val 0x80) = 0) ∧
  (∀ (p : Port) (w : Fin 8), State.reset.reg (prtR p.val (0x80 + 8 * w.val)) = 0) ∧
  (∀ st : Stall, State.reset.owner st.val = 7) ∧ State.reset.nstall = 0 ∧ MemInv State.reset

/-- Every step keeps the memory, its check bits and the on-die SRAM in canonical form. Clauses the spec leaves open rest
on the model's choices of assumption log 5. -/
def Obligations.StepKeepsMemoryForm : Prop :=
  ∀ s t : State, MemInv s → Sys2Proof.Machine.step s = .next t → MemInv t

/-- R379, R380: no step lowers an anti-rollback counter or restores a revoked vendor key. -/
def Obligations.StepKeepsFuses : Prop :=
  ∀ s t : State, Sys2Proof.Machine.step s = .next t → FusesKept s t

/-- A command leaves the queue of waiting commands as it is: the step takes one command off the front and adds none. -/
def Obligations.StepTakesOneCommand : Prop :=
  ∀ (s t : State) (c : Instr) (rest : List Instr), s.pending = c :: rest →
    Sys2Proof.Machine.step s = .next t → t.pending = rest

/-! ### Register writes -/

/-- Each register row is a 4 B write of its register: the value it writes, and where. Clauses the spec leaves open rest on
the model's choices of assumption log 1. -/
def Obligations.RegisterRowsAreWrites : Prop :=
  ∀ (s : State) (src : Src) (v : Word),
    let w (a : Nat) (v : Word) := Sys2Proof.Machine.exec (.regWrite src (BitVec.ofNat 26 a) 4 (v.zeroExtend 64)) s
    (∀ (p : Port) (i : Fin 8), Sys2Proof.Machine.exec (.winBaseWrite src p i v) s = w (prtR p.val (0x84 + 8 * i.val)) v ∧
      Sys2Proof.Machine.exec (.winCtlWrite src p i v) s = w (prtR p.val (0x80 + 8 * i.val)) v) ∧
    (∀ (p : Port) (i : Fin 16), Sys2Proof.Machine.exec (.acwHeldWrite src p i false v) s = w (prtR p.val (0x104 + 16 * i.val)) v ∧
      Sys2Proof.Machine.exec (.acwHeldWrite src p i true v) s = w (prtR p.val (0x108 + 16 * i.val)) v ∧
      Sys2Proof.Machine.exec (.acwCtlWrite src p i v) s = w (prtR p.val (0x100 + 16 * i.val)) v) ∧
    (∀ (p : Port) (n : Pair), Sys2Proof.Machine.exec (.ringCtlWrite src p n v) s = w (prtR p.val (0x200 + 64 * n.val)) v) ∧
    (∀ (p : Port) (st : Stall), Sys2Proof.Machine.exec (.claim src p st) s = w (prtR p.val 0x400) (BitVec.ofNat 32 (2 ^ 31 + st.val)) ∧
      Sys2Proof.Machine.exec (.release src p st) s = w (prtR p.val 0x400) (BitVec.ofNat 32 (2 ^ 30 + st.val))) ∧
    (∀ t : Tower, Sys2Proof.Machine.exec (.memmapWrite src t v) s = w (twrR t.val 0x80) v ∧
      Sys2Proof.Machine.exec (.kvIsolateWrite src t v) s = w (twrR t.val 0xA0) v ∧
      ∀ tid : Byte, Sys2Proof.Machine.exec (.tabLoad src t tid) s = w (pkrR t.val 0x94) (BitVec.ofNat 32 (2 ^ 31 + tid.toNat))) ∧
    (∀ (t : Tower) (c : Chan), Sys2Proof.Machine.exec (.trainReq src t c) s = w (memR t.val c.val 0x94) 0x80000000#32 ∧
      Sys2Proof.Machine.exec (.repairStart src t c) s = w (memR t.val c.val 0x98) 0x40000000#32 ∧
      Sys2Proof.Machine.exec (.repairAbort src t c) s = w (memR t.val c.val 0x98) 0x80000000#32 ∧
      Sys2Proof.Machine.exec (.tgGo src t c v) s = w (memR t.val c.val 0x100) (v ||| 0x80000000#32) ∧
      Sys2Proof.Machine.exec (.tgStop src t c v) s = w (memR t.val c.val 0x100) ((v ||| 0x40000000#32) &&& 0x7FFFFFFF#32) ∧
      Sys2Proof.Machine.exec (.memEnWrite src t c true) s = w (memR t.val c.val 0x10) 1#32 ∧
      Sys2Proof.Machine.exec (.memEnWrite src t c false) s = w (memR t.val c.val 0x10) 0#32) ∧
    (∀ (pg : PageNo) (g : Byte), Sys2Proof.Machine.exec (.txnBegin src pg g) s = w (pg.toNat * 4096 + 0x20) (BitVec.ofNat 32 (2 ^ 30 + g.toNat * 2 ^ 16)) ∧
      Sys2Proof.Machine.exec (.txnCommit src pg) s = w (pg.toNat * 4096 + 0x20) 0x80000000#32 ∧
      Sys2Proof.Machine.exec (.txnRollback src pg) s = w (pg.toNat * 4096 + 0x20) 0xC0000000#32 ∧
      Sys2Proof.Machine.exec (.txgOpen src g) s = w 0xB0 (BitVec.ofNat 32 (2 ^ 30 + g.toNat)) ∧
      Sys2Proof.Machine.exec (.txgCommit src g) s = w 0xB0 (BitVec.ofNat 32 (2 ^ 31 + g.toNat)) ∧
      Sys2Proof.Machine.exec (.txgAbort src g) s = w 0xB0 (BitVec.ofNat 32 (3 * 2 ^ 30 + g.toNat))) ∧
    (Sys2Proof.Machine.exec (.swrstGo src) s = w 0xC0 1#32 ∧ Sys2Proof.Machine.exec (.partitionChange src v) s = w 0xD0 v ∧
      Sys2Proof.Machine.exec (.errSelWrite src v) s = w 0x100 v ∧
      Sys2Proof.Machine.exec (.bootRetry src) s = w (rscR 0x84) 0x80000000#32 ∧
      Sys2Proof.Machine.exec (.slotSwap src) s = w (flsR 0x88) 0x80000000#32 ∧
      Sys2Proof.Machine.exec (.moduleWWrite src v) s = w (wghR 0x80) v ∧
      Sys2Proof.Machine.exec (.loadBegin src) s = w (flsR 0x90) 0x10000000#32 ∧
      (∀ len : BitVec 17, Sys2Proof.Machine.exec (.loadChunk src len) s = w (flsR 0x90) (BitVec.ofNat 32 (2 ^ 29 + len.toNat))) ∧
      Sys2Proof.Machine.exec (.loadEnd src) s = w (flsR 0x90) 0x30000000#32 ∧
      Sys2Proof.Machine.exec (.loadAbort src) s = w (flsR 0x90) 0x40000000#32) ∧
    (∀ (p : Port) (rid : Rid), src = .port p rid → Sys2Proof.Machine.exec (.ifverReqWrite p rid v) s = w 0x90 v) ∧
    (∀ st : Stall, Sys2Proof.Machine.exec (.reconfGo src st false) s = w (stlR st.val 0x84) 0x80000000#32 ∧
      Sys2Proof.Machine.exec (.reconfGo src st true) s = w (stlR st.val 0x84) 0xC0000000#32 ∧
      (∀ port : Fin 8, Sys2Proof.Machine.exec (.ownerSet src st port) s = w (stlR st.val 0x80) (BitVec.ofNat 32 (2 ^ 31 + port.val))) ∧
      (∀ k : Fin 64, Sys2Proof.Machine.exec (.contextOpen src st k v) s = w (stlR st.val (0x400 + 8 * k.val)) (v ||| 0x80000000#32) ∧
        Sys2Proof.Machine.exec (.contextClose src st k) s =
          w (stlR st.val (0x400 + 8 * k.val)) (s.reg (stlR st.val (0x400 + 8 * k.val)) &&& 0x7FFFFFFF#32)) ∧
      Sys2Proof.Machine.exec (.integResume src st) s = w (stlR st.val 0x280) 0x80000000#32 ∧
      Sys2Proof.Machine.exec (.newkey src st) s = w (secR (0x8C + 16 * st.val)) 0x80000000#32 ∧
      Sys2Proof.Machine.exec (.importKey src st) s = w (secR (0x8C + 16 * st.val)) 0x40000000#32) ∧
    (∀ (type : Fin 8) (idx : Fin 4) (k : Fin 16),
      Sys2Proof.Machine.exec (.arbCommit src type) s = w (secR 0x120) (BitVec.ofNat 32 (2 ^ 31 + type.val)) ∧
      Sys2Proof.Machine.exec (.revoke src idx) s = w (secR 0x124) (BitVec.ofNat 32 (2 ^ 31 + idx.val * 2 ^ 8)) ∧
      Sys2Proof.Machine.exec (.kimportWrite src k v) s = w (secR (0xC0 + 4 * k.val)) v) ∧
    (∀ pg : PageNo, Sys2Proof.Machine.exec (.brstWrite src pg) s =
      w (pg.toNat * 4096 + 0x10) (s.reg (pg.toNat * 4096 + 0x10) &&& 1#32 ||| 2#32))

/-- R32, R5, R48: REG_WRITE. A 4 B write of BLK_IEN that reaches its page stores the bits that page defines; an 8 B write
is two 4 B writes, the lower address first; a write of any other size or alignment changes nothing but the port's
error ring, where it is recorded with its address and requester. -/
def Obligations.RegisterWriteWidths : Prop :=
  ∀ (s : State) (src : Src) (addr : BarOff) (v : W64),
    (∀ pg, pageNo (addr.toNat / 4096) = some pg → addr.toNat % 4096 = 0x1C → takes s src addr.toNat (v.truncate 32) = true →
      Sys2Proof.Machine.exec (.regWrite src addr 4 v) s =
        .next (s.setReg addr.toNat ((s.reg addr.toNat &&& ~~~(BitVec.ofNat 32 pg.kind.errMask)) |||
          (v.truncate 32 &&& BitVec.ofNat 32 pg.kind.errMask))).settleIdle) ∧
    (addr.toNat % 8 = 0 → ∃ t, Sys2Proof.Machine.exec (.regWrite src addr 4 (v &&& 0xFFFFFFFF#64)) s = .next t ∧
      Sys2Proof.Machine.exec (.regWrite src addr 8 v) s = Sys2Proof.Machine.exec (.regWrite src (addr + 4) 4 (v >>> 32)) t) ∧
    (∀ size p rid, src = .port p rid → s.portMode p.val = .normal → ¬ (size = 4 ∧ addr.toNat % 4 = 0) →
      ¬ (size = 8 ∧ addr.toNat % 8 = 0) →
      Sys2Proof.Machine.exec (.regWrite src addr size v) s = .next (s.logErr (.prt p.val) 0x0100 0 addr.toNat rid.toNat))

/-- R46, R49, R25, R361: a write that a source may not make is dropped and recorded as ACCESS in the writing port's page,
or as REG_DENY of MGT; a write with a reserved encoding is dropped whole and sets RESVAL, but for TWR.MEMMAP, where
the tower's ring records it with code 0x2100; a port that refuses requests records 0x2000 and reports it. Clauses the
spec leaves open rest on the model's choices of assumption logs 103 and 105. -/
def Obligations.RefusedWrites : Prop :=
  ∀ (s : State) (src : Src) (addr : BarOff) (v : W64) (pg : Pg) (r : RegDef),
    addr.toNat % 4 = 0 → pageNo (addr.toNat / 4096) = some pg → pg.kind.regAt (addr.toNat % 4096) = some r → s.released pg = true →
    ((s.receive src addr.toNat).1 = true →
      (s.mayWrite src pg (addr.toNat % 4096) (v.truncate 32) = false →
        (∀ p rid, src = .port p rid → Sys2Proof.Machine.exec (.regWrite src addr 4 v) s =
          .next (s.flagErr (.prt p.val) 3 0 0 none addr.toNat rid.toNat).settleIdle) ∧
        (∀ eid a sec, src = .mgmt eid a sec → Sys2Proof.Machine.exec (.regWrite src addr 4 v) s =
          .next ((s.flagErr .mgt 16 0 0 none addr.toNat (eid.toNat * 256 + a.toNat)).bump (mgtR 0x124) 1).settleIdle)) ∧
      (s.mayWrite src pg (addr.toNat % 4096) (v.truncate 32) = true → s.reservedWrite pg (addr.toNat % 4096) r (v.truncate 32) = true →
        (∀ t, pg = .twr t → addr.toNat % 4096 = 0x80 →
          Sys2Proof.Machine.exec (.regWrite src addr 4 v) s = .next (s.logErr (.twr t) 0x2100 0 0 0).settleIdle) ∧
        ((∀ t, pg ≠ .twr t) → Sys2Proof.Machine.exec (.regWrite src addr 4 v) s = .next (s.flagErr pg 4 0 0 none 0 0).settleIdle))) ∧
    (∀ p rid, src = .port p rid → s.portMode p.val = .refuses →
      Sys2Proof.Machine.exec (.regWrite src addr 4 v) s = .next (s.portEvent p.val 0x2000 addr.toNat rid.toNat))

/-- R63, R32: TIME_LO_READ returns bits 31:0 of device time and latches bits 63:32 in TIME_HI of the same source; a 4 B
read of another register answers the word that the register shows; an 8 B read is two 4 B reads, the lower address
first; a read of any other size or alignment from a port receives a Completer Abort and is recorded; a port that
refuses requests answers Unsupported Request. Clauses the spec leaves open rest on the model's choices of assumption
log 3. -/
def Obligations.TimeRead : Prop :=
  ∀ (s : State) (src : Src) (addr : BarOff),
    let hi := BitVec.ofNat 32 (s.time / 2 ^ 32)
    let n := srcNum src
    let a := addr.toNat
    ((s.receive src a).1 = true →
      (a = 0xA0 →
        (∀ p rid, src = .port p rid → Sys2Proof.Machine.exec (.timeLoRead ⟨src, addr, 4⟩) s =
          .next ((s.setCopy p.val 2 hi).emit (.cpl p.val 0 (leBytes 4 (s.time % 2 ^ 32)) false))) ∧
        (∀ eid ad sec, src = .mgmt eid ad sec → Sys2Proof.Machine.exec (.timeLoRead ⟨src, addr, 4⟩) s =
          .next ((s.setCopy 4 2 hi).emit (.regs [BitVec.ofNat 32 s.time])))) ∧
      (a % 4 = 0 → a ≠ 0xA0 →
        (∀ p rid, src = .port p rid → Sys2Proof.Machine.exec (.timeLoRead ⟨src, addr, 4⟩) s =
          .next (s.emit (.cpl p.val 0 (leBytes 4 (s.read p.val a).toNat) false))) ∧
        (∀ eid ad sec, src = .mgmt eid ad sec → Sys2Proof.Machine.exec (.timeLoRead ⟨src, addr, 4⟩) s =
          .next (s.emit (.regs [s.read 4 a])))) ∧
      (a % 8 = 0 → ∀ p rid, src = .port p rid → Sys2Proof.Machine.exec (.timeLoRead ⟨src, addr, 8⟩) s =
        (let v : State := if a = 0xA0 then s.setCopy p.val 2 hi else s
         .next (v.emit (.cpl p.val 0 (leBytes 4 (s.read p.val a).toNat ++ leBytes 4 (v.read p.val (a + 4)).toNat) false)))) ∧
      (∀ size p rid, src = .port p rid → ¬ (size = 4 ∧ a % 4 = 0) → ¬ (size = 8 ∧ a % 8 = 0) →
        Sys2Proof.Machine.exec (.timeLoRead ⟨src, addr, size⟩) s =
          .next ((s.logErr (.prt p.val) 0x0100 0 a rid.toNat).emit (.cpl p.val 4 [] false)))) ∧
    (∀ size p rid, src = .port p rid → s.portMode p.val = .refuses → Sys2Proof.Machine.exec (.timeLoRead ⟨src, addr, size⟩) s =
      .next ((s.portEvent p.val 0x2000 a rid.toNat).emit (.cpl p.val 1 [] false))) ∧
    (s.setCopy n 2 hi).read n 0xA4 = hi

/-- R34: a write of WIN_BASE that takes effect is held; a write of WIN_CTL stores EN and WRITE together with the held
base, where one is held. -/
def Obligations.WindowWrites : Prop :=
  ∀ (s : State) (src : Src) (p : Port) (w : Fin 8) (v : Word),
    let base := prtR p.val (0x84 + 8 * w.val)
    let ctl := prtR p.val (0x80 + 8 * w.val)
    (takes s src base v = true → Sys2Proof.Machine.exec (.winBaseWrite src p w v) s =
      .next (s.setHeld base (some (v &&& 0x3FFFFF#32))).settleIdle) ∧
    (takes s src ctl v = true → Sys2Proof.Machine.exec (.winCtlWrite src p w v) s =
      .next ((match s.held base with
        | some h => (s.setReg base h).setHeld base none
        | none => s).setReg ctl ((s.reg ctl &&& ~~~3#32) ||| (v &&& 3#32))).settleIdle)

/-- R36: a write of ACW_BASE or ACW_LIMIT that takes effect is held; a write of ACW_CTL that is accepted applies the held
values and stores EN, READ and WRITE; one that is refused leaves the entry, discards the held values and records
ACCESS in the writing port's page; over the management bus every write is accepted. Clauses the spec leaves open rest
on the model's choices of assumption log 118. -/
def Obligations.AccessWindowWrites : Prop :=
  ∀ (s : State) (src : Src) (p : Port) (a : Fin 16) (v : Word),
    let ctl := prtR p.val (0x100 + 16 * a.val)
    let base := prtR p.val (0x104 + 16 * a.val)
    let limit := prtR p.val (0x108 + 16 * a.val)
    let w := (s.reg ctl &&& ~~~7#32) ||| (v &&& 7#32)
    let apply (s : State) (r : Nat) : State := match s.held r with
      | some h => (s.setReg r h).setHeld r none
      | none => s
    let drop (s : State) (r : Nat) : State := match s.held r with
      | some _ => s.setHeld r none
      | none => s
    (takes s src base v = true → Sys2Proof.Machine.exec (.acwHeldWrite src p a false v) s = .next (s.setHeld base (some v)).settleIdle) ∧
    (takes s src limit v = true → Sys2Proof.Machine.exec (.acwHeldWrite src p a true v) s = .next (s.setHeld limit (some v)).settleIdle) ∧
    (takes s src ctl v = true →
      (s.acwAccepts src p.val a.val w = true →
        Sys2Proof.Machine.exec (.acwCtlWrite src p a v) s = .next ((apply (apply s base) limit).setReg ctl w).settleIdle) ∧
      (∀ q rid, src = .port q rid → s.acwAccepts src p.val a.val w = false →
        Sys2Proof.Machine.exec (.acwCtlWrite src p a v) s =
          .next ((drop (drop s base) limit).flagErr (.prt q.val) 3 0 0 none ctl rid.toNat).settleIdle)) ∧
    (∀ eid ad sec, src = .mgmt eid ad sec → s.acwAccepts src p.val a.val w = true)

/-- R25, R5, R468, R156: MEMMAP_WRITE and KV_ISOLATE_WRITE. While the tower is idle MEMMAP takes the value and a change
asks for a new frame table, and KV_CFG takes the value, but a change of ISOLATE with frames allocated is ignored and
recorded; while it runs a change of an S field is ignored and sets WHILE_RUN, and the L fields of KV_CFG are held. -/
def Obligations.TowerMapWrites : Prop :=
  ∀ (s : State) (src : Src) (t : Tower) (v : Word),
    let map := twrR t.val 0x80
    let kv := twrR t.val 0xA0
    let m := (s.reg map &&& ~~~0xFF07#32) ||| (v &&& 0xFF07#32)
    let k := (s.reg kv &&& ~~~0x07FF0003#32) ||| (v &&& 0x07FF0003#32)
    (takes s src map v = true →
      (s.runs (.twr t.val) = false → Sys2Proof.Machine.exec (.memmapWrite src t v) s =
        .next ((if s.reg map = m then s else s.modTower t.val (fun x => { x with mapDirty := true })).setReg map m).settleIdle) ∧
      (s.runs (.twr t.val) = true → Sys2Proof.Machine.exec (.memmapWrite src t v) s =
        .next (if s.reg map = m then s else s.flagErr (.twr t.val) 1 0 0 none 0 0).settleIdle)) ∧
    (takes s src kv v = true →
      (s.runs (.twr t.val) = false → (s.reg kv).getLsbD 0 = v.getLsbD 0 ∨ s.anyAlloc t.val = false →
        Sys2Proof.Machine.exec (.kvIsolateWrite src t v) s = .next (s.setReg kv k).settleIdle) ∧
      (s.runs (.twr t.val) = false → (s.reg kv).getLsbD 0 ≠ v.getLsbD 0 → s.anyAlloc t.val = true →
        Sys2Proof.Machine.exec (.kvIsolateWrite src t v) s =
          .next ((s.logErr (.twr t.val) 0x2200 0 0 0).setReg kv ((s.reg kv &&& ~~~0x07FF0002#32) ||| (v &&& 0x07FF0002#32))).settleIdle) ∧
      (s.runs (.twr t.val) = true →
        let hold (s : State) : State := { s with rf := { s.rf with latched := s.rf.latched ++ [⟨kv, 0x07FF0002, v.toNat⟩] } }
        Sys2Proof.Machine.exec (.kvIsolateWrite src t v) s =
          .next (hold (if (s.reg kv).getLsbD 0 = v.getLsbD 0 then s else s.flagErr (.twr t.val) 1 0 0 none 0 0)).settleIdle))

/-- R52 to R55, R57: the transaction commands of a page. BEGIN opens the transaction and records the writer, in an open
group of the writer adds the page to it, and else sets TX_CONFLICT; COMMIT by the opener arms it and, where the page
always runs or is idle, applies the staged writes; ROLLBACK by the opener or the management bus discards them. Clauses
the spec leaves open rest on the model's choices of assumption logs 104 and 119. -/
def Obligations.PageTransactions : Prop :=
  ∀ (s : State) (src : Src) (page : PageNo) (pg : Pg) (g : Byte),
    let n := page.toNat
    let a := n * 4096 + 0x20
    let x := s.txn n
    let y := s.grp g.toNat
    let conflict : State := s.flagErr pg 5 0 0 none 0 (s.reg (pg.base + 0x24)).toNat
    pageNo n = some pg →
    (reaches s src a (BitVec.ofNat 32 (2 ^ 30 + g.toNat * 2 ^ 16)) = true →
      (x.open_ = false → g = 0 →
        Sys2Proof.Machine.exec (.txnBegin src page g) s = .next (s.setTxn n ⟨1, some src, 0, []⟩).settleIdle) ∧
      (x.open_ = false → g ≠ 0 → y.st = 1 → y.owner = srcNum src → y.members.length < 64 →
        Sys2Proof.Machine.exec (.txnBegin src page g) s =
          .next ((s.setTxn n ⟨1, some src, g.toNat, []⟩).setGrp g.toNat { y with members := y.members ++ [n] }).settleIdle) ∧
      (x.open_ = true ∨ (g ≠ 0 ∧ (y.st ≠ 1 ∨ y.owner ≠ srcNum src ∨ 64 ≤ y.members.length)) →
        Sys2Proof.Machine.exec (.txnBegin src page g) s = .next conflict.settleIdle)) ∧
    (reaches s src a 0x80000000#32 = true →
      (x.st = 1 → x.by src = true → x.group = 0 → (pg.always = true ∨ s.runs pg = false ∨ ∃ p, pg = .prt p) →
        Sys2Proof.Machine.exec (.txnCommit src page) s = .next ((s.setTxn n { x with st := 2 }).applyTxn n).settleIdle) ∧
      (x.st = 1 → x.by src = true → x.group = 0 → pg.always = false → s.runs pg = true → (∀ p, pg ≠ .prt p) →
        Sys2Proof.Machine.exec (.txnCommit src page) s =
          .next ({ (s.setTxn n { x with st := 2 }) with
            rf := { (s.setTxn n { x with st := 2 }).rf with commits := s.rf.commits ++ [n] } } : State).settleIdle) ∧
      (x.st ≠ 1 ∨ x.by src = false ∨ x.group ≠ 0 →
        Sys2Proof.Machine.exec (.txnCommit src page) s = .next conflict.settleIdle)) ∧
    (reaches s src a 0xC0000000#32 = true →
      (x.open_ = true → (x.by src = true ∨ srcNum src = 4) →
        Sys2Proof.Machine.exec (.txnRollback src page) s = .next (s.rollTxn n).settleIdle) ∧
      (x.open_ = false ∨ (x.by src = false ∧ srcNum src ≠ 4) →
        Sys2Proof.Machine.exec (.txnRollback src page) s = .next conflict.settleIdle))

/-- R57 to R59: the commands of a transaction group. OPEN takes a FREE group, or an ended one of the same source; COMMIT
by the owner arms every member; ABORT rolls every member back; what is not accepted sets TX_CONFLICT of DEV; an armed
group fails 10 ms after its first hold, and an ended group is FREE 1 s later. Clauses the spec leaves open rest on the
model's choices of assumption log 105. -/
def Obligations.TransactionGroups : Prop :=
  ∀ (s : State) (src : Src) (g : Byte),
    let x := s.grp g.toNat
    let mine := x.owner = srcNum src
    let ended := x.st = 3 ∨ x.st = 4 ∨ x.st = 5
    let conflict : State := s.flagErr .dev 5 0 0 none 0 (s.reg 0x24).toNat
    (reaches s src 0xB0 (BitVec.ofNat 32 (2 ^ 30 + g.toNat)) = true →
      (x.st = 0 ∨ (ended ∧ mine) →
        Sys2Proof.Machine.exec (.txgOpen src g) s = .next (s.setGrp g.toNat ⟨1, srcNum src, [], none, 0⟩).settleIdle) ∧
      (¬ (x.st = 0 ∨ (ended ∧ mine)) → Sys2Proof.Machine.exec (.txgOpen src g) s = .next conflict.settleIdle)) ∧
    (reaches s src 0xB0 (BitVec.ofNat 32 (2 ^ 31 + g.toNat)) = true →
      (x.st = 1 → mine → (∀ n ∈ x.members, s.waitsReconf n = false) →
        Sys2Proof.Machine.exec (.txgCommit src g) s =
          .next ((x.members.foldl (fun (s : State) n => s.setTxn n { s.txn n with st := 2 }) s).setGrp g.toNat { x with st := 2 }).settleIdle) ∧
      (x.st = 1 → mine → (∃ n ∈ x.members, s.waitsReconf n = true) →
        Sys2Proof.Machine.exec (.txgCommit src g) s = .next (s.endGroup g.toNat 5).settleIdle) ∧
      (x.st ≠ 1 ∨ ¬ mine → Sys2Proof.Machine.exec (.txgCommit src g) s = .next conflict.settleIdle)) ∧
    (reaches s src 0xB0 (BitVec.ofNat 32 (3 * 2 ^ 30 + g.toNat)) = true →
      ((x.st = 1 ∨ x.st = 2) → mine → Sys2Proof.Machine.exec (.txgAbort src g) s = .next (s.endGroup g.toNat 4).settleIdle) ∧
      (¬ ((x.st = 1 ∨ x.st = 2) ∧ mine) → Sys2Proof.Machine.exec (.txgAbort src g) s = .next conflict.settleIdle)) ∧
    (∀ t, x.since = some t →
      (x.st = 2 → t + 10000000 ≤ s.time → Sys2Proof.Machine.exec (.txgTimeout g) s = .next (s.endGroup g.toNat 5).settleIdle) ∧
      (x.st ≠ 2 ∨ s.time < t + 10000000 → Sys2Proof.Machine.exec (.txgTimeout g) s = .next s)) ∧
    (x.since = none → Sys2Proof.Machine.exec (.txgTimeout g) s = .next s) ∧
    (ended → x.endAt + 1000000000 ≤ s.time → Sys2Proof.Machine.exec (.txgRelease g) s = .next (s.setGrp g.toNat Grp.reset)) ∧
    (¬ ended ∨ s.time < x.endAt + 1000000000 → Sys2Proof.Machine.exec (.txgRelease g) s = .next s)

/-- R60, R61: IFVER_REQ of a port without open contexts is answered with the device's own version: accepted for GEN 1 with
MAJOR 1, refused for any other; a port with an accepted version and open contexts is denied. Clauses the spec leaves
open rest on the model's choices of assumption log 93. -/
def Obligations.VersionNegotiation : Prop :=
  ∀ (s : State) (p : Port) (rid : Rid) (v : Word), takes s (.port p rid) 0x90 v = true →
    let put (ack : Word) : State := (s.setCopy p.val 0 (v &&& 0xF0FFFF00#32)).setCopy p.val 1 ack
    ((s.accepted p.val = false ∨ s.portHasCtx p.val = false) →
      (v.extractLsb' 28 4 = 1#4 → v.extractLsb' 16 8 = 1#8 →
        Sys2Proof.Machine.exec (.ifverReqWrite p rid v) s = .next (put 0x10010001#32).settleIdle) ∧
      (v.extractLsb' 28 4 ≠ 1#4 ∨ v.extractLsb' 16 8 ≠ 1#8 →
        Sys2Proof.Machine.exec (.ifverReqWrite p rid v) s = .next (put 0x10010002#32).settleIdle)) ∧
    (s.accepted p.val = true → s.portHasCtx p.val = true →
      Sys2Proof.Machine.exec (.ifverReqWrite p rid v) s = .next (s.flagErr (.prt p.val) 3 0 0 none 0x90 rid.toNat).settleIdle)

/-- R305, R398, R425: the DEV page. SWRST asks for a software reset; STALL_CFG asks for a partition change, or does
nothing where NSTALL is as it is or a change is under way; ERR_SEL latches the newest record number of the page's ring
and eight words of the selected record for the source. -/
def Obligations.DevWrites : Prop :=
  ∀ (s : State) (src : Src) (v : Word),
    (reaches s src 0xC0 1#32 = true →
      Sys2Proof.Machine.exec (.swrstGo src) s = .next ({ s with rst := { s.rst with swrst := true } } : State).settleIdle) ∧
    (takes s src 0xD0 v = true →
      (s.partn = none → v.toNat % 4 ≠ s.nstall → Sys2Proof.Machine.exec (.partitionChange src v) s =
        .next ({ s.setFld 0xD0 5 4 0 with partn := some (v.toNat % 4, v.getLsbD 2) } : State).settleIdle) ∧
      (s.partn ≠ none ∨ v.toNat % 4 = s.nstall → Sys2Proof.Machine.exec (.partitionChange src v) s = .next s.settleIdle)) ∧
    (takes s src 0x100 v = true →
      let ring := match pageNo (v.toNat / 2 ^ 18) with
        | some pg => mget ErrRing.reset s.rf.rings (pg.base / 4096)
        | none => ErrRing.reset
      let n := srcNum src
      let h := (s.setCopy n 3 (v &&& 0xFFFC003F#32)).setCopy n 4 (BitVec.ofNat 32 ring.prod)
      Sys2Proof.Machine.exec (.errSelWrite src v) s =
        .next ((List.range 8).foldl (fun (s : State) j => s.setCopy n (5 + j) ((ring.at_ (v.toNat % 64)).getD j 0)) h).settleIdle)

/-- R87, R90, R94, R95, R97: the commands of a MEM page. A retrain request is scheduled; REPAIR START begins a repair into
the free spare, or without one records NOSPARE, and elsewhere is ignored; ABORT of the repair under way frees the
spare and sets REPAIR_ABORT; TG_GO stores the run's settings and starts the generator of an idle channel; TG_STOP asks
a run to stop; EN takes the value, but 0 only while the channel is SPARE, RETIRED, FAILED or its tower out of service.
Clauses the spec leaves open rest on the model's choices of assumption logs 35, 127 and 128. -/
def Obligations.ChannelCommands : Prop :=
  ∀ (s : State) (src : Src) (t : Tower) (c : Chan) (v : Word),
    let a := memR t.val c.val
    let l := s.logical t.val c.val
    let state := s.fld (a 0x14) 31 28
    let idle : Prop := state = 3 ∨ state = 4 ∨ state = 5 ∨ (s.tower t.val).oos = true
    let keepTg (v : Word) : State := s.setReg (a 0x100) ((s.reg (a 0x100) &&& ~~~0x3FFC0000#32) ||| (v &&& 0x3FFC0000#32))
    (reaches s src (a 0x94) 0x80000000#32 = true →
      Sys2Proof.Machine.exec (.trainReq src t c) s = .next (s.modChan t.val c.val (fun x => { x with sched := true })).settleIdle) ∧
    (reaches s src (a 0x98) 0x40000000#32 = true →
      (l < 32 → (s.tower t.val).oos = false → s.spareFree t.val = true →
        Sys2Proof.Machine.exec (.repairStart src t c) s =
          .next ((s.setFld (a 0x98) 15 0 1).modTower t.val (fun x => { x with repair := some ⟨l, c.val, 0, [], 0, false, 0⟩ })).settleIdle) ∧
      (l < 32 → (s.tower t.val).oos = false → s.spareFree t.val = false → (∀ r, (s.tower t.val).repair = some r → r.old ≠ c.val) →
        Sys2Proof.Machine.exec (.repairStart src t c) s =
          .next (((s.setFld (a 0x98) 3 0 5).flagErr (.mem t.val c.val) 21 0 0 none 0 c.val).modTower t.val
            (fun x => { x with oosDue := true })).settleIdle) ∧
      ((32 ≤ l ∨ (s.tower t.val).oos = true) → Sys2Proof.Machine.exec (.repairStart src t c) s = .next s.settleIdle)) ∧
    (reaches s src (a 0x98) 0x80000000#32 = true →
      (∀ r, (s.tower t.val).repair = some r → r.old = c.val → Sys2Proof.Machine.exec (.repairAbort src t c) s =
        .next (((s.setFld (a 0x98) 3 0 4).modTower t.val (fun x => { x with repair := none })).flagErr (.mem t.val c.val) 22 0 0 none 0 c.val).settleIdle) ∧
      ((∀ r, (s.tower t.val).repair = some r → r.old ≠ c.val) → Sys2Proof.Machine.exec (.repairAbort src t c) s = .next s.settleIdle)) ∧
    (v.getLsbD 30 = false → takes s src (a 0x100) (v ||| 0x80000000#32) = true →
      (state = 3 ∨ state = 5 ∨ (s.tower t.val).oos = true → (s.reg (a 0x100)).getLsbD 0 = false → Sys2Proof.Machine.exec (.tgGo src t c v) s =
        .next (((((((keepTg v).modChan t.val c.val (fun x => { x with tgStop := false })).setFld (a 0x100) 1 0 1).setReg (a 0x10C) 0).setReg
          (a 0x110) 0).setReg (a 0x114) 0)).settleIdle) ∧
      (¬ (state = 3 ∨ state = 5 ∨ (s.tower t.val).oos = true) → Sys2Proof.Machine.exec (.tgGo src t c v) s =
        .next ((keepTg v).flagErr (.mem t.val c.val) 1 0 0 none 0 0).settleIdle)) ∧
    (takes s src (a 0x100) ((v ||| 0x40000000#32) &&& 0x7FFFFFFF#32) = true → Sys2Proof.Machine.exec (.tgStop src t c v) s =
      .next (if (s.reg (a 0x100)).getLsbD 0 then (keepTg v).modChan t.val c.val (fun x => { x with tgStop := true })
        else keepTg v).settleIdle) ∧
    (∀ en : Bool, takes s src (a 0x10) (if en then 1#32 else 0#32) = true →
      (en = true ∨ idle → Sys2Proof.Machine.exec (.memEnWrite src t c en) s = .next (s.setBit (a 0x10) 0 en).settleIdle) ∧
      (en = false → ¬ idle →
        Sys2Proof.Machine.exec (.memEnWrite src t c en) s = .next (s.flagErr (.mem t.val c.val) 1 0 0 none 0 0).settleIdle))

/-- R253, R289: TAB_LOAD stores TID and asks the stall of the tower for a table load. RING_CTL_WRITE: a rise of EN zeroes
both indices and starts the pair, a fall stops it, a write to a pair that is off stores its fields. -/
def Obligations.TableAndRingWrites : Prop :=
  ∀ (s : State) (src : Src),
    (∀ (t : Tower) (tid : Byte),
      let a := pkrR t.val 0x94
      let h := s.setReg a ((s.reg a &&& ~~~0xFF#32) ||| tid.zeroExtend 32)
      takes s src a (BitVec.ofNat 32 (2 ^ 31 + tid.toNat)) = true → Sys2Proof.Machine.exec (.tabLoad src t tid) s =
        .next (h.modStall (s.stallOf t.val) (fun x => { x with loads := x.loads ++ [t.val * 256 + tid.toNat] })).settleIdle) ∧
    (∀ (p : Port) (n : Pair) (v : Word),
      let k := 4 * p.val + n.val
      let a := prtR p.val (0x200 + 64 * n.val)
      let w := (s.reg a &&& ~~~0xBFFFF800#32) ||| (v &&& 0xBFFFF800#32)
      takes s src a v = true →
        (s.ringEn k = false → v.getLsbD 31 = false → Sys2Proof.Machine.exec (.ringCtlWrite src p n v) s =
          .next (s.setReg a ((s.reg a &&& 0xC0000000#32) ||| (w &&& 0x3FFFFFFF#32))).settleIdle) ∧
        (s.ringEn k = false → v.getLsbD 31 = true → Sys2Proof.Machine.exec (.ringCtlWrite src p n v) s =
          .next (((s.setReg a ((s.reg a &&& 0xC0000000#32) ||| (w &&& 0x3FFFFFFF#32))).ringOn k).setBit a 31 true).settleIdle) ∧
        (s.ringEn k = true → v.getLsbD 31 = false → s.reg a &&& 0x3FF00000#32 = v &&& 0x3FF00000#32 →
          Sys2Proof.Machine.exec (.ringCtlWrite src p n v) s =
            .next ((s.setReg a ((s.reg a &&& 0xFFF00000#32) ||| (w &&& 0x000FFFFF#32))).ringOff k).settleIdle))

/-- R306: CLAIM is accepted where the stall is of the present configuration and its pending owner is none, RELEASE where
it is the port; RESULT says which, and an accepted change waits for the boundary. OWNER_SET over the management bus
queues the owner it names. Clauses the spec leaves open rest on the model's choices of assumption log 106. -/
def Obligations.StallOwnership : Prop :=
  ∀ (s : State) (src : Src) (p : Port) (st : Stall),
    let a := prtR p.val 0x400
    let h := s.setReg a ((s.reg a &&& ~~~3#32) ||| BitVec.ofNat 32 st.val)
    (takes s src a (BitVec.ofNat 32 (2 ^ 31 + st.val)) = true →
      (st.val < s.stalls → s.pendingOwner st.val = 7 → Sys2Proof.Machine.exec (.claim src p st) s =
        .next ((h.setFld a 3 2 1).modStall st.val (fun x => { x with owners := x.owners ++ [p.val] })).settleIdle) ∧
      (s.stalls ≤ st.val ∨ s.pendingOwner st.val ≠ 7 → Sys2Proof.Machine.exec (.claim src p st) s = .next (h.setFld a 3 2 2).settleIdle)) ∧
    (takes s src a (BitVec.ofNat 32 (2 ^ 30 + st.val)) = true →
      (st.val < s.stalls → s.pendingOwner st.val = p.val → Sys2Proof.Machine.exec (.release src p st) s =
        .next ((h.setFld a 3 2 1).modStall st.val (fun x => { x with owners := x.owners ++ [7] })).settleIdle) ∧
      (s.stalls ≤ st.val ∨ s.pendingOwner st.val ≠ p.val → Sys2Proof.Machine.exec (.release src p st) s = .next (h.setFld a 3 2 2).settleIdle)) ∧
    (∀ q : Fin 8, reaches s src (stlR st.val 0x80) (BitVec.ofNat 32 (2 ^ 31 + q.val)) = true →
      (st.val < s.stalls → Sys2Proof.Machine.exec (.ownerSet src st q) s =
        .next (s.modStall st.val (fun x => { x with owners := x.owners ++ [q.val] })).settleIdle) ∧
      (s.stalls ≤ st.val → Sys2Proof.Machine.exec (.ownerSet src st q) s = .next s.settleIdle))

/-- R307, R309, R310, R432: the commands of an STL page. RECONF_GO asks for a reconfiguration; CONTEXT_OPEN of a closed
context zeroes its semaphores, draws its key, stores its fields and sets it OPEN; one that R309 refuses stores its
fields with EN 0, and sets QUOTA where the shares would exceed 256; CONTEXT_CLOSE puts an open context in DRAIN;
RESUME during an integrity stop begins the check. Clauses the spec leaves open rest on the model's choices of
assumption log 14. -/
def Obligations.StallCommands : Prop :=
  ∀ (s : State) (src : Src) (st : Stall) (k : Fin 64) (v : Word),
    let a := stlR st.val (0x400 + 8 * k.val)
    let stat := stlR st.val (0x404 + 8 * k.val)
    let w := (v ||| 0x80000000#32) &&& 0xE0F0FFFF#32
    let z := s.zeroSem st.val (fun slot => slot == k.val)
    (∀ force, reaches s src (stlR st.val 0x84) (BitVec.ofNat 32 (2 ^ 31 + (if force then 2 ^ 30 else 0))) = true → st.val < s.stalls →
      Sys2Proof.Machine.exec (.reconfGo src st force) s = .next (s.modStall st.val (fun x => { x with reconf := some force })).settleIdle) ∧
    (takes s src a (v ||| 0x80000000#32) = true → (s.ctxState st.val k.val = 0 ∨ s.ctxState st.val k.val = 3) →
      (s.mayOpen st.val w = false → Sys2Proof.Machine.exec (.contextOpen src st k v) s = .next (s.setReg a (w &&& 0x7FFFFFFF#32)).settleIdle) ∧
      (s.mayOpen st.val w = true → s.shareSum st.val + (v.extractLsb' 8 8).toNat ≤ 256 → Sys2Proof.Machine.exec (.contextOpen src st k v) s =
        .next ((({ z with
          free := s.free + 1
          sec := { s.sec with
            drbg := s.sec.drbg + 1
            ctxKey := mset 0 s.sec.ctxKey (64 * st.val + k.val) (Config.freeKey s.free) } } : State).setReg a w).setFld stat 31 28 1).settleIdle) ∧
      (s.mayOpen st.val w = true → 256 < s.shareSum st.val + (v.extractLsb' 8 8).toNat →
        Sys2Proof.Machine.exec (.contextOpen src st k v) s =
          .next ((s.setReg a (w &&& 0x7FFFFFFF#32)).flagErr (.stl st.val) 31 0 0 none 0 0).settleIdle)) ∧
    (takes s src a (s.reg a &&& 0x7FFFFFFF#32) = true → s.reg a &&& 0x1F0F0000#32 = 0 → s.ctxState st.val k.val = 1 →
      Sys2Proof.Machine.exec (.contextClose src st k) s =
        .next (((s.setBit a 31 false).setFld stat 31 28 2).modStall st.val (fun x => { x with drains := x.drains ++ [(k.val, 0)] })).settleIdle) ∧
    (reaches s src (stlR st.val 0x280) 0x80000000#32 = true →
      Sys2Proof.Machine.exec (.integResume src st) s =
        .next (if s.bit (stlR st.val 0x280) 24 then s.modStall st.val (fun x => { x with checking := true }) else s).settleIdle)

/-- R407, R408: BRST of a page that may be reset marks it resetting and clears what the page holds; of a page that may
not, it sets RST_REFUSED; of a page already resetting it does nothing. BRST_DONE ends the reset: a packer reloads its
tables, a port leaves its isolation, and a stall's reset goes on until STALL_RESET_DONE. Clauses the spec leaves open
rest on the model's choices of assumption log 93. -/
def Obligations.BlockResets : Prop :=
  ∀ (s : State) (src : Src) (page : PageNo) (pg : Pg),
    let n := page.toNat
    let a := n * 4096 + 0x10
    pageNo n = some pg →
    ((∀ t c, pg ≠ .mem t c) → reaches s src a ((s.reg a &&& 1#32) ||| 2#32) = true →
      (smem s.rf.brst n = true → Sys2Proof.Machine.exec (.brstWrite src page) s = .next s.settleIdle) ∧
      (smem s.rf.brst n = false → s.brstAccepted pg = false →
        Sys2Proof.Machine.exec (.brstWrite src page) s = .next (s.flagErr pg 2 0 0 none 0 0).settleIdle) ∧
      (smem s.rf.brst n = false → s.brstAccepted pg = true → Sys2Proof.Machine.exec (.brstWrite src page) s =
        .next (({ s with rf := { s.rf with brst := sadd s.rf.brst n } } : State).brstClear pg).settleIdle)) ∧
    (∀ t c, pg = .mem t c → takes s src a ((s.reg a &&& 1#32) ||| 2#32) = true → smem s.rf.brst n = false →
      s.brstAccepted pg = true →
      let h := s.setBit (memR t c 0x10) 0 ((s.reg a).getLsbD 0)
      Sys2Proof.Machine.exec (.brstWrite src page) s =
        .next (({ h with rf := { h.rf with brst := sadd s.rf.brst n } } : State).brstClear pg).settleIdle) ∧
    (smem s.rf.brst n = false → Sys2Proof.Machine.exec (.brstDone page) s = .next s) ∧
    (smem s.rf.brst n = true →
      let e : State := { s with rf := { s.rf with brst := sdel s.rf.brst n } }
      Sys2Proof.Machine.exec (.brstDone page) s = .next (match pg with
        | .stl _ => s
        | .pkr t => e.reloadTabs t
        | .prt p => ((if (s.port p).isolating then e.isolated p else e).modPort p (fun x => { x with flr := false })).settleIdle
        | _ => e))

/-- R379, R380, R391: the commands of the SEC page. COMMIT raises the counter of TYPE to the SVN of the running image of
that type and never lowers it; REVOKE fuses a vendor key unless every key would be revoked or the running SECFW is
signed under it; NEWKEY holds a generated key for the stall; IMPORT holds the key of KIMPORT and clears KIMPORT;
KIMPORT takes a word. Clauses the spec leaves open rest on the model's choices of assumption logs 14 and 96. -/
def Obligations.SecurityCommands : Prop :=
  ∀ (s : State) (src : Src),
    (∀ type : Fin 8, takes s src (secR 0x120) (BitVec.ofNat 32 (2 ^ 31 + type.val)) = true →
      let h := s.setReg (secR 0x120) ((s.reg (secR 0x120) &&& ~~~7#32) ||| BitVec.ofNat 32 type.val)
      (∀ x, s.running type.val = some x → s.arbCtr type.val < min 64 x.svn → Sys2Proof.Machine.exec (.arbCommit src type) s =
        .next ({ h with fuses := { s.fuses with arb := mset 0 s.fuses.arb type.val (min 64 x.svn) } } : State).settleIdle) ∧
      ((∀ x, s.running type.val = some x → min 64 x.svn ≤ s.arbCtr type.val) →
        Sys2Proof.Machine.exec (.arbCommit src type) s = .next h.settleIdle)) ∧
    (∀ idx : Fin 4, takes s src (secR 0x124) (BitVec.ofNat 32 (2 ^ 31 + idx.val * 2 ^ 8)) = true →
      let h := s.setReg (secR 0x124) ((s.reg (secR 0x124) &&& ~~~0x300#32) ||| BitVec.ofNat 32 (idx.val * 2 ^ 8))
      let r := s.fuses.revoked ||| (1#4 <<< idx.val)
      ((r ≠ 0xF#4 ∧ ∀ x, s.running 1 = some x → x.key ≠ idx.val) → Sys2Proof.Machine.exec (.revoke src idx) s =
        .next ({ h with fuses := { s.fuses with revoked := r } } : State).settleIdle) ∧
      ((r = 0xF#4 ∨ ∃ x, s.running 1 = some x ∧ x.key = idx.val) → Sys2Proof.Machine.exec (.revoke src idx) s =
        .next (h.flagErr .sec 18 0 0 none 0 0).settleIdle)) ∧
    (∀ st : Stall,
      let others := s.sec.heldKey.filter (fun k => k.1 != st.val)
      (reaches s src (secR (0x8C + 16 * st.val)) 0x80000000#32 = true → Sys2Proof.Machine.exec (.newkey src st) s =
        .next (if s.sec.entropyOk then ({ s with
          free := s.free + 1
          sec := { s.sec with
            drbg := s.sec.drbg + 1
            heldKey := others ++ [(st.val, 1, Config.freeKey s.free)] } } : State) else s).settleIdle) ∧
      (reaches s src (secR (0x8C + 16 * st.val)) 0x40000000#32 = true → Sys2Proof.Machine.exec (.importKey src st) s =
        .next ({ s with
          sec := { s.sec with
            kimport := []
            heldKey := others ++ [(st.val, 2, descOf ((List.range 16).map (fun i => mget 0 s.sec.kimport i)))] } } : State).settleIdle)) ∧
    (∀ (k : Fin 16) (v : Word), reaches s src (secR (0xC0 + 4 * k.val)) v = true → Sys2Proof.Machine.exec (.kimportWrite src k v) s =
      .next ({ s with sec := { s.sec with kimport := mset 0 s.sec.kimport k.val v } } : State).settleIdle)

/-- R412, R415, R418, R443: the load commands of FLS, RETRY, SWAP and MODULE_W. A load begins for a source where no other
owns it; a chunk of 1 to 65,536 bytes is asked for by the owner of a load in state 1; ABORT ends the load; RETRY in
recovery resets the device with cause 3; SWAP prefers the other slot where it is VALID; MODULE_W is stored where the
floors fit it. Clauses the spec leaves open rest on the model's choices of assumption log 95. -/
def Obligations.BoardCommands : Prop :=
  ∀ (s : State) (src : Src),
    let owner := s.fld (flsR 0x94) 31 30
    let me := loadOwner src
    let put (v : Nat) : State := s.setReg (flsR 0x90) ((s.reg (flsR 0x90) &&& ~~~0x1FFFF#32) ||| BitVec.ofNat 32 v)
    let now (s : State) : State := s.modRst (fun x => { x with loadAt := s.time })
    (takes s src (flsR 0x90) 0x10000000#32 = true → (owner = 0 ∨ owner = me) → s.loadState ≠ 2 →
      Sys2Proof.Machine.exec (.loadBegin src) s =
        .next ((((now (put 0)).setFld (flsR 0x94) 31 30 me).setFld (flsR 0x94) 3 0 1).modRst (fun x => { x with loadData := [] })).settleIdle) ∧
    (∀ len : BitVec 17, takes s src (flsR 0x90) (BitVec.ofNat 32 (2 ^ 29 + len.toNat)) = true → owner = me → s.loadState = 1 →
      1 ≤ len.toNat → len.toNat ≤ 65536 → Sys2Proof.Machine.exec (.loadChunk src len) s =
        .next (((now (put len.toNat)).setFld (flsR 0x94) 3 0 2).modRst (fun x => { x with loadLen := len.toNat })).settleIdle) ∧
    (takes s src (flsR 0x90) 0x30000000#32 = true → owner = me → s.loadState = 1 →
      Sys2Proof.Machine.exec (.loadEnd src) s = .next (now (put 0)).loadFinish.settleIdle) ∧
    (takes s src (flsR 0x90) 0x40000000#32 = true → owner = me →
      Sys2Proof.Machine.exec (.loadAbort src) s = .next ((now (put 0)).endLoad.setFld (flsR 0x94) 3 0 0).settleIdle) ∧
    (owner ≠ 0 → owner ≠ me →
      (takes s src (flsR 0x90) 0x10000000#32 = true → Sys2Proof.Machine.exec (.loadBegin src) s = .next (put 0).settleIdle) ∧
      (takes s src (flsR 0x90) 0x30000000#32 = true → Sys2Proof.Machine.exec (.loadEnd src) s = .next (put 0).settleIdle) ∧
      (takes s src (flsR 0x90) 0x40000000#32 = true → Sys2Proof.Machine.exec (.loadAbort src) s = .next (put 0).settleIdle)) ∧
    (reaches s src (rscR 0x84) 0x80000000#32 = true → s.phase = 2 → Sys2Proof.Machine.exec (.bootRetry src) s =
      .next ((s.setFld (rscR 0x84) 3 0 0).deviceReset 3).settleIdle) ∧
    (reaches s src (flsR 0x88) 0x80000000#32 = true → Sys2Proof.Machine.exec (.slotSwap src) s =
      .next (if s.slotValid (1 - s.rst.prec.pref) then s.putRec (fun r => { r with pref := 1 - s.rst.prec.pref }) else s).settleIdle) ∧
    (∀ v : Word, takes s src (wghR 0x80) v = true →
      (s.floorsFit 4 0 (v.toNat % 2 ^ 16) = true → Sys2Proof.Machine.exec (.moduleWWrite src v) s =
        .next (s.setFld (wghR 0x80) 15 0 (v.toNat % 2 ^ 16)).settleIdle) ∧
      (s.floorsFit 4 0 (v.toNat % 2 ^ 16) = false → Sys2Proof.Machine.exec (.moduleWWrite src v) s =
        .next (s.flagErr .wgh 16 0 0 none 0 0).settleIdle))

/-! ### Hawser and BAR2 -/

/-- R13 to R17: a packet of a pair that does not wait for a resend leaves by the route in use and joins the pair's
unacknowledged packets; one of a pair that waits is kept; with every link up the route between two towers has as many
links as columns and rows to cross. An acknowledgement takes the oldest packets of the pair, and when a resend is all
acknowledged the packets kept leave in order. Clauses the spec leaves open rest on the model's choices of assumption
log 80. -/
def Obligations.HawserPackets : Prop :=
  ∀ (s : State) (src dst : Node) (id replays : Nat),
    let k := pairKey src.val dst.val
    (s.hw.hold.find? (fun h => h.1 == k) = none → ∀ l, s.routeOf src.val dst.val = some l →
      Sys2Proof.Machine.exec (.hawserPacket src dst id replays) s =
        .next { s.emit (.hawser src.val dst.val id l.length) with
          hw := { s.hw with unacked := mset [] s.hw.unacked k (mget [] s.hw.unacked k ++ [id]) } }) ∧
    (∀ h, s.hw.hold.find? (fun h => h.1 == k) = some h → Sys2Proof.Machine.exec (.hawserPacket src dst id replays) s =
      .next { s with hw := { s.hw with hold := s.hw.hold.map (fun h => if h.1 = k then (k, h.2 ++ [id]) else h) } }) ∧
    (s.hw.down = [] → s.hw.rowFirst = [] → src.val < 32 → dst.val < 32 → ∃ l, s.routeOf src.val dst.val = some l ∧
      l.length = max (src.val % 8) (dst.val % 8) - min (src.val % 8) (dst.val % 8) +
        (max (src.val / 8) (dst.val / 8) - min (src.val / 8) (dst.val / 8))) ∧
    (∀ n, let left := (mget [] s.hw.unacked k).drop n
      let s1 : State := { s with hw := { s.hw with unacked := mset [] s.hw.unacked k left } }
      (s.hw.hold.find? (fun h => h.1 == k) = none ∨ left ≠ [] → Sys2Proof.Machine.exec (.hawserAck src dst n) s = .next s1) ∧
      (∀ h, s.hw.hold.find? (fun h => h.1 == k) = some h → left = [] → Sys2Proof.Machine.exec (.hawserAck src dst n) s =
        .next (h.2.foldl (fun s id => s.sendPacket src.val dst.val id)
          { s1 with hw := { s1.hw with hold := s.hw.hold.filter (fun h => h.1 != k) } })))

/-- R17: a link that fails goes down and no route crosses it any more. A pair whose route did not use it keeps its route
and its unacknowledged packets; one whose route did, and that has another route, resends its unacknowledged packets
and sends nothing further until they are acknowledged; the pairs with no route left, and no others, are then dealt
with as lost. An edge without a link, and a link that is down already, change nothing. Clauses the spec leaves open
rest on the model's choices of assumption log 80. -/
def Obligations.HawserLinkDown : Prop :=
  ∀ (s : State) (t : Tower) (d : Dir),
    let e := t.val * 4 + dirNum d
    let uses (l : List Nat) : Bool := l.contains e || (match farEnd e with | some f => l.contains f | none => false)
    (behind e ≠ none → s.linkIsDown e = false → ∃ (u : State) (lost : List (Nat × Nat)),
      Sys2Proof.Machine.exec (.linkDown t d) s =
        .next (lost.foldl (fun v p => v.loseRoute t.val (dirNum d) p.1 p.2) u).settleIdle ∧
      u.linkIsDown e = true ∧ u.mem = s.mem ∧ u.ses = s.ses ∧
      (∀ p ∈ lost, u.routeOf p.1 p.2 = none) ∧
      (∀ a b, a < 34 → b < 34 →
        let k := pairKey a b
        (∀ l, u.routeOf a b = some l → uses l = false) ∧
        (∀ l, s.routeOf a b = some l → uses l = true → u.routeOf a b = none → (a, b) ∈ lost) ∧
        (∀ l, s.routeOf a b = some l → uses l = false → u.routeOf a b = some l ∧ mget [] u.hw.unacked k = mget [] s.hw.unacked k) ∧
        (∀ l, s.routeOf a b = some l → uses l = true → mget [] s.hw.unacked k ≠ [] → (u.routeOf a b).isSome = true →
          mget [] u.hw.unacked k = mget [] s.hw.unacked k ∧ u.hw.hold.any (fun h => h.1 == k) = true))) ∧
    (behind e = none ∨ s.linkIsDown e = true → Sys2Proof.Machine.exec (.linkDown t d) s = .next s)

/-- R33, R361, R388, R411: BAR2_READ. A port that refuses answers Unsupported Request; in the normal mode the first check
of R33 that fails gives the answer and the record; where all pass, the bytes of memory are returned, poisoned where a
unit is. It waits behind a request of its port that waits, and where a channel or a bank takes no request now. Clauses
the spec leaves open rest on the model's choices of assumption logs 5, 47, 117 and 122. -/
def Obligations.Bar2Read : Prop :=
  ∀ (s : State) (p : Port) (rid : Rid) (off : Ap) (len : Nat),
    let n := max len 1
    let w := off.toNat / 2 ^ 35
    let c := s.reg (prtR p.val (0x80 + 8 * w))
    let da := s.fld (prtR p.val (0x84 + 8 * w)) 21 0 * 2 ^ 30 + off.toNat % 2 ^ 35
    let fail (code addr status : Nat) : State := (s.portEvent p.val code addr rid.toNat).emit (.cpl p.val status [] false)
    (s.portMode p.val = .refuses → Sys2Proof.Machine.exec (.bar2Read p rid off len) s = .next (fail 0x2000 off.toNat 1)) ∧
    (s.portMode p.val = .restricted → off.toNat + n ≤ 0x10000 → Sys2Proof.Machine.exec (.bar2Read p rid off len) s =
      .next (s.emit (.cpl p.val 0 ((List.range n).map (fun i => s.rst.loadBuf.getD (off.toNat + i) 0)) false))) ∧
    (s.portMode p.val = .restricted → 0x10000 < off.toNat + n → Sys2Proof.Machine.exec (.bar2Read p rid off len) s =
      .next (fail 0x2000 off.toNat 1)) ∧
    (s.portMode p.val = .normal →
      (c.getLsbD 0 = false → Sys2Proof.Machine.exec (.bar2Read p rid off len) s = .next (fail 0x1100 off.toNat 1)) ∧
      (c.getLsbD 0 = true → ∀ k, s.daCheck p.val da n false = some k →
        Sys2Proof.Machine.exec (.bar2Read p rid off len) s = .next (fail (0x1000 + k * 0x100) da (if k = 3 then 1 else 4))) ∧
      (c.getLsbD 0 = true → s.daCheck p.val da n false = none → s.bar2Key p.val da n false = false →
        Sys2Proof.Machine.exec (.bar2Read p rid off len) s = .next (((s.keyDeny da).emit (.aer p.val)).emit (.cpl p.val 4 [] false))) ∧
      (c.getLsbD 0 = true → s.daCheck p.val da n false = none → s.bar2Key p.val da n false = true →
        let r := State.read0 n { s with hit := false } da
        let waits : State := { s with bar2 := s.bar2 ++ [⟨p.val, rid.toNat, da, n, none⟩] }
        ((∃ x ∈ s.bar2, x.port = p.val) → Sys2Proof.Machine.exec (.bar2Read p rid off len) s = .next waits) ∧
        ((∀ x ∈ s.bar2, x.port ≠ p.val) →
          (r.2.hit = true → Sys2Proof.Machine.exec (.bar2Read p rid off len) s = .next waits) ∧
          (r.2.hit = false → Sys2Proof.Machine.exec (.bar2Read p rid off len) s =
            .next { r.2.emit (.cpl p.val 0 (r.1.map (·.1)) (r.1.any (·.2))) with hit := s.hit }))))

/-- R33, R39, R360, R388: BAR2_WRITE. A write that fails a check is dropped and recorded with the step's code; a poisoned
one poisons every unit it touches; any other writes its bytes through the crypt port. It waits behind a request of its
port that waits, and where a channel or a bank takes no request now. Clauses the spec leaves open rest on the model's
choices of assumption logs 47 and 122. -/
def Obligations.Bar2Write : Prop :=
  ∀ (s : State) (p : Port) (rid : Rid) (off : Ap) (data : List Byte) (ep : Bool),
    let n := max data.length 1
    let w := off.toNat / 2 ^ 35
    let c := s.reg (prtR p.val (0x80 + 8 * w))
    let da := s.fld (prtR p.val (0x84 + 8 * w)) 21 0 * 2 ^ 30 + off.toNat % 2 ^ 35
    (s.portMode p.val = .refuses → Sys2Proof.Machine.exec (.bar2Write p rid off data ep) s =
      .next (s.portEvent p.val 0x2000 off.toNat rid.toNat)) ∧
    (s.portMode p.val = .restricted → off.toNat + n ≤ 0x10000 → Sys2Proof.Machine.exec (.bar2Write p rid off data ep) s =
      .next { s with rst := { s.rst with loadBuf := bufWrite s.rst.loadBuf off.toNat data } }) ∧
    (s.portMode p.val = .normal →
      (c.getLsbD 0 = false → Sys2Proof.Machine.exec (.bar2Write p rid off data ep) s =
        .next (s.portEvent p.val 0x1100 off.toNat rid.toNat)) ∧
      (c.getLsbD 0 = true → c.getLsbD 1 = false → Sys2Proof.Machine.exec (.bar2Write p rid off data ep) s =
        .next (s.portEvent p.val 0x1200 da rid.toNat)) ∧
      (c.getLsbD 0 = true → c.getLsbD 1 = true → ∀ k, s.daCheck p.val da n true = some k →
        Sys2Proof.Machine.exec (.bar2Write p rid off data ep) s = .next (s.portEvent p.val (0x1000 + k * 0x100) da rid.toNat)) ∧
      (c.getLsbD 0 = true → c.getLsbD 1 = true → s.daCheck p.val da n true = none →
        (s.bar2Key p.val da n true = false → Sys2Proof.Machine.exec (.bar2Write p rid off data ep) s =
          .next ((s.keyDeny da).emit (.aer p.val))) ∧
        (s.bar2Key p.val da n true = true →
          let e : State := { s with hit := false }
          let u := if ep then e.poisonUnits p.val da n else e.write0 (.bar2 p.val) da (data.map (fun b => (b, false)))
          let waits : State := { s with bar2 := s.bar2 ++ [⟨p.val, rid.toNat, da, n, some (data, ep)⟩] }
          ((∃ x ∈ s.bar2, x.port = p.val) → Sys2Proof.Machine.exec (.bar2Write p rid off data ep) s = .next waits) ∧
          ((∀ x ∈ s.bar2, x.port ≠ p.val) →
            (u.hit = true → Sys2Proof.Machine.exec (.bar2Write p rid off data ep) s = .next waits) ∧
            (u.hit = false → ep = false → Sys2Proof.Machine.exec (.bar2Write p rid off data ep) s = .next { u with hit := s.hit }) ∧
            (u.hit = false → ep = true → Sys2Proof.Machine.exec (.bar2Write p rid off data ep) s =
              .next { (u.flagErr (.prt p.val) 24 0 1 none da rid.toNat).emit (.aer p.val) with hit := s.hit })))))

/-! ### Channels -/

/-- R66, R68, R71, R96: one cycle of a channel controller. A channel that moves no data only lets the cycle pass, and
counts it where it is an idle slot; the bank that is due first in the order of R71 is refreshed where its row is
closed and the timing permits; in a cycle that the throttle step keeps idle no read is issued. Clauses the spec leaves
open rest on the model's choices of assumption logs 36, 79, 85 and 121. -/
def Obligations.ChannelCycle : Prop :=
  ∀ (s : State) (t : Tower) (c : Chan),
    let x := s.chan t.val c.val
    let v := s.turned t.val c.val
    let y := v.chan t.val c.val
    let idle := decide (x.now % 8 < (s.tower t.val).dstep)
    let n := x.idle + b2n idle
    (s.chanWorks t.val c.val = false → (s.tower t.val).dstep ≤ 7 → n < 1024 →
      Sys2Proof.Machine.exec (.channelCommandIssue t c) s = .next (s.setChan t.val c.val
        { x with now := x.now + 1, idle := n, slots := x.slots.filter (fun k => decide (x.now < k + 64)) })) ∧
    (s.chanWorks t.val c.val = false → (s.tower t.val).dstep ≤ 7 → n = 1024 →
      Sys2Proof.Machine.exec (.channelCommandIssue t c) s = .next ((s.setChan t.val c.val
        { x with now := x.now + 1, idle := 0, slots := x.slots.filter (fun k => decide (x.now < k + 64)) }).bump
          (memR t.val c.val 0xBC) 1)) ∧
    (∀ b bs, s.chanWorks t.val c.val = true →
      y.refOrder.filter (fun b => v.refDue t.val c.val b && !(y.bank b).bench) = b :: bs → (y.bank b).row = none →
      past y.now (y.bank b).pre 14 = true → past y.now (y.bank b).ref 280 = true →
      Sys2Proof.Machine.exec (.channelCommandIssue t c) s =
        .next (((v.modChan t.val c.val (fun x => x.setBank b { x.bank b with ref := x.now + 1, due := false })).modChan t.val c.val
          (fun x => { x with attempts := 0 })).passTo t.val c.val (x.now + 1))) ∧
    (idle = true → ∃ u, Sys2Proof.Machine.exec (.channelCommandIssue t c) s = .next u ∧ (u.chan t.val c.val).flight = x.flight)

/-- R67, R74 to R76, R78, R387: requests to memory. A read of whole units within a line enters the read queue of the
channel that serves it, a narrow read of one aligned unit the narrow queue, after what the buffers hold of its line;
where the queue is full, or one of its kind waits, it waits; a write goes through the crypt port; an atomic add to a
key region is dropped, any other is taken. Clauses the spec leaves open rest on the model's choices of assumption logs
20 and 85. -/
def Obligations.MemoryRequests : Prop :=
  ∀ (s : State) (da : Da) (tag : Nat),
    let a := da.toNat
    let l := s.loc a
    let c := s.phys l.t l.ch
    let after (n : Nat) : Chn := ((s.chan l.t c).flushLine (lineOf a)).atomsDue (fun e => overlaps e.da 32 a n)
    let req (kind : ReqKind) (n : Nat) : Req := ⟨kind, a, n, [], false, (after n).now, tag, (after n).seq, 0, false, none⟩
    let put (x : Chn) : State := s.setChan l.t c { x with seq := x.seq + 1 }
    let waits (kind : ReqKind) (n : Nat) : Prop := ∃ r ∈ (after n).wait, r.kind = kind
    (s.daLive a = true → a % 32 = 0 →
      (∀ units : Fin 9, 0 < units.val → a % 256 + 32 * units.val ≤ 256 →
        let n := 32 * units.val
        (¬ waits .read n → (after n).rq.length < 64 → Sys2Proof.Machine.exec (.memReadRequest da units tag) s =
          .next (put { after n with rq := (after n).rq ++ [req .read n] })) ∧
        (waits .read n ∨ 64 ≤ (after n).rq.length → Sys2Proof.Machine.exec (.memReadRequest da units tag) s =
          .next (put { after n with wait := (after n).wait ++ [req .read n] }))) ∧
      (¬ waits .narrow 32 → (after 32).nq.length < 32 → Sys2Proof.Machine.exec (.narrowRead da tag) s =
        .next (put { after 32 with nq := (after 32).nq ++ [req .narrow 32] })) ∧
      (waits .narrow 32 ∨ 32 ≤ (after 32).nq.length → Sys2Proof.Machine.exec (.narrowRead da tag) s =
        .next (put { after 32 with wait := (after 32).wait ++ [req .narrow 32] })) ∧
      (∀ af addend mask, Sys2Proof.Machine.exec (.atomicAdd da af addend mask) s =
        .next (if (s.keyAt a).isNone then s.atomAdd a af addend mask else s))) ∧
    (∀ (data : List Byte) (poison : Bool), s.daLive a = true → data ≠ [] → a % 256 + data.length ≤ 256 →
      Sys2Proof.Machine.exec (.memWriteRequest da data poison) s = .next (s.write0 .tally a (data.map (fun b => (b, poison)))))

/-- R81, R83: READ_DATA_RETURN of a read of one unit outside the key regions. A clean unit is delivered; a corrected one
is written back where it still stands and counted; a poisoned and an uncorrectable one that no mirror entry covers are
delivered poisoned and counted; with nothing in flight nothing happens. Clauses the spec leaves open rest on the
model's choices of assumption logs 37 and 122. -/
def Obligations.ReadReturns : Prop :=
  ∀ (s : State) (t : Tower) (c : Chan) (errs : Errs),
    let x := s.chan t.val c.val
    (x.flight = [] → Sys2Proof.Machine.exec (.readDataReturn t c errs) s = .next s) ∧
    (x.attempt ≠ 0 → Sys2Proof.Machine.exec (.readDataReturn t c errs) s = .next s) ∧
    (∀ r rest, x.flight = r :: rest → x.attempt = 0 → r.len = 32 →
      let s1 := ({ s with hit := false } : State).modChan t.val c.val (fun x => { x with flight := rest })
      let seen := (r.data.map (·.2)).take 36
      let l := s1.loc r.da
      let k := unitKey t.val c.val l.b l.row l.unit
      let give (v : State) (d : List Byte) (bad : Bool) : Prop :=
        let w := (v.emit (.data r.tag d bad)).integStops
        (w.hit = false → Sys2Proof.Machine.exec (.readDataReturn t c errs) s = .next { w with hit := s.hit }) ∧
        (w.hit = true → Sys2Proof.Machine.exec (.readDataReturn t c errs) s = .next s)
      (s1.keyAt r.da = none → ∀ cw, decodeUnit (applyErrs seen errs) = (.clean, cw) →
        give s1 (cw.drop 4) false) ∧
      (∀ cw, decodeUnit (applyErrs seen errs) = (.corrected, cw) → s1.rawUnit k = seen →
        ((s1.setRawUnit k cw).countCe t.val c.val 1).keyAt r.da = none →
        give ((s1.setRawUnit k cw).countCe t.val c.val 1) (cw.drop 4) false) ∧
      (∀ cw, decodeUnit (applyErrs seen errs) = (.poisoned, cw) →
        let s2 := (s1.bump (memR t.val c.val 0xA8) 1).flagErr (.mem t.val c.val) 18 0 1 none r.da c.val
        s2.copyOf r.da = none → give s2 (cw.drop 4) true) ∧
      (∀ cw, decodeUnit (applyErrs seen errs) = (.uncorrectable, cw) →
        let s2 := ((s1.poisonStored k seen (cw.drop 4)).bump (memR t.val c.val 0xA4) 1).flagErr (.mem t.val c.val) 17 0 1 none r.da c.val
        s2.copyOf r.da = none → give s2 (cw.drop 4) true))

/-- R428, R429: mirror repair. The copy that arrives clean is written whole into the bad unit, in every channel that
serves it; a bad copy, or one whose tower has left service, loses the unit; the read back counts a repair that holds
as repaired, and poisons and counts one that does not; a repair that a write cancelled is dropped. Clauses the spec
leaves open rest on the model's choices of assumption logs 28, 29 and 37. -/
def Obligations.MirrorRepair : Prop :=
  ∀ (s : State) (t : Tower) (errs : Errs) (m : MirRep),
    let ends (cmd : Instr) (v : State) : Prop :=
      (v.hit = false → Sys2Proof.Machine.exec cmd s = .next { v with hit := s.hit }) ∧
      (v.hit = true → Sys2Proof.Machine.exec cmd s = .next s)
    let d := s.dropMir t.val m.bad
    let e : State := { s with hit := false }
    ((s.tower t.val).mir.find? (fun m => m.reading) = some m →
      (m.cancelled = true → Sys2Proof.Machine.exec (.mirrorReadReturn t errs) s = .next d) ∧
      (m.cancelled = false → (s.tower (daTower m.copy)).oos = true →
        Sys2Proof.Machine.exec (.mirrorReadReturn t errs) s = .next (d.noteLost m.stall m.bad).integStops) ∧
      (m.cancelled = false → (s.tower (daTower m.copy)).oos = false →
        let r := e.unitRead m.copy errs
        (r.2.1 = true → ends (.mirrorReadReturn t errs) (((r.2.2.dropMir t.val m.bad).noteLost m.stall m.bad).integStops)) ∧
        (r.2.1 = false → ends (.mirrorReadReturn t errs) (((r.2.2.unitWrite m.bad (r.2.2.recrypt m.copy m.bad r.1) false).modTower t.val
            (fun x => { x with mir := mapFirst (fun y => y == m) (fun y => { y with reading := false }) x.mir })))))) ∧
    ((s.tower t.val).mir.find? (fun m => !m.reading) = some m →
      (m.cancelled = true → Sys2Proof.Machine.exec (.mirrorRepairReadback t errs) s = .next d) ∧
      (m.cancelled = false →
        let c := s.phys (s.loc m.bad).t (s.loc m.bad).ch
        let r := (e.dropMir t.val m.bad).unitRead m.bad errs
        (r.2.1 = false → ends (.mirrorRepairReadback t errs) (((r.2.2.bump (stlR m.stall 0x2A4) 1).flagErr (.stl m.stall) 19 1 0 none m.bad c))) ∧
        (r.2.1 = true → ends (.mirrorRepairReadback t errs) ((((r.2.2.unitWrite m.bad r.1 true).bump (stlR m.stall 0x2A8) 1).flagErr (.stl m.stall) 19 2 1 none m.bad c))))) ∧
    ((s.tower t.val).mir.find? (fun m => m.reading) = none → Sys2Proof.Machine.exec (.mirrorReadReturn t errs) s = .next s) ∧
    ((s.tower t.val).mir.find? (fun m => !m.reading) = none → Sys2Proof.Machine.exec (.mirrorRepairReadback t errs) s = .next s)

/-- R71, R76, R79, R83, R120: timers of a channel. 2 µs after its first write the oldest write-combining entry is written
and counted; the atomic entry idle longest is written back after 1 µs; a refresh falls due after tREFI, or is owed and
counted while a bench command holds the bank; a patrol read comes in a cycle that the rules of R68 leave free, at the
pace of the period, and what it finds bad is repaired. An event before its time changes nothing. Clauses the spec
leaves open rest on the model's choices of assumption logs 36, 85 and 122. -/
def Obligations.ChannelTimers : Prop :=
  ∀ (s : State) (t : Tower) (c : Chan) (b : Bank),
    let ends (cmd : Instr) (v : State) : Prop :=
      (v.hit = false → Sys2Proof.Machine.exec cmd s = .next { v with hit := s.hit }) ∧
      (v.hit = true → Sys2Proof.Machine.exec cmd s = .next s)
    let x := s.chan t.val c.val
    let k := x.bank b.val
    let e : State := { s with hit := false }
    let due : Prop := k.ref + (k.owed + 1) * s.trefi t.val (b.val % 16) ≤ x.now + 1
    (∀ w rest, x.wcb = w :: rest →
      (w.at_ + 2000 ≤ x.now → ends (.wcbTimeoutFlush t c) ((e.settle w.line).bump (memR t.val c.val 0xB8) 1)) ∧
      (x.now < w.at_ + 2000 → Sys2Proof.Machine.exec (.wcbTimeoutFlush t c) s = .next s)) ∧
    (x.wcb = [] → Sys2Proof.Machine.exec (.wcbTimeoutFlush t c) s = .next s) ∧
    (∀ a, a ∈ x.aq → (∀ y ∈ x.aq, a.at_ ≤ y.at_) → (∀ y ∈ x.aq, y.at_ = a.at_ → y = a) →
      (a.at_ + 1000 ≤ x.now → ends (.atomicIdleWriteback t c) (e.serveTo t.val c.val a.req)) ∧
      (x.now < a.at_ + 1000 → Sys2Proof.Machine.exec (.atomicIdleWriteback t c) s = .next s)) ∧
    (x.aq = [] → Sys2Proof.Machine.exec (.atomicIdleWriteback t c) s = .next s) ∧
    (due → k.bench = true → Sys2Proof.Machine.exec (.refreshDue t c b) s =
      .next ((s.modChan t.val c.val (fun x => x.setBank b.val { k with owed := k.owed + 1 })).bump (bsqR t.val 0xA4) 1)) ∧
    (due → k.bench = false → Sys2Proof.Machine.exec (.refreshDue t c b) s =
      .next (s.modChan t.val c.val (fun x => x.setBank b.val { k with due := true }))) ∧
    (¬ due → Sys2Proof.Machine.exec (.refreshDue t c b) s = .next s) ∧
    (∀ (row : Fin 32768) (unit : Fin 64) (errs : Errs),
      let idle := decide (x.now % 8 < (s.tower t.val).dstep)
      let may : Prop := s.chanWorks t.val c.val = true ∧ s.bit (memR t.val c.val 0x80) 9 = true ∧ k.bench = false ∧ idle = false ∧
        x.patrolAt + s.patrolGap t.val c.val ≤ s.time ∧ (s.turned t.val c.val).normalCmd t.val c.val idle = none
      let v := (e.modChan t.val c.val (fun x => { x with patrolAt := s.time })).touch t.val c.val b.val row.val false
      let da := v.physDa t.val c.val b.val row.val unit.val
      let r := v.eccRead t.val c.val b.val row.val unit.val (da.getD 0) errs
      (may → r.2.1 = false ∨ da = none → ends (.patrolScrubRead t c b row unit errs) r.2.2) ∧
      (∀ a, may → r.2.1 = true → da = some a →
        ends (.patrolScrubRead t c b row unit errs) (r.2.2.patrolFix t.val a)) ∧
      (¬ may → Sys2Proof.Machine.exec (.patrolScrubRead t c b row unit errs) s = .next s))

/-- R65, R84 to R89: parity errors and retraining. A command, or a write whose beat fails its check, is discarded and a
read that fails returns to its queue, to be issued again; the failed attempts of a transfer are counted, the fifth
marks the channel DEGRADED and forces a retrain, and the eighth retry within 1 ms schedules one; a forced retrain
starts once no bench command holds a bank and extends the step by 50 µs; the end of a slice issues every refresh due;
an attempt that converges ends the retrain, and one that fails is repeated, up to the third, which fails the channel.
Clauses the spec leaves open rest on the model's choices of assumption logs 87, 90, 124 and 126. -/
def Obligations.ParityAndRetraining : Prop :=
  ∀ (s : State) (t : Tower) (c : Chan) (flips : Errs) (par : BitVec 9),
    let x := s.chan t.val c.val
    let a := memR t.val c.val
    let o := s.retrainOver t.val c.val
    let f := s.flagErr (.mem t.val c.val) 20 0 0 none 0 c.val
    let fs := (s.time :: x.forcedAt).filter (fun r => decide (s.time < r + 10000000000))
    let cyc := s.cycle t.val c.val
    let hit (kind : ParKind) : Host.Outcome State Fault Refusal := Sys2Proof.Machine.exec (.parityError t c ⟨kind, flips, par⟩) s
    (∀ (v : State) (n : Nat) (set : Nat → Chn → Chn),
      let ts := (v.time :: (v.chan t.val c.val).retries).filter (fun r => decide (v.time < r + 1000000))
      let w := (v.modChan t.val c.val (fun y => { set (n + 1) y with retries := ts })).bump (a 0xAC) 1
      (n < 4 → ts.length < 8 → v.attemptFails t.val c.val n set = w) ∧
      (n < 4 → 8 ≤ ts.length → v.attemptFails t.val c.val n set = (w.schedule t.val c.val).settleIdle) ∧
      (4 ≤ n → let st := v.fld (a 0x14) 31 28
        v.attemptFails t.val c.val n set = ((v.modChan t.val c.val (fun y => { set 0 y with
          forced := true, back := if st = 1 then y.back else st })).setFld (a 0x14) 31 28 1).flagErr (.mem t.val c.val) 19 0 0 none 0 c.val)) ∧
    (s.chanWorks t.val c.val = false → ∀ kind, hit kind = .next s) ∧
    (s.chanWorks t.val c.val = true →
      (cyc.1 = none → hit .command = .next (cyc.2.passTo t.val c.val (x.now + 1)) ∧
        hit .writeData = .next (cyc.2.passTo t.val c.val (x.now + 1))) ∧
      (∀ k, cyc.1 = some k →
        let p := k.tries (cyc.2.chan t.val c.val)
        let lost := (cyc.2.passTo t.val c.val (x.now + 1)).attemptFails t.val c.val p.1 p.2
        let done := (cyc.2.issue t.val c.val k).passTo t.val c.val (x.now + 1)
        hit .command = .next lost ∧
        (cyc.2.writeBeat t.val c.val k = none → hit .writeData = .next done) ∧
        (∀ u, cyc.2.writeBeat t.val c.val k = some u →
          (beatFails (done.rawUnit u) flips par = true → hit .writeData = .next lost) ∧
          (beatFails (done.rawUnit u) flips par = false →
            hit .writeData = .next (done.setRawUnit u (applyErrs (done.rawUnit u) flips))))) ∧
      (x.flight = [] → hit .readData = .next s) ∧
      (∀ r rest, x.flight = r :: rest →
        let v := s.modChan t.val c.val (fun y => { y with flight := rest })
        let back := v.modChan t.val c.val (fun y =>
          if r.kind = .narrow then { y with nq := byNo (r :: y.nq) } else { y with rq := byNo (r :: y.rq) })
        let bad := beatFails ((r.data.map (·.2)).take 36) flips par
        (bad = true → hit .readData =
          .next (back.attemptFails t.val c.val r.tries (fun n y => y.modReq r.no (fun r => { r with tries := n })))) ∧
        (bad = false →
          let w := ({ v with hit := false } : State).readReturns t.val c.val r flips
          (w.hit = false → hit .readData = .next { w with hit := s.hit }) ∧ (w.hit = true → hit .readData = .next v)))) ∧
    (x.forced = true → x.attempt = 0 → x.engaged = false → fs.length < 3 →
      Sys2Proof.Machine.exec (.forcedRetrainStart t c) s =
        .next (((s.startRetrain t.val c.val true).extend (s.stallOf t.val) 50).modChan t.val c.val (fun x => { x with forcedAt := fs }))) ∧
    (x.forced = false ∨ x.attempt ≠ 0 ∨ x.engaged = true → Sys2Proof.Machine.exec (.forcedRetrainStart t c) s = .next s) ∧
    (x.attempt ≠ 0 → Sys2Proof.Machine.exec (.retrainSliceEnd t c) s =
      .next ((forN 64 s (fun v b => if v.refDue t.val c.val b then v.refreshBank t.val c.val b else v)).modChan t.val c.val
        (fun y => { y with slices := y.slices + 1 }))) ∧
    (x.attempt ≠ 0 →
      Sys2Proof.Machine.exec (.retrainAttemptEnd t c true) s =
        .next ((o.setFld (a 0x14) 31 28 (if o.logical t.val c.val < 32 then 0 else x.back)).noteTemp t.val c.val).settleIdle ∧
      (x.attempt < 3 → Sys2Proof.Machine.exec (.retrainAttemptEnd t c false) s =
        .next ((f.setChan t.val c.val { x with attempt := x.attempt + 1, slices := 0 }).extend (f.stallOf t.val) 50)) ∧
      (3 ≤ x.attempt → Sys2Proof.Machine.exec (.retrainAttemptEnd t c false) s =
        .next ((f.retrainOver t.val c.val).chanFailed t.val c.val).settleIdle)) ∧
    (x.attempt = 0 → Sys2Proof.Machine.exec (.retrainSliceEnd t c) s = .next s ∧
      ∀ ok, Sys2Proof.Machine.exec (.retrainAttemptEnd t c ok) s = .next s)

/-! ### The bench -/

/-- R102, R104, R113: each micro-operation row acts in every unit of the RUN in progress with the operation of R102, the
other fields being the word's; a reserved encoding is refused and ends the RUN; with no RUN in progress nothing
happens. Clauses the spec leaves open rest on the model's choices of assumption log 40. -/
def Obligations.UnitOperations : Prop :=
  ∀ (s : State) (t : Tower) (u : Word),
    let b := (s.tower t.val).bench
    let as (op : Nat) : Word := fset u 31 27 op
    (b.run = none → Sys2Proof.Machine.exec (.unitAdd t u) s = .next s ∧ Sys2Proof.Machine.exec (.unitOut t u) s = .next s) ∧
    (∀ d, b.run = some d →
      let c : UCtx := ⟨t.val, d, setBanks b.rows, b.iter, 0⟩
      let i := c.isInt
      let ok (op : Nat) : Prop := uValid i (as op) = true
      (uValid i (as 1) = false → Sys2Proof.Machine.exec (.unitMac t u) s =
        .next ((s.bnRefuse t.val d 0).modBench t.val (fun b => { b with run := none })).settleIdle) ∧
      (ok 0 → Sys2Proof.Machine.exec (.unitNop t u) s = .next s) ∧
      (ok 1 → Sys2Proof.Machine.exec (.unitMac t u) s = .next (s.laneOp c (as 1) true (fun a b d => laneFma i a b d))) ∧
      (ok 2 → Sys2Proof.Machine.exec (.unitMul t u) s = .next (s.laneOp c (as 2) false (fun a b _ => laneMul i a b))) ∧
      (ok 3 → Sys2Proof.Machine.exec (.unitFma t u) s = .next (s.laneOp c (as 3) true (fun a b d => laneFma i a b d))) ∧
      (ok 4 → Sys2Proof.Machine.exec (.unitAdd t u) s = .next (s.laneOp c (as 4) false (fun a b _ => laneAdd i a b))) ∧
      (ok 5 → Sys2Proof.Machine.exec (.unitSub t u) s = .next (s.laneOp c (as 5) false (fun a b _ => laneSub i a b))) ∧
      (ok 6 → Sys2Proof.Machine.exec (.unitMax t u) s = .next (s.laneOp c (as 6) false (fun a b _ => laneMax i true a b))) ∧
      (ok 7 → Sys2Proof.Machine.exec (.unitMin t u) s = .next (s.laneOp c (as 7) false (fun a b _ => laneMax i false a b))) ∧
      (ok 8 → Sys2Proof.Machine.exec (.unitCmpgt t u) s = .next (s.cmpOp c (as 8) .gt)) ∧
      (ok 9 → Sys2Proof.Machine.exec (.unitCmpge t u) s = .next (s.cmpOp c (as 9) .ge)) ∧
      (ok 10 → Sys2Proof.Machine.exec (.unitCmpeq t u) s = .next (s.cmpOp c (as 10) .eq)) ∧
      (ok 11 → Sys2Proof.Machine.exec (.unitSel t u) s = .next (s.selOp c (as 11))) ∧
      (ok 12 → Sys2Proof.Machine.exec (.unitExp2 t u) s = .next (s.laneOp c (as 12) false (fun a _ _ => unitExp2 a))) ∧
      (ok 13 → Sys2Proof.Machine.exec (.unitLog2 t u) s = .next (s.laneOp c (as 13) false (fun a _ _ => unitLog2 a))) ∧
      (ok 14 → Sys2Proof.Machine.exec (.unitHsum t u) s = .next (s.foldOp c (as 14) false)) ∧
      (ok 15 → Sys2Proof.Machine.exec (.unitHmax t u) s = .next (s.foldOp c (as 15) true)) ∧
      (ok 16 → Sys2Proof.Machine.exec (.unitRsum t u) s = .next (s.ropeOp c (as 16) false)) ∧
      (ok 17 → Sys2Proof.Machine.exec (.unitRmax t u) s = .next (s.ropeOp c (as 17) true)) ∧
      (ok 18 → Sys2Proof.Machine.exec (.unitMov t u) s = .next (s.laneOp c (as 18) false (fun a _ _ => laneTake i a))) ∧
      (ok 19 → Sys2Proof.Machine.exec (.unitSt t u) s = .next (s.stOp c (as 19))) ∧
      (ok 20 → Sys2Proof.Machine.exec (.unitClr t u) s = .next (s.laneOp c (as 20) false (fun _ _ _ => ⟨0, false, 0⟩))) ∧
      (ok 21 → (s.outOp c (as 21)).2 = none → Sys2Proof.Machine.exec (.unitOut t u) s = .next (s.outOp c (as 21)).1) ∧
      (∀ cause, ok 21 → (s.outOp c (as 21)).2 = some cause →
        let o := (s.outOp c (as 21)).1
        Sys2Proof.Machine.exec (.unitOut t u) s =
          .next (o.failSub (bnKey t.val) cause (o.qGet (bnKey t.val)).idx (dfld d 0 6 0)).settleIdle))

/-- R101, R102, R115, R125: what the lanes of an engaged unit hold after ADD, SUB, MUL, MAX, MIN and MOV on registers
without a mask: register D holds the operation's result of A and B, poisoned where A or B was; the registers other
than D, and the masks, stand. -/
def Obligations.UnitLaneResults : Prop :=
  ∀ (s : State) (t : Tower) (u : Word) (d : Desc),
    let b := (s.tower t.val).bench
    let c : UCtx := ⟨t.val, d, setBanks b.rows, b.iter, 0⟩
    let i := c.isInt
    let as (op : Nat) : Word := fset u 31 27 op
    b.run = some d → (c.units.map (fun p => bkUnit p.1 p.2)).Nodup →
    ∀ (op : Nat) (cmd : Instr) (twoSources : Bool),
      (op, cmd, twoSources) ∈ [(2, Instr.unitMul t u, true), (4, .unitAdd t u, true), (5, .unitSub t u, true),
        (6, .unitMax t u, true), (7, .unitMin t u, true), (18, .unitMov t u, false)] →
      let f (a b : Nat) : FR := match op with
        | 2 => laneMul i a b
        | 4 => laneAdd i a b
        | 5 => laneSub i a b
        | 6 => laneMax i true a b
        | 7 => laneMax i false a b
        | _ => laneTake i a
      uValid i (as op) = true → uAsrc (as op) = 0 → uBsrc (as op) = 0 → uMen (as op) = false →
      ∃ v, Sys2Proof.Machine.exec cmd s = .next v ∧
        ∀ p ∈ c.units, ∀ l, l < 16 →
          let x := s.unitSt t.val (bkUnit p.1 p.2)
          let y := v.unitSt t.val (bkUnit p.1 p.2)
          let A := laneAt (x.reg (uA (as op))) l
          let B := if twoSources then laneAt (x.reg (uB (as op))) l else (0, false)
          laneAt (y.reg (uD (as op))) l = ((f A.1 B.1).v % 2 ^ 32, A.2 || B.2) ∧
          (∀ r, r < 8 → r ≠ uD (as op) → laneAt (y.reg r) l = laneAt (x.reg r) l) ∧ (∀ k, y.mbit k l = x.mbit k l)

/-- R105, R106, R110, R113: SETLOAD and BLOAD. A SETLOAD whose fields, range and list are legal stores the set; a BLOAD
whose fields and range are legal writes its bytes, and the poison of its vectors, into the broadcast buffer; one whose
reserved fields are not 0, or whose range is not its tower's own or of its class's ways, is refused. Clauses the spec
leaves open rest on the model's choices of assumption logs 41 and 122. -/
def Obligations.BenchLoads : Prop :=
  ∀ (s u : State) (t : Tower) (d : Desc), bnBegin s t.val d = some u →
    let da := d64 d 4
    let len := (dw d 6).toNat
    let boff := dfld d 2 10 0
    let runs (cmd : Instr) (v : State) : Prop :=
      (v.hit = false → Sys2Proof.Machine.exec cmd s = .next ({ v with hit := s.hit } : State).settleIdle) ∧
      (v.hit = true → Sys2Proof.Machine.exec cmd s = .next s.settleIdle)
    (dfld d 1 25 24 = 1 →
      let rsv : Prop := dfld d 1 23 23 = 0 ∧ dfld d 1 21 0 = 0 ∧ dzero d 2 3 = true ∧ dzero d 6 15 = true
      let r := u.load ((u.bnActor t.val).who false) da 128
      (rsv → u.bnMem t.val da 128 = true → r.2.1 = .ok → r.1.any (·.2) = false →
        (∀ es, parseSet (wordsOf 32 (r.1.map (·.1))) = some es → es.length ≤ r.2.2.maxBanks t.val →
          runs (.bnSetload t d) (r.2.2.modBench t.val (fun b => { b with sets := mset [] b.sets (dfld d 1 31 26) es }))) ∧
        (parseSet (wordsOf 32 (r.1.map (·.1))) = none → runs (.bnSetload t d) (r.2.2.bnRefuse t.val d 20))) ∧
      (¬ rsv ∨ u.bnMem t.val da 128 = false → runs (.bnSetload t d) (u.bnRefuse t.val d 0))) ∧
    (dfld d 1 25 24 = 2 →
      let rsv : Prop := dfld d 1 31 26 = 0 ∧ dfld d 1 23 23 = 0 ∧ dfld d 1 21 0 = 0 ∧ dfld d 2 31 11 = 0 ∧ dzero d 3 3 = true ∧ dzero d 7 15 = true
      let size : Prop := 0 < len ∧ len % 32 = 0 ∧ boff * 32 + len ≤ 65536
      let r := u.load ((u.bnActor t.val).who false) da len
      (rsv → size → u.bnMem t.val da len = true → r.2.1 = .ok →
        runs (.bnBload t d) (r.2.2.modBench t.val (fun b => { b with
          bcast := forN len b.bcast (fun m i => mset 0 m (boff * 32 + i) (r.1.getD i (0, false)).1),
          bcastP := forN (len / 32) b.bcastP (fun l j =>
            if ((r.1.drop (32 * j)).take 32).any (·.2) then sadd l (boff + j) else sdel l (boff + j)) }))) ∧
      (¬ rsv ∨ ¬ size ∨ u.bnMem t.val da len = false → runs (.bnBload t d) (u.bnRefuse t.val d 0)))

/-- R106, R107, R116, R120 to R122, R129: a RUN whose fields, set and time are legal, within the banks granted and with no
channel of the set in retraining, opens its set where another is open and runs its loop; one that is illegal is
refused; one that may not engage its banks yet closes what is open and waits. The boundary of a RUN counts it and
leaves its rows open only where it chains. Clauses the spec leaves open rest on the model's choices of assumption logs
71, 91 and 122. -/
def Obligations.BenchRuns : Prop :=
  ∀ (s u : State) (t : Tower) (d : Desc),
    (bnBegin s t.val d = some u → dfld d 1 25 24 = 0 →
      let b := (u.tower t.val).bench
      let es := mget [] b.sets (dfld d 1 31 26)
      let n := outSize es d
      let legal : Prop := runBad d = false ∧ es ≠ [] ∧ es.length ≤ u.maxBanks t.val
      let records : Prop := n = 0 ∨ (n ≤ (dw d 6).toNat ∧ u.bnMem t.val (d64 d 4) n = true)
      let runs (v : State) : Prop :=
        (v.hit = false → Sys2Proof.Machine.exec (.bnRun t d) s = .next ({ v with hit := s.hit } : State).settleIdle) ∧
        (v.hit = true → Sys2Proof.Machine.exec (.bnRun t d) s = .next s.settleIdle)
      let waits (v : State) : State :=
        let w := (v.closeSet t.val).modBench t.val (fun b => { b with taken := true })
        w.qSet (bnKey t.val) { w.qGet (bnKey t.val) with go := true }
      (¬ legal → runs (u.bnRefuse t.val d 0)) ∧
      (legal → 1500 < tCmd (u.actWin t.val) es d → runs (u.bnRefuse t.val d 19)) ∧
      (legal → tCmd (u.actWin t.val) es d ≤ 1500 → ¬ records → runs (u.bnRefuse t.val d 0)) ∧
      (legal → tCmd (u.actWin t.val) es d ≤ 1500 → records →
        ((u.tower t.val).effBanks < es.length →
          runs (waits (u.modBench t.val (fun b => { b with wait := some (b.wait.getD u.time) })))) ∧
        (es.length ≤ (u.tower t.val).effBanks → b.wait = none → u.setBlocked t.val es = true → runs (waits u)) ∧
        (es.length ≤ (u.tower t.val).effBanks → b.wait = none → u.setBlocked t.val es = false →
          let o := (if b.rows = es then u else (u.closeSet t.val).openSet t.val (u.actWin t.val) es).modBench t.val
            (fun b => { b with run := some d, rows := es, outN := 0, paused := false })
          let l := o.runLoop t.val d (setBanks es)
          (l.2 = none → runs l.1) ∧
          (∀ cause, l.2 = some cause → runs (l.1.failSub (bnKey t.val) cause (l.1.qGet (bnKey t.val)).idx (dfld d 0 6 0)))))) ∧
    (∀ e, (s.tower t.val).bench.run = some e →
      let es := (s.tower t.val).bench.rows
      let ns := (s.tower t.val).bench.busy + tCmd (s.actWin t.val) es e
      let owed := (setBanks es).any (fun k => decide (4 ≤ ((s.chan t.val (s.bkChan t.val k)).bank (bkB k)).owed))
      let counted := (if ns / 1000 = 0 then s.bump (bsqR t.val 0xA0) 1
        else (s.bump (bsqR t.val 0xA0) 1).bump (bsqR t.val 0xC0) (ns / 1000)).modBench t.val (fun b => { b with busy := ns % 1000 })
      let ended (p : Bool) : State := counted.modBench t.val (fun b => { b with run := none, paused := p })
      (s.chains t.val e = true → Sys2Proof.Machine.exec (.bnRunComplete t) s = .next (ended false).settleIdle) ∧
      (s.chains t.val e = false →
        let closed := (ended owed).closeSet t.val
        let kept := if owed then closed.bump (bsqR t.val 0xA8) 1 else closed
        Sys2Proof.Machine.exec (.bnRunComplete t) s =
          .next (if dbit e 1 23 then kept.bump (bsqR t.val 0xAC) 1 else kept).settleIdle)) ∧
    ((s.tower t.val).bench.run = none → Sys2Proof.Machine.exec (.bnRunComplete t) s = .next s)

/-! ### Queues -/

/-- R265 to R267: what the head of a queue does to a descriptor of its row. One that must wait changes what the head
changes; one that is no legal descriptor of its family, or fails its checks, fails its submission with REFUSED (on a
bench queue it is refused as R113 says); one of another row of the family changes nothing, and so does one on a bench
queue whose RUN goes on or whose program is another submission's. Clauses the spec leaves open rest on the model's
choices of assumption logs 41, 71 and 122. -/
def Obligations.QueueHeads : Prop :=
  ∀ (s : State) (q : QueueId) (d : Desc),
    let ends (cmd : Instr) (v : State) : Prop :=
      (v.hit = false → Sys2Proof.Machine.exec cmd s = .next { v with hit := s.hit }) ∧
      (v.hit = true → Sys2Proof.Machine.exec cmd s = .next s)
    let k := qKey q
    let op := dfld d 1 31 28
    let e : State := { s with hit := false }
    let b := (s.tower (keyTower k)).bench
    let free : Prop := q.k ≠ .bn ∨ (b.run = none ∧ (b.open_ = false ∨ b.slot = (e.actor k).slot))
    let head (ok : Bool) : Head := e.head k 5 (fun _ => ok) d
    let fails (v : State) : State := (if q.k = .bn then v.bnRefuse (keyTower k) d 0 else v.failDesc k 19 1 d).settleIdle
    (op = 2 → Sys2Proof.Machine.exec (.syFence q d) s = .next s) ∧
    (op = 2 → ¬ free → Sys2Proof.Machine.exec (.syWait q d) s = .next s) ∧
    (op = 2 → free →
      (∀ v, head (!syBad 2 d) = .wait v → ends (.syWait q d) v) ∧
      (∀ v, head (!syBad 2 d) = .refuse v ∨ head (!syBad 2 d) = .bad v →
        ends (.syWait q d) (fails v))) ∧
    (op = 1 → free →
      (∀ v, head (!syBad 1 d) = .wait v → ends (.syFence q d) v) ∧
      (∀ v, head (!syBad 1 d) = .refuse v ∨ head (!syBad 1 d) = .bad v →
        ends (.syFence q d) (fails v))) ∧
    (op = 0 ∨ 5 ≤ op → free → ∀ v, head false = .refuse v ∨ head false = .bad v →
      ends (.syWait q d) (fails v))

/-- R274 to R278, R286: the SY rows and ST. FENCE with MEM drains the towers of the stall; WAIT takes COUNT from the
semaphore where it stands and none waits, and else waits; POST adds to the semaphore of a tower of the stall and fails
its submission on overflow; STAMP stores the device time at an aligned address it may write; an ST descriptor of the
Tallyman runs, and a host list's is refused. Clauses the spec leaves open rest on the model's choices of assumption
logs 38, 42, 43, 87 and 122. -/
def Obligations.SyncCommands : Prop :=
  ∀ (s u : State) (q : QueueId) (d : Desc),
    let k := qKey q
    let t := keyTower k
    let op := dfld d 1 31 28
    let i := dfld d 1 21 17
    let n := dfld d 1 15 0
    let da := d64 d 3
    let runs (cmd : Instr) (v : State) : Prop :=
      (v.settleIdle.hit = false → Sys2Proof.Machine.exec cmd s = .next { v.settleIdle with hit := s.hit }) ∧
      (v.settleIdle.hit = true → Sys2Proof.Machine.exec cmd s = .next s)
    let refused (v : State) : State := if q.k = .bn then v.bnRefuse t d 0 else v.failDesc k 19 1 d
    let a := u.actor k
    (rowBegin s k 5 (fun _ => !syBad op d) d = some u →
      (op = 1 → runs (.syFence q d) (if dbit d 1 27 then (u.towersOf a.st).foldl (fun s t => s.drainTower t) u else u)) ∧
      (op = 2 → n ≤ u.sem t a.slot i → u.semWaiters t a.slot i = [] →
        runs (.syWait q d) (u.setSem t a.slot i (u.sem t a.slot i - n))) ∧
      (op = 2 → u.sem t a.slot i < n ∨ u.semWaiters t a.slot i ≠ [] →
        runs (.syWait q d) (u.qSet k { u.qGet k with st := 2, go := true, since := u.nextPlace, at_ := u.time })) ∧
      (op = 3 → dfld d 1 26 22 ∈ u.towersOf a.st →
        let r := u.post (dfld d 1 26 22) a.slot i n
        runs (.syPost q d) (if r.2 then r.1.failDesc k (if q.k = .bn then 0 else 18) 3 d else r.1)) ∧
      (op = 3 → dfld d 1 26 22 ∉ u.towersOf a.st → runs (.syPost q d) (refused u)) ∧
      (op = 4 →
        let own : Bool := if q.k = .bn then inSram da 8 && daTower da == t else ownSram q.core da 8
        let may : Prop := da % 8 = 0 ∧ (u.stallMem a.st da 8 = true ∨ own = true) ∧ u.wayOk a da 8 = true
        let r := u.store (a.who false) a.sub da ((leBytes 8 u.time).map (fun b => (b, false)))
        (may → r.1 = .ok → runs (.syStamp q d) r.2) ∧
        (may → r.1 = .key → runs (.syStamp q d) (r.2.failDesc k 0 1 d)) ∧
        (may → r.1 = .drop → runs (.syStamp q d) (r.2.failDesc k 0 4 d)) ∧
        (¬ may → runs (.syStamp q d) (refused u)))) ∧
    (op = 0 → rowBegin s k 6 (fun v => !(v.actor k).expert) d = some u → runs (.stDescriptor q d) u) ∧
    (op = 0 → q.k ≠ .bn → ∀ v, ({ s with hit := false } : State).head k 6 (fun v => !(v.actor k).expert) d = .bad v →
      runs (.stDescriptor q d) (v.failDesc k 19 1 d))

/-- R267, R270, R277, R279, R285, R312, R313: the events of a queue. A descriptor in execution whose host reads are all
back counts and completes, and the time of a HOSTWR beyond its bound is counted; one that waits fails with WAIT_TMO
once its own timeout has passed since it began to wait; a slice ends when it has passed and another submission waits.
An event before its time changes nothing. Clauses the spec leaves open rest on the model's choices of assumption log
88. -/
def Obligations.QueueEvents : Prop :=
  ∀ (s : State) (q : QueueId) (r : Resource),
    let k := qKey q
    let x := s.qGet k
    (∀ d, x.cur = some d →
      (q.k ≠ .bn → x.executing = true → s.readsOut k = false →
        let host : Bool := dfld d 0 23 20 == 4 && dfld d 1 31 28 == 6
        (host = false ∨ s.hostPort (s.actor k) = none → Sys2Proof.Machine.exec (.descriptorComplete q) s =
          .next ((s.countDone k d).complete k d).settleIdle) ∧
        (∀ p, host = true → s.hostPort (s.actor k) = some p → Sys2Proof.Machine.exec (.descriptorComplete q) s =
          .next (((s.latOver p k d q.core).countDone k d).complete k d).settleIdle)) ∧
      (q.k = .bn → x.executing = true → s.readsOut k = false →
        let b := (s.tower q.core.t.val).bench
        (b.run ≠ none ∨ b.wait ≠ none → Sys2Proof.Machine.exec (.descriptorComplete q) s = .next s) ∧
        (b.run = none → b.wait = none → (∀ i y, (s.actor k).sub = some i → s.subAt i = some y → y.failed = none) →
          Sys2Proof.Machine.exec (.descriptorComplete q) s =
            .next ((if dfld d 0 23 20 == 3 && dbit d 1 22 then s.programEnd q.core.t.val else s).complete k d).settleIdle)) ∧
      (x.st = 2 →
        let failed := (s.failDesc k (if q.k = .bn then 0 else 17) 2 d).settleIdle
        let waited (us : Nat) : Bool := decide (x.at_ + 1000 * us ≤ s.time)
        Sys2Proof.Machine.exec (.waitTimeout q) s = .next (if x.go && waited (dfld d 2 15 0) then failed else s) ∧
        Sys2Proof.Machine.exec (.word0WaitTimeout q) s =
          .next (if !x.go && waited (s.fld (stlR (s.actor k).st 0x108) 15 0) then failed else s)) ∧
      (x.executing = false → Sys2Proof.Machine.exec (.descriptorComplete q) s = .next s)) ∧
    (x.cur = none → Sys2Proof.Machine.exec (.descriptorComplete q) s = .next s ∧
      Sys2Proof.Machine.exec (.waitTimeout q) s = .next s ∧ Sys2Proof.Machine.exec (.word0WaitTimeout q) s = .next s) ∧
    (∀ i y, s.served (resNo r) = some (i, y) →
      let a := s.aisle (resNo r)
      let slice := s.fld (stlR y.stall 0x88) 31 24 * 1000 - mget 0 a.charge y.slot
      (a.since + slice ≤ s.time → s.waitersOf (resNo r) ≠ [] → Sys2Proof.Machine.exec (.sliceExpiry r) s =
        .next ((s.modAisle (resNo r) (fun a => { a with expired := true })).switchRes (resNo r))) ∧
      (s.time < a.since + slice → Sys2Proof.Machine.exec (.sliceExpiry r) s = .next s)) ∧
    (s.served (resNo r) = none ∨ s.waitersOf (resNo r) = [] → Sys2Proof.Machine.exec (.sliceExpiry r) s = .next s)

/-! ### Matrix and vector engines -/

/-- R209, R210, R387, R389: an MX descriptor that begins with legal formats and fields, while no tile of it is in use,
runs; one whose formats or fields are illegal is refused as it reaches the head; one whose tiles are in use is held;
one whose weights a key keeps from it fails with the denial recorded. Clauses the spec leaves open rest on the model's
choices of assumption logs 38, 49, 71 and 122. -/
def Obligations.MatrixCommand : Prop :=
  ∀ (s u : State) (q : CoreId) (d : Desc),
    let k := qKey ⟨q, .mx⟩
    let runs (v : State) : Prop :=
      (v.settleIdle.hit = false → Sys2Proof.Machine.exec (.mxCommand q d) s = .next { v.settleIdle with hit := s.hit }) ∧
      (v.settleIdle.hit = true → Sys2Proof.Machine.exec (.mxCommand q d) s = .next s)
    (∀ v, ({ s with hit := false } : State).head k 1 (fun v => v.mxMay q d) d = .bad v → runs (v.failDesc k 31 1 d)) ∧
    (∀ v, ({ s with hit := false } : State).head k 1 (fun v => v.mxMay q d) d = .refuse v → runs (v.failDesc k 19 1 d)) ∧
    (∀ v : State, (v.mxMay q d = true ↔ ∃ c, v.mxFormats k q d = some c ∧ v.mxOk c = true)) ∧
    (rowBegin s k 1 (fun v => v.mxMay q d) d = some u → ∀ c, u.mxFormats k q d = some c →
      let denied := ((List.range c.nb).map (fun nb => u.keyBad ((u.actor k).who true) false (c.wbase + nb * c.panel) (c.ks * c.bb))).find? (·.isSome)
      (u.tilesBusy k d = true → runs (u.holdHead k)) ∧
      (u.tilesBusy k d = false → denied = none → runs (u.mxRun c).integStops) ∧
      (∀ a, u.tilesBusy k d = false → denied = some (some a) → runs ((u.keyDeny a).failDesc k 0 1 d)))

/-- R221 to R235, R237: a VX descriptor that begins with legal fields, while no tile of it is in use, has the effect of
its operation; one with illegal fields is refused, and one whose tiles are in use is held. Clauses the spec leaves
open rest on the model's choices of assumption logs 12, 50, 51, 52, 53, 54, 73, 74 and 122. -/
def Obligations.VectorOperations : Prop :=
  ∀ (s : State) (q : CoreId) (d : Desc),
    let k := qKey ⟨q, .vx⟩
    let c : VxC := ⟨k, q, d⟩
    let runs (cmd : Instr) (v : State) : Prop :=
      (v.settleIdle.hit = false → Sys2Proof.Machine.exec cmd s = .next { v.settleIdle with hit := s.hit }) ∧
      (v.settleIdle.hit = true → Sys2Proof.Machine.exec cmd s = .next s)
    (∀ v, c.op = 1 → ({ s with hit := false } : State).head k 2 (fun v => v.vxOk c) d = .bad v →
      runs (.vxAdd q d) (v.failDesc k 24 1 d)) ∧
    ∀ u, rowBegin s k 2 (fun v => v.vxOk c) d = some u →
    let i := c.isInt (u.core (k / 8))
    (c.op = 1 → u.tilesBusy k d = true → runs (.vxAdd q d) (u.holdHead k)) ∧
    (u.tilesBusy k d = false →
      (c.op = 0x00 → runs (.vxNop q d) u) ∧
      (c.op = 0x01 → runs (.vxAdd q d) (u.vxElem c true (!i) (fun a b _ => laneAdd i a b))) ∧
      (c.op = 0x02 → runs (.vxSub q d) (u.vxElem c true (!i) (fun a b _ => laneSub i a b))) ∧
      (c.op = 0x03 → runs (.vxMul q d) (u.vxElem c true (!i) (fun a b _ => laneMul i a b))) ∧
      (c.op = 0x04 → runs (.vxFma q d) (u.vxElem c true (!i) (fun a b z => laneFma i a b z))) ∧
      (c.op = 0x05 → runs (.vxMax q d) (u.vxElem c true (!i) (fun a b _ => laneMax i true a b))) ∧
      (c.op = 0x06 → runs (.vxMin q d) (u.vxElem c true (!i) (fun a b _ => laneMax i false a b))) ∧
      (c.op = 0x07 → runs (.vxSel q d) (u.vxSel c)) ∧
      (c.op = 0x08 → runs (.vxCmpgt q d) (u.vxCmp c .gt)) ∧
      (c.op = 0x09 → runs (.vxCmpge q d) (u.vxCmp c .ge)) ∧
      (c.op = 0x0A → runs (.vxCmpeq q d) (u.vxCmp c .eq)) ∧
      (c.op = 0x0B → runs (.vxMand q d) (u.vxMask c true (fun a b => a && b))) ∧
      (c.op = 0x0C → runs (.vxMor q d) (u.vxMask c true (fun a b => a || b))) ∧
      (c.op = 0x0D → runs (.vxMnot q d) (u.vxMask c false (fun a _ => !a))) ∧
      (c.op = 0x0E → runs (.vxExp2 q d) (u.vxElem c false true (fun a _ _ => vxExp2 a))) ∧
      (c.op = 0x0F → runs (.vxLog2 q d) (u.vxElem c false true (fun a _ _ => vxLog2 a))) ∧
      (c.op = 0x10 → runs (.vxRsqrt q d) (u.vxElem c false true (fun a _ _ => vxRsqrt a))) ∧
      (c.op = 0x11 → runs (.vxRcp q d) (u.vxElem c false true (fun a _ _ => vxRcp a))) ∧
      (c.op = 0x12 → runs (.vxCvt q d) ((u.setCore (k / 8) ((u.core (k / 8)).carrySat c)).vxElem c false (c.dfmt == 0)
        (fun a _ _ => cvtLane i (c.dfmt == 3) a))) ∧
      (c.op = 0x13 → runs (.vxLdt q d) (u.vxLdt c)) ∧ (c.op = 0x14 → runs (.vxStt q d) (u.vxStt c)) ∧
      (c.op = 0x15 → runs (.vxAcc q d) (u.vxAcc c)) ∧ (c.op = 0x16 → runs (.vxScl q d) (u.vxScl c)) ∧
      (c.op = 0x17 → runs (.vxRsum q d) (u.vxReduce c false)) ∧ (c.op = 0x18 → runs (.vxRmax q d) (u.vxReduce c true)) ∧
      (c.op = 0x19 → runs (.vxRargmax q d) (u.vxRargmax c)) ∧ (c.op = 0x1A → runs (.vxTopk q d) (u.vxTopk c)) ∧
      (c.op = 0x1B → runs (.vxSample q d) (u.vxSample c)) ∧ (c.op = 0x1C → runs (.vxMerge q d) (u.vxMerge c)) ∧
      (c.op = 0x1D → runs (.vxQnt q d) (u.vxQnt c)))

/-- R217, R221, R222, R224: what an unmasked elementwise VX operation on one pair of tiles leaves in the destination tile:
row by row and column by column its result, poisoned where a source element is; rows beyond ROWS stand, and the
exponents of the rows are those of tile A. -/
def Obligations.VectorElementResults : Prop :=
  ∀ (s : State) (c : VxC) (fp : Bool) (f : VxFn), c.nt = 1 → c.men = false → c.asrc = 0 → c.bsrc = 0 → c.op ≠ 4 →
    let x := s.core (c.k / 8)
    let y := (s.vxElem c true fp f).core (c.k / 8)
    (∀ r col, r < c.rows → col < 64 →
      let a := x.elem (c.ta 0) r col
      let b := x.elem (c.tb 0) r col
      y.elem (c.td 0) r col = ((f a.1 b.1 0).v % 2 ^ 32, a.2 || b.2)) ∧
    (∀ r col, c.rows ≤ r → r < 16 → col < 64 → y.elem (c.td 0) r col = x.elem (c.td 0) r col) ∧
    (∀ t r col, t < 16 → t ≠ c.td 0 → r < 16 → col < 64 → y.elem t r col = x.elem t r col) ∧
    y.isFp (c.td 0) = fp

/-! ### Mover and packer -/

/-- R260, R261, R281 to R284: an MV descriptor that begins and obeys R281 has the effect of its kind; one that does not is
refused. A FILL of one row without a map stores FILLV there, repeated from its low byte; where the engine may not name
the row, or the row is longer than DST_MAX, it is refused. Clauses the spec leaves open rest on the model's choices of
assumption logs 55, 56, 57, 58, 60, 71 and 122. -/
def Obligations.MoverCommands : Prop :=
  ∀ (s : State) (q : CoreId) (d : Desc),
    let k := qKey ⟨q, .mv⟩
    let c : MvC := ⟨k, q, d⟩
    let kind := dfld d 1 31 28
    let runs (cmd : Instr) (v : State) : Prop :=
      (v.settleIdle.hit = false → Sys2Proof.Machine.exec cmd s = .next { v.settleIdle with hit := s.hit }) ∧
      (v.settleIdle.hit = true → Sys2Proof.Machine.exec cmd s = .next s)
    (∀ v, kind = 1 → ({ s with hit := false } : State).head k 4 (fun _ => c.ok) d = .bad v →
      runs (.mvCopy q d) (v.failDesc k 19 1 d)) ∧
    (∀ u, kind = 8 → rowBegin s k 4 (fun _ => true) d = some u → runs (.pack q d) (u.mvPack q d)) ∧
    ∀ u, rowBegin s k 4 (fun _ => c.ok) d = some u →
    ((kind = 1 → runs (.mvCopy q d) (u.mvCopy c)) ∧ (kind = 2 → runs (.mvConvert q d) (u.mvConvert c)) ∧
      (kind = 3 → runs (.mvFill q d) (u.mvFill c)) ∧ (kind = 4 → runs (.mvAtomic q d) (u.mvAtomic c)) ∧
      (kind = 5 → runs (.mvHostrd q d) (u.mvHostrd c)) ∧ (kind = 6 → runs (.mvHostwr q d) (u.mvHostwr c))) ∧
    (let row : List PB := (List.range c.len).map (fun i => ((leBytes 4 (dw d 11).toNat).getD (i % 4) 0, false))
     let a := u.actor k
     let r := u.store (a.who false) a.sub c.dst row
     kind = 3 → c.rows = 1 → c.dmap = false →
      (u.engineMem a q c.dst c.len = true → c.len ≤ c.dstMax → r.1 = .ok → runs (.mvFill q d) r.2) ∧
      (u.engineMem a q c.dst c.len = false ∨ c.dstMax < c.len → runs (.mvFill q d) (u.failDesc k 19 1 d)))

/-! ### Ports and result rings -/

/-- R361, R363 to R366: PERSTp_N, hot reset, link down and FLR of a port count, isolate it and set RESET of its page;
events of a link that is not up, and the pin of an absent port, change nothing. The effects leave the windows off,
every ring pair off, no version accepted, and but for an FLR the link down; the end of the isolation aborts the reads
that are out. -/
def Obligations.PortEvents : Prop :=
  ∀ (s : State) (p : Port),
    let i := p.val
    let counted (s : State) (kind : Nat) : State := (s.bump (prtR i (0x510 + 4 * kind)) 1).bump (rscR (0x140 + 16 * i + 4 * kind)) 1
    let event (s : State) (kind : Nat) (keep : Bool) : State :=
      (((counted s kind).portEffects i keep).flagErr (.prt i) 19 0 0 none 0 0).settleIdle
    let low : State := s.modPort i (fun x => { x with perst := true })
    (s.linkUpNow i = true →
      Sys2Proof.Machine.exec (.hotReset p) s = .next (event s 1 false) ∧
      Sys2Proof.Machine.exec (.portLinkDown p) s = .next (event s 2 false) ∧
      Sys2Proof.Machine.exec (.flr p) s = .next (event s 3 true)) ∧
    (s.linkUpNow i = false → Sys2Proof.Machine.exec (.hotReset p) s = .next s ∧
      Sys2Proof.Machine.exec (.portLinkDown p) s = .next s ∧ Sys2Proof.Machine.exec (.flr p) s = .next s) ∧
    ((s.port i).perst = false → s.present i = true →
      (4 ≤ s.rst.ev → Sys2Proof.Machine.exec (.perst p) s = .next (event low 0 false)) ∧
      (s.rst.ev < 4 → Sys2Proof.Machine.exec (.perst p) s = .next (low.bump (rscR (0x140 + 16 * i)) 1))) ∧
    ((s.port i).perst = true ∨ s.present i = false → Sys2Proof.Machine.exec (.perst p) s = .next s) ∧
    Sys2Proof.Machine.exec (.perstDeassert p) s =
      .next (if (s.port i).perst then s.modPort i (fun x => { x with perst := false, perstAt := s.time }) else s) ∧
    (∀ keep, let v := s.portEffects i keep
      (∀ w : Fin 8, v.reg (prtR i (0x80 + 8 * w.val)) = 0 ∧ v.reg (prtR i (0x84 + 8 * w.val)) = 0) ∧
      (∀ n : Pair, v.ringEn (4 * i + n.val) = false) ∧ v.accepted i = false ∧ (v.port i).isolating = true ∧
      (keep = false → v.linkUpNow i = false) ∧ v.mem = s.mem ∧ v.ses = s.ses) ∧
    ((s.port i).isolating = true → Sys2Proof.Machine.exec (.isolationComplete p) s =
      .next ((s.abortReads i).modPort i (fun x => { x with isolating := false, tags := 0 })).settleIdle) ∧
    ((s.port i).isolating = false → Sys2Proof.Machine.exec (.isolationComplete p) s = .next s ∧
      Sys2Proof.Machine.exec (.flrComplete p) s = .next (if (s.port i).flr then s.modPort i (fun x => { x with flr := false }) else s))

/-- R356 to R361: LINK_UP with a rate and width that the port may train to shows them in LINK, and sets DEGRADED below the
port's best; any other changes nothing. A configuration request reads or writes the port's configuration space, or is
answered Retry before the port is ready; a write that sets Initiate Function Level Reset, or returns PowerState from
D3hot to D0, is an FLR, and one that enables MSI-X delivers the vectors that were pending. An unsupported request is
recorded with code 0x2000 and, where it expects a completion, answered UR; a poisoned request and an ECRC error are
recorded and sent as errors. Clauses the spec leaves open rest on the model's choices of assumption logs 64 and 98. -/
def Obligations.PortRequests : Prop :=
  ∀ (s : State) (p : Port),
    let i := p.val
    (∀ (rate : Fin 16) (width : Fin 32) (flit rev : Bool),
      let best := s.fld (mgtR 0x84) 7 4
      let up := s.setReg (prtR i 0x500) (BitVec.ofNat 32 (rate.val * 2 ^ 28 + width.val * 2 ^ 16 + b2n rev * 4 + b2n flit * 2 + 1))
      (s.mayTrain i rate.val width.val flit = true → rate.val = best → width.val = s.lanes →
        Sys2Proof.Machine.exec (.linkUp p rate width flit rev) s = .next up) ∧
      (s.mayTrain i rate.val width.val flit = true → ¬ (rate.val = best ∧ width.val = s.lanes) →
        Sys2Proof.Machine.exec (.linkUp p rate width flit rev) s = .next (up.flagErr (.prt i) 20 0 0 none 0 0)) ∧
      (s.mayTrain i rate.val width.val flit = false → Sys2Proof.Machine.exec (.linkUp p rate width flit rev) s = .next s)) ∧
    (∀ (wr : Bool) (off : BitVec 12) (v : Word), s.linkUpNow i = true → (s.port i).perst = false →
      let k := off.toNat / 4
      let held : Prop := s.portReady i = false ∨ (s.port i).flr = true ∨ (s.port i).isolating = true
      (held → Sys2Proof.Machine.exec (.configRequest p wr off v) s = .next (s.emit (.config i 2 0))) ∧
      (¬ held → Sys2Proof.Machine.exec (.configRequest p false off v) s = .next (s.emit (.config i 0 (s.cfg i k)))) ∧
      (¬ held →
        let w := (s.cfg i k &&& ~~~cfgMask k) ||| (v &&& cfgMask k)
        let put (w : Word) : State := (s.setCfg i k w).emit (.config i 0 0)
        let wakes : Prop := (s.cfg i k).extractLsb' 0 2 = 3#2 ∧ w.extractLsb' 0 2 = 0#2
        (k = 65 ∨ k = 68 → Sys2Proof.Machine.exec (.configRequest p true off v) s = .next (put (s.cfg i k &&& ~~~v))) ∧
        (k = 20 → Sys2Proof.Machine.exec (.configRequest p true off v) s =
          .next (forN 256 (put w) (fun u n => u.deliverVec i n))) ∧
        ((k = 30 ∧ v.getLsbD 15 = true) ∨ (k = 17 ∧ wakes) →
          Sys2Proof.Machine.exec (.configRequest p true off v) s = .next ((put w).portReset i 3)) ∧
        (k ≠ 65 → k ≠ 68 → k ≠ 20 → (k = 30 → v.getLsbD 15 = false) → (k = 17 → ¬ wakes) →
          Sys2Proof.Machine.exec (.configRequest p true off v) s = .next (put w)))) ∧
    (∀ (rid : Rid) (kind : UrKind) (addr : W64), s.linkUpNow i = true →
      Sys2Proof.Machine.exec (.unsupportedRequest p rid kind addr) s = .next (match kind with
        | .outOfBar true => s.portEvent i 0x2000 0 0
        | .ep _ => (s.flagErr (.prt i) 24 0 1 none addr.toNat rid.toNat).emit (.aer i)
        | .ecrc _ => (s.flagErr (.prt i) 21 0 0 none addr.toNat rid.toNat).emit (.aer i)
        | _ => (s.portEvent i 0x2000 0 0).emit (.cpl i 1 [] false)))

/-- R282, R295, R297, R354, R426: the completion of a host read ends it with its data, or as a failed read that is
recorded; a read that times out is counted and fails. Held results are retried every IDLE_US while no step of their
stall runs; MOD_US after the oldest record not yet signalled the vector of its pair is raised; a write of a vector
table entry stores it, and delivers the vector where it was pending and may be sent now. A record that fell 2³⁰ steps
behind its stall's counter is rewritten with it, and a younger one is not. Clauses the spec leaves open rest on the
model's choices of assumption logs 21, 22 and 116. -/
def Obligations.HostReadsAndRings : Prop :=
  ∀ (s : State) (p : Port),
    let i := p.val
    (∀ tag ok ep data h, s.findRead i tag = some h →
      let fail (s : State) : State := ((s.flagErr (.prt i) 18 0 1 none 0 0).endRead h none false).settleIdle
      (ok = true → ep = false → Sys2Proof.Machine.exec (.hostReadCompletion p tag ok ep data) s =
        .next (s.endRead h (some data) false).settleIdle) ∧
      (ok = true → ep = true → Sys2Proof.Machine.exec (.hostReadCompletion p tag ok ep data) s =
        .next (fail (s.flagErr (.prt i) 24 0 1 none 0 0))) ∧
      (ok = false → Sys2Proof.Machine.exec (.hostReadCompletion p tag ok ep data) s =
        .next (fail (s.flagErr (.prt i) 22 0 1 none 0 0))) ∧
      Sys2Proof.Machine.exec (.cplTimeout p tag) s =
        .next (fail ((s.bump (prtR i 0x520) 1).flagErr (.prt i) 23 0 1 none 0 0))) ∧
    (∀ tag ok ep data, s.findRead i tag = none → Sys2Proof.Machine.exec (.hostReadCompletion p tag ok ep data) s = .next s ∧
      Sys2Proof.Machine.exec (.cplTimeout p tag) s = .next s) ∧
    (∀ (n : Pair) (c : Option Word),
      let k := 4 * i + n.val
      let held : Prop := (s.ring k).held ≠ [] ∨ (s.ring k).lost ≠ 0
      let idle := 1000 * s.fld (stlR (s.ringStall k) 0x104) 31 16
      let due : Prop := (s.stall (s.ringStall k)).idleAt + idle ≤ s.time ∧ (s.ring k).consAt + idle ≤ s.time
      let late : Prop := (s.ring k).unsigAt + 1000 * s.fld (rngR k 0x34) 31 16 ≤ s.time
      (s.inStep (s.ringStall k) = false → held → due →
        Sys2Proof.Machine.exec (.resultHoldRetry p n c) s = .next (s.writeBatch k [] (c.map BitVec.toNat))) ∧
      (s.inStep (s.ringStall k) = true ∨ ¬ held ∨ ¬ due → Sys2Proof.Machine.exec (.resultHoldRetry p n c) s = .next s) ∧
      ((s.ring k).unsig ≠ 0 → late → ∃ t, Sys2Proof.Machine.exec (.msixModeration p n) s = .next t ∧ (t.ring k).unsig = 0 ∧
        (t.ring k).held = (s.ring k).held ∧ t.mem = s.mem ∧ t.ses = s.ses) ∧
      ((s.ring k).unsig = 0 ∨ ¬ late → Sys2Proof.Machine.exec (.msixModeration p n) s = .next s)) ∧
    (∀ (v : Byte) (addr : W64) (data : Word) (mask : Bool),
      let k := 256 * i + v.toNat
      let o : State := { s with rf := { s.rf with
        msix := mset (0, 0) s.rf.msix k (addr.toNat, data),
        vecOpen := if mask then sdel s.rf.vecOpen k else sadd s.rf.vecOpen k } }
      (s.portMode i = .normal → smem s.rf.vecPend k = false ∨ o.vecLive i v.toNat = false →
        Sys2Proof.Machine.exec (.msixVectorUnmask p ⟨v, addr, data, mask⟩) s = .next o) ∧
      (s.portMode i = .normal → smem s.rf.vecPend k = true → o.vecLive i v.toNat = true →
        Sys2Proof.Machine.exec (.msixVectorUnmask p ⟨v, addr, data, mask⟩) s =
          .next (({ o with rf := { o.rf with vecPend := sdel s.rf.vecPend k } } : State).sendVec i v.toNat)) ∧
      (s.portMode i ≠ .normal →
        Sys2Proof.Machine.exec (.msixVectorUnmask p ⟨v, addr, data, mask⟩) s = .next (s.portEvent i 0x2000 0 0))) ∧
    (∀ (t : Tower) (r : Fin 16384) (x : Ses),
      s.ses.find? (fun (x : Ses) => x.home == t.val && x.ledg == r.val && (x.st == .idle || x.st == .parked)) = some x →
      let n := s.reg (stlR x.stall 0xC0)
      (2 ^ 30 ≤ (n - x.cstep).toNat → Sys2Proof.Machine.exec (.stepRecordRefresh t r) s =
        .next ((s.putSes { x with cstep := n }).writeRec { x with cstep := n } 0)) ∧
      ((n - x.cstep).toNat < 2 ^ 30 → Sys2Proof.Machine.exec (.stepRecordRefresh t r) s = .next s))

/-! ### Repair copies and scrub programs -/

/-- R91, R95, R154, R155: a repair copies its channel row by row into the spare, at the pace of its share, and is ready
after the last row; a run of the traffic generator ends with its state and its cycles in the registers, and one that
only writes leaves in every unit it visits the data that its pattern names; a scrub program takes only DIRTY frames,
of a tower between steps, and opens where there is one; its end zeroes the rows of its sets and leaves its frames
CLEAN. An event out of its time changes nothing. Clauses the spec leaves open rest on the model's choices of
assumption logs 23, 35 and 122. -/
def Obligations.RepairAndScrub : Prop :=
  ∀ (s : State) (t : Tower),
    let e : State := { s with hit := false }
    let ends (cmd : Instr) (v : State) : Prop :=
      (v.hit = false → Sys2Proof.Machine.exec cmd s = .next { v with hit := s.hit }) ∧
      (v.hit = true → Sys2Proof.Machine.exec cmd s = .next s)
    ((s.tower t.val).repair = none → Sys2Proof.Machine.exec (.repairRowCopy t) s = .next s) ∧
    (∀ r, (s.tower t.val).repair = some r →
      let g := 256 * s.gib t.val
      let j := 64 * g - r.redo
      let place : Option (Nat × Nat) :=
        if r.rows < 2 ^ 21 then some (r.rows / 32768, r.rows % 32768)
        else if 0 < r.redo ∧ 0 < g then some (j / g % 64, 32768 - g + j % g) else none
      let may : Prop := s.chanWorks t.val r.old = true ∧ r.next ≤ (s.chan t.val r.old).now
      (place = none ∨ ¬ may → Sys2Proof.Machine.exec (.repairRowCopy t) s = .next s) ∧
      (∀ b row, place = some (b, row) → may →
        let c := e.copyRow t.val r.old b row
        ((c.tower t.val).repair = none → ends (.repairRowCopy t) c) ∧
        (∀ r', (c.tower t.val).repair = some r' →
          let n : Repair := if r'.rows < 2 ^ 21 then { r' with rows := r'.rows + 1 } else { r' with redo := r'.redo - 1 }
          let ready := n.rows == 2 ^ 21 && n.redo == 0
          let w := (c.modTower t.val (fun x => { x with repair := some { n with
            ready := ready, next := (c.chan t.val r'.old).now + c.copyGap t.val r'.old } })).setFld
              (memR t.val r'.old 0x98) 15 8 (min 255 (n.rows / 8192))
          ends (.repairRowCopy t) (if ready then (w.setFld (memR t.val r'.old 0x98) 3 0 2).settleIdle else w)))) ∧
    (∀ (c : Chan) (cycles : Nat),
      let a := memR t.val c.val
      let ctl := s.reg (a 0x100)
      let seed := s.reg (a 0x104)
      let still (v : State) : State := v.modChan t.val c.val (fun x => { x with tgStop := false })
      let ended (v : State) : State := ((still v).setReg (a 0x114) (BitVec.ofNat 32 (min cycles 0xFFFFFFFF))).setFld (a 0x100) 1 0 2
      (ctl.getLsbD 0 = false → Sys2Proof.Machine.exec (.tgRunDone t c cycles) s = .next s) ∧
      (ctl.getLsbD 0 = true → s.tgAllowed t.val c.val = false →
        Sys2Proof.Machine.exec (.tgRunDone t c cycles) s = .next ((still s).setFld (a 0x100) 1 0 2)) ∧
      (ctl.getLsbD 0 = true → s.tgAllowed t.val c.val = true → ctl.extractLsb' 28 2 = 2#2 → (s.chan t.val c.val).tgStop = false →
        Sys2Proof.Machine.exec (.tgRunDone t c cycles) s =
          .next (ended (forN (s.reg (a 0x108)).toNat s (fun v i =>
            v.putUnit (tgKey t.val c.val (tgUnit ctl seed i)) (tgExpect ctl seed (tgUnit ctl seed i)) false)))) ∧
      (ctl.getLsbD 0 = true → s.tgAllowed t.val c.val = true → ∃ u v, Sys2Proof.Machine.exec (.tgRunDone t c cycles) s = .next u ∧
        u = ended v ∧ (u.reg (a 0x100)).getLsbD 0 = false ∧ (u.reg (a 0x100)).getLsbD 1 = true ∧
        u.reg (a 0x114) = BitVec.ofNat 32 (min cycles 0xFFFFFFFF) ∧ (u.chan t.val c.val).tgStop = false)) ∧
    (let st := s.stallOf t.val
     let x := s.tower t.val
     let may : Prop := ((s.stall st).part = 0 ∨ (s.stall st).part = 8) ∧ x.bench.open_ = false ∧ x.bench.run = none ∧
       x.oos = false ∧ x.built = true ∧ s.sstate st = 2
     (¬ may → Sys2Proof.Machine.exec (.scrubProgramIssue t) s = .next s) ∧
     (may → x.scrub = [] → ∃ u, Sys2Proof.Machine.exec (.scrubProgramIssue t) s = .next u ∧
       (∀ f ∈ (u.tower t.val).scrub, frmState (s.frm t.val f) = 1 ∧ f < s.frames t.val) ∧ u.mem = s.mem ∧ u.ses = s.ses ∧
       ((∃ f, f < s.frames t.val / 128 * 128 ∧ frmState (s.frm t.val f) = 1) → 2 ≤ s.fld (bsqR t.val 0x80) 15 8 →
         (u.tower t.val).bench.open_ = true ∧ (u.tower t.val).bench.slot = 65536))) ∧
    (let gs := s.scrubSets t.val (s.tower t.val).scrub
     (gs = [] → Sys2Proof.Machine.exec (.scrubComplete t) s = .next s) ∧
     (gs ≠ [] → ends (.scrubComplete t) ((gs.foldl (fun v g => v.scrubRun t.val g) e).scrubbed t.val).settleIdle)) ∧
    (∀ v : State, v.scrubbed t.val =
      ((((v.tower t.val).scrub.foldl (fun v f => v.setFrm t.val f (mkFrm (frmGen (v.frm t.val f)) (frmOwner (v.frm t.val f)) false 0)) v).bump
        (twrR t.val 0xC0) (v.tower t.val).scrub.length).modTower t.val (fun x => { x with scrub := [] })).programEnd t.val)

/-! ### Steps -/

/-- R292, R333, R347: the parts of a step come in order. Intake begins a step only where nothing holds the stall, and
advances its counter by one; each later part waits for the one before it and, where it comes out of turn, changes
nothing; an idle sample comes IDLE_US after the last and begins a step where it takes work. -/
def Obligations.StepOrder : Prop :=
  ∀ (s : State) (st : Stall),
    let i := st.val
    let part := (s.stall i).part
    let due : Prop := (s.stall i).idleAt + 1000 * s.fld (stlR i 0x104) 31 16 ≤ s.time
    (∀ l, s.mayStep i = true → Sys2Proof.Machine.exec (.stepIntake st l) s = .next ((s.beginStep i).sampleStall i l) ∧
      ((s.beginStep i).stall i).part = 1 ∧ (s.beginStep i).reg (stlR i 0xC0) = s.reg (stlR i 0xC0) + 1) ∧
    (∀ l, s.mayStep i = false → Sys2Proof.Machine.exec (.stepIntake st l) s = .next s) ∧
    (∀ l, s.mayStep i = false ∨ ¬ due → Sys2Proof.Machine.exec (.idleSampleTimer st l) s = .next s) ∧
    (∀ l, s.mayStep i = true → due → let v := s.sampleStall i l
      Sys2Proof.Machine.exec (.idleSampleTimer st l) s =
        .next (if (s.stall i).taken.length < (v.stall i).taken.length then v.beginStep i
          else v.modStall i (fun x => { x with idleAt := v.time }))) ∧
    (part ≠ 1 → Sys2Proof.Machine.exec (.stepAdmission st) s = .next s) ∧
    (part ≠ 2 → Sys2Proof.Machine.exec (.stepAllocate st) s = .next s) ∧
    (∀ rows, part ≠ 3 → Sys2Proof.Machine.exec (.stepLayers st rows) s = .next s) ∧
    (∀ l : Byte, part ≠ 4 ∨ (s.stall i).layer ≠ l.toNat ∨ s.quantising i = true →
      Sys2Proof.Machine.exec (.layerCheck st l) s = .next s) ∧
    (part ≠ 4 ∨ (s.stall i).layer < s.layers i ∨ s.enginesBusy i = true → Sys2Proof.Machine.exec (.stepVerify st) s = .next s) ∧
    (part ≠ 5 → Sys2Proof.Machine.exec (.stepCommit st) s = .next s) ∧
    (∀ rooms, s.mayEmit i = false → Sys2Proof.Machine.exec (.stepEmit st rooms) s = .next s) ∧
    (part ≠ 7 → Sys2Proof.Machine.exec (.stepFree st) s = .next s) ∧
    (part ≠ 8 → Sys2Proof.Machine.exec (.stepBoundary st) s = .next s.settleIdle) ∧
    (s.inStep i = true → s.histDue i = true →
      Sys2Proof.Machine.exec (.histogramStep st) s = .next (s.modStall i (fun x => { x with hist := true }))) ∧
    (s.inStep i = false ∨ s.histDue i = false → Sys2Proof.Machine.exec (.histogramStep st) s = .next s)

/-- R182, R333 to R335, R345 to R352: each part of a step in its turn completes with its own effect: admission,
allocation, the layers, the check of a layer, verification, commit, results and freeing; part 8 ends at the boundary,
which ends the step and does what is due there. A part whose accesses meet a channel or a bank that takes no request
now waits. Where no session takes part, admission, the layers and the boundary leave what is written out. Clauses the
spec leaves open rest on the model's choices of assumption logs 7, 61, 62, 72, 122, 136 and 137. -/
def Obligations.StepParts : Prop :=
  ∀ (s : State) (st : Stall),
    let i := st.val
    let x := s.stall i
    let e : State := { s with hit := false }
    let ends (cmd : Instr) (v : State) : Prop :=
      (v.hit = false → Sys2Proof.Machine.exec cmd s = .next { v with hit := s.hit }) ∧
      (v.hit = true → Sys2Proof.Machine.exec cmd s = .next s)
    let quiet : Prop := ∀ y ∈ s.sesOf i, y.inStep = false
    let read : Prop := ∀ h ∈ s.hostRds, ∀ c sid off, h.dst = .toks c sid off → c / 64 ≠ i
    (x.part = 1 → ends (.stepAdmission st) (e.admitStage i)) ∧
    (x.part = 1 → x.taken = [] → s.expertMode i = false → s.halted i = true → s.sesOf i = [] →
      Sys2Proof.Machine.exec (.stepAdmission st) s = .next (s.modStall i (fun y => { y with taken := [], part := 2 }))) ∧
    (x.part = 2 → s.expertMode i = false → s.halted i = false → ends (.stepAllocate st) (e.allocate i)) ∧
    (x.part = 2 → s.expertMode i = true ∨ s.halted i = true → Sys2Proof.Machine.exec (.stepAllocate st) s = .next s) ∧
    (∀ rows, x.part = 3 → read → s.benchBusy i = false → ends (.stepLayers st rows) (e.runLayers i rows)) ∧
    (∀ rows, x.part = 3 → read → quiet → Sys2Proof.Machine.exec (.stepLayers st rows) s =
      .next ((s.modStall i (fun y => { y with assigned := [] })).modStall i (fun y => { y with part := 4 }))) ∧
    (∀ l : Byte, x.part = 4 → s.expertMode i = false → l.toNat < s.layers i → x.layer = l.toNat → s.quantising i = false →
      s.benchBusy i = false → ends (.layerCheck st l) (e.checkLayer i l.toNat)) ∧
    (x.part = 4 → s.layers i ≤ x.layer → s.enginesBusy i = false →
      let v := e.verify i
      (v.stall i).part = 5 ∧
      (v.hit = false → Sys2Proof.Machine.exec (.stepVerify st) s = .next ({ v with hit := s.hit } : State).settleIdle) ∧
      (v.hit = true → Sys2Proof.Machine.exec (.stepVerify st) s = .next s.settleIdle)) ∧
    (x.part = 5 → ends (.stepCommit st) (e.commit i) ∧ ((e.commit i).stall i).part = 6 ∧ ((e.commit i).stall i).resets = 0 ∧
      ((e.commit i).stall i).redo = []) ∧
    (∀ rooms, s.mayEmit i = true → Sys2Proof.Machine.exec (.stepEmit st rooms) s = .next (s.emitStep i rooms) ∧
      ((s.emitStep i rooms).stall i).part = 7 ∧ ((s.emitStep i rooms).stall i).redo = []) ∧
    (x.part = 7 → ends (.stepFree st) (e.freeStep i) ∧ ((e.freeStep i).stall i).part = 8) ∧
    (x.part = 8 →
      let j := (s.chargeHeat i).judgeStep i
      let f := (j.towersOf i).foldl (fun v t => v.flushTower t) j
      let u := f.modStall i (fun y => { y with
        part := 0, snap := [], ext := 0, carry := 0, lcRan := false, hist := false, idleAt := f.time })
      Sys2Proof.Machine.exec (.stepBoundary st) s = .next (u.fixRows i).settleIdle ∧ (u.stall i).part = 0 ∧ (u.stall i).snap = [])

/-- R299, R326 to R329, R335, R344, R347, R348: the records of the intake rings taken one by one. A record with a header
error is answered ERROR with the error's code and detail; a record of a session that does not exist is answered
NO_SESSION with its SID; one of an existing open session joins it: a waiting session holds it, and an admitted one
takes it. Clauses the spec leaves open rest on the model's choices of assumption logs 62 and 136. -/
def Obligations.IntakeRecords : Prop :=
  ∀ (s : State) (p : Port) (n : Pair) (r : Desc) (type : Nat) (cmd : Instr),
    (type = 1 ∧ cmd = .openSession p n r) ∨ (type = 2 ∧ cmd = .submit p n r) ∨ (type = 3 ∧ cmd = .append p n r) ∨
      (type = 4 ∧ cmd = .draft p n r) ∨ (type = 5 ∧ cmd = .cancel p n r) ∨ (type = 6 ∧ cmd = .close p n r) ∨
      (type = 16 ∧ cmd = .expertList p n r) →
    let k := p.val * 4 + n.val
    let rec_ := dput r 0 31 24 type
    let st := s.ringStall k
    let idx := dfld rec_ 0 15 0
    let ord := (s.stall st).ordNo
    let h : Taken := ⟨k, idx, rec_, s.time, 0⟩
    let seen : State := s.modStall st (fun y => { y with ordNo := ord + 1, redo := y.redo ++ [h] })
    (s.stall st).taken = [] →
    (∀ code detail, s.headerError k rec_ = some (code, detail) →
      Sys2Proof.Machine.exec cmd s = .next (s.answerError k (d64 rec_ 2) code idx detail)) ∧
    (s.headerError k rec_ = none →
      (type = 1 → Sys2Proof.Machine.exec cmd s = .next (seen.applyOpen st h ord)) ∧
      (type = 16 → Sys2Proof.Machine.exec cmd s = .next (seen.modStall st (fun y => { y with experts := y.experts ++ [h] }))) ∧
      (type ≠ 1 → type ≠ 16 →
        (∀ w, badField rec_ = some w → Sys2Proof.Machine.exec cmd s = .next (seen.answerError k (d64 rec_ 2) 0x103 idx w)) ∧
        (badField rec_ = none → seen.findSes (dfld rec_ 1 7 0) (dw rec_ 4) = none →
          Sys2Proof.Machine.exec cmd s = .next (seen.answerError k (d64 rec_ 2) 0x101 idx (dw rec_ 4).toNat)) ∧
        (∀ x, badField rec_ = none → seen.findSes (dfld rec_ 1 7 0) (dw rec_ 4) = some x → x.ending = none →
          (x.st = .wait → type ≠ 6 →
            Sys2Proof.Machine.exec cmd s = .next (seen.putSes { x with held := x.held ++ [{ h with ord := ord }] })) ∧
          (x.st = .wait → type = 6 → Sys2Proof.Machine.exec cmd s = .next (seen.putSes { x with ending := some (1, 6) })) ∧
          (x.st ≠ .wait → type = 4 → Sys2Proof.Machine.exec cmd s =
            .next (seen.putSes { x with draft := some (dfld rec_ 5 18 0, (List.range (dfld rec_ 5 31 29)).map (fun i => dw rec_ (6 + i))) })) ∧
          (x.st ≠ .wait → type = 2 ∨ type = 3 → x.full = false → x.queue.length < 4 →
            Sys2Proof.Machine.exec cmd s = .next (seen.putSes { x with queue := x.queue ++ [mkRq x rec_ s.time ord] })) ∧
          (∀ q, x.st ≠ .wait → type = 5 → x.act = some q → x.cancel = none → Sys2Proof.Machine.exec cmd s =
            .next ((seen.putSes { x with
              cancel := some (1, 5)
              trunc := if dbit rec_ 5 31 then some (max (dfld rec_ 5 18 0) q.len0) else none
              drop := true }).bump (stlR x.stall 0x26C) 1)) ∧
          (x.st ≠ .wait → type = 6 → Sys2Proof.Machine.exec cmd s =
            .next ((seen.putSes { x with
              cancel := if x.act.isSome then some (x.cancel.getD (1, 6)) else none
              fin := x.fin ++ x.queue.map (fun q => (q, 1, 6))
              queue := []
              drop := true
              ending := some (0, 6) }).bump (stlR x.stall 0x26C) (x.queue.length + b2n (x.act.isSome && x.cancel.isNone)))) ∧
          (x.st ≠ .wait → type = 5 → x.act = none → x.queue = [] →
            Sys2Proof.Machine.exec cmd s = .next (seen.answerError k (d64 rec_ 2) 0x102 idx x.sid.toNat)))))

/-- R295, R308, R323, R324, R336 to R341, R432: the events that move sessions and stalls on. A session that waited 16 ×
ADMIT_TMO steps ends FAILED, NO_FRAMES; a tower whose every active BE session stayed parked loses the newest whose
pair holds no results; a stall reset ends in service or, after SRST_MAX of them, out of service; a reconfiguration
begins at the boundary, or is refused where work is left and FORCE is not set, and its last phase puts the stall in
service; a check without a lost unit leaves the stall clean. -/
def Obligations.ServingEvents : Prop :=
  ∀ (s : State) (st : Stall),
    let i := st.val
    let x := s.stall i
    (∀ (ctx : Byte) (sid : Word) (y : Ses), s.findSes ctx.toNat sid = some y →
      let due : Prop := y.stall = i ∧ y.st = .wait ∧ y.ending = none ∧ 16 * s.fld (stlR i 0x240) 23 16 ≤ y.waited
      (due → Sys2Proof.Machine.exec (.admissionTimeout st ctx sid) s = .next (s.endSes y 3 9)) ∧
      (¬ due → Sys2Proof.Machine.exec (.admissionTimeout st ctx sid) s = .next s)) ∧
    (∀ y t, s.oldestLc i = some y → s.squeezed i = some t → s.fld (stlR i 0x244) 31 24 ≤ y.waited → s.halted i = false →
      s.homeFor y = none → x.part ≤ 2 → Sys2Proof.Machine.exec (.lcParkExpiry st) s =
        .next (State.evictFor s.ses.length s t (s.layers i * plistS y.pcap) y.ctx)) ∧
    (s.oldestLc i = none → Sys2Proof.Machine.exec (.lcParkExpiry st) s = .next s) ∧
    (∀ t : Tower,
      let l := s.ses.filter (fun y => y.home == t.val && y.be && (y.st == .active || y.st == .parked) && y.ending.isNone)
      let sq := s.stallOf t.val
      let due : Prop := (s.stall sq).part ≤ 2 ∧ ∀ y ∈ l, y.st = .parked ∧ s.fld (stlR sq 0x244) 23 16 ≤ y.parkedFor
      let free := l.filter (fun y => !s.blocked y)
      (due → ∀ y, (newestFirst free).head? = some y → Sys2Proof.Machine.exec (.parkMaxExpiry t) s =
        .next (((s.bump (stlR y.stall 0x264) 1).flagErr (.stl y.stall) 26 0 0 (some y.ctx) 0 0).endSes y 2 7)) ∧
      (¬ due ∨ free = [] → Sys2Proof.Machine.exec (.parkMaxExpiry t) s = .next s)) ∧
    (x.resetOn = true → x.integ = false →
      let u : State := { s.modStall i (fun y => { y with resetOn := false }) with rf := { s.rf with brst := sdel s.rf.brst (0x10 + i) } }
      (x.resets < u.fld (stlR i 0x88) 10 8 → Sys2Proof.Machine.exec (.stallResetDone st) s = .next (u.setFld (stlR i 0x14) 31 28 2).settleIdle) ∧
      (u.fld (stlR i 0x88) 10 8 ≤ x.resets → (u.stopServing i).stall i = u.stall i →
        Sys2Proof.Machine.exec (.stallResetDone st) s = .next (u.stopServing i).settleIdle)) ∧
    (x.resetOn = false → Sys2Proof.Machine.exec (.stallResetDone st) s = .next s) ∧
    (s.atBoundary i = true → Sys2Proof.Machine.exec (.reconfiguration st) s = .next s.settleIdle) ∧
    (s.atBoundary i = false → Sys2Proof.Machine.exec (.reconfiguration st) s = .next s) ∧
    (∀ force, x.reconf = some force → s.retraining i = false → s.bar2Held i = false →
      let u := s.modStall i (fun y => { y with reconf := none })
      (s.workLeft i = true → force = false →
        s.beginReconf i = (u.setFld (stlR i 0x84) 25 24 2).flagErr (.stl i) 30 0 0 none 0 0) ∧
      (s.workLeft i = false ∨ force = true →
        s.beginReconf i = (((((u.forceOut i).setFld (stlR i 0x14) 31 28 1).modStall i (fun y =>
          { y with reconfOn := true, again := 0 })).reconfPhase12 i).clearAcw i).reconfPhase45 i)) ∧
    (x.reconfOn = true → x.integ = false → s.partnOn = false → Sys2Proof.Machine.exec (.reconfigurationDone st) s =
      .next (((s.setFld (stlR i 0x14) 31 28 2).modStall i (fun y => { y with reconfOn := false })).setFld (stlR i 0x84) 25 24 1).settleIdle) ∧
    (x.reconfOn = false → Sys2Proof.Machine.exec (.reconfigurationDone st) s = .next s) ∧
    (x.checking = true → s.checkSet i = [] → Sys2Proof.Machine.exec (.integrityCheckDone st) s =
      .next ((s.modStall i (fun y => { y with checking := false, integ := false, clean := true })).setFld (stlR i 0x280) 27 26 1).settleIdle) ∧
    (x.checking = false → Sys2Proof.Machine.exec (.integrityCheckDone st) s = .next s)

/-! ### The management bus -/

/-- R367, R368: SETDASA from the static address and ENTDAA give a target without a dynamic address one, and it runs I3C;
RSTDAA takes it back to SMBus; from an HDR entry in I3C to the HDR exit the target ignores the bus; parity errors and
bus timeouts are counted. Clauses the spec leaves open rest on the model's choices of assumption logs 107 and 114. -/
def Obligations.BusModes : Prop :=
  ∀ (s : State),
    let none_ : Prop := s.fld (mgtR 0x88) 14 8 = 0
    let take (s : State) (a : BitVec 7) : State := ({ s with mgt := { s.mgt with i3c := true } } : State).setFld (mgtR 0x88) 14 8 a.toNat
    (∀ st dyn : BitVec 7, s.busUp = true → none_ →
      (st.toNat = s.fld (mgtR 0x88) 22 16 → Sys2Proof.Machine.exec (.setdasa st dyn) s = .next (take s dyn)) ∧
      (st.toNat ≠ s.fld (mgtR 0x88) 22 16 → Sys2Proof.Machine.exec (.setdasa st dyn) s = .next s)) ∧
    (∀ (won : Bool) (dyn : BitVec 7), s.busUp = true → none_ →
      let u : State := { s with free := s.free + 1, sec := { s.sec with drbg := s.sec.drbg + 1 } }
      Sys2Proof.Machine.exec (.entdaa won dyn) s = .next (if won then take u dyn else u)) ∧
    (∀ (st dyn : BitVec 7) (won : Bool), s.busUp = false ∨ ¬ none_ →
      Sys2Proof.Machine.exec (.setdasa st dyn) s = .next s ∧ Sys2Proof.Machine.exec (.entdaa won dyn) s = .next s) ∧
    (s.busUp = true →
      Sys2Proof.Machine.exec .rstdaa s = .next (({ s with mgt := { s.mgt with i3c := false } } : State).setFld (mgtR 0x88) 14 8 0) ∧
      (s.mgt.i3c = true → Sys2Proof.Machine.exec .hdrEntry s = .next { s with mgt := { s.mgt with hdr := true } } ∧
        Sys2Proof.Machine.exec .i3cParityError s = .next (s.bump (mgtR 0x108) 1)) ∧
      (s.mgt.i3c = false → Sys2Proof.Machine.exec .hdrEntry s = .next s ∧ Sys2Proof.Machine.exec .i3cParityError s = .next s)) ∧
    (s.busUp = false → Sys2Proof.Machine.exec .rstdaa s = .next s ∧ Sys2Proof.Machine.exec .hdrEntry s = .next s ∧
      Sys2Proof.Machine.exec .i3cParityError s = .next s) ∧
    Sys2Proof.Machine.exec .hdrExit s = .next { s with mgt := { s.mgt with hdr := false } } ∧
    (3 ≤ s.rst.ev → Sys2Proof.Machine.exec .busTimeout s = .next ((s.bump (mgtR 0x110) 1).flagErr .mgt 17 0 0 none 0 0))

/-- R368 to R371: MCTP packets. A packet with a bad PEC is dropped and counted, one to another EID is counted; the first
packet of a message in several begins an assembly, the next one in sequence joins it, one out of sequence drops it,
and the last one delivers the whole; an assembly without a packet for 100 ms is dropped. The oldest response of a
medium is sent, or its attempt fails and it backs off 1 to 8 ms in steps of 0.125 ms, and the fourth failure drops it.
Clauses the spec leaves open rest on the model's choices of assumption logs 107 and 114. -/
def Obligations.MctpPackets : Prop :=
  ∀ (s : State) (m : Medium) (phys : Byte) (b : List Byte),
    let w : MsgSrc := ⟨phys, b.getD 2 0, BitVec.ofNat 3 (b.getD 3 0).toNat, (b.getD 3 0).getLsbD 3⟩
    let som := (b.getD 3 0).getLsbD 7
    let eom := (b.getD 3 0).getLsbD 6
    let seq := (b.getD 3 0).toNat / 16 % 4
    let d := b.drop 4
    let put (l : List Asm) : State := { s with mgt := { s.mgt with asm := l } }
    (5 ≤ b.length → s.mediumUp m = true →
      (m = .bus → Sys2Proof.Machine.exec (.mctpPacket m phys b false) s =
        .next ((s.bump (mgtR 0x10C) 1).flagErr .mgt 18 0 0 none 0 0)) ∧
      (s.eid m ≠ some (b.getD 1 0) → b.getD 1 0 ≠ 0 → b.getD 1 0 ≠ 0xFF →
        Sys2Proof.Machine.exec (.mctpPacket m phys b true) s = .next (s.bump (mgtR 0x118) 1)) ∧
      (s.eid m = some (b.getD 1 0) → s.mgt.asm.find? (fun a => a.of m w) = none →
        (som = false → Sys2Proof.Machine.exec (.mctpPacket m phys b true) s = .next (s.bump (mgtR 0x114) 1)) ∧
        (som = true → (s.mgt.asm.filter (fun a => a.of m w)) = [] → s.mgt.asm.length < 8 → d.length ≤ 4096 →
          (eom = true → Sys2Proof.Machine.exec (.mctpPacket m phys b true) s = .next (s.deliver m w true d)) ∧
          (eom = false → Sys2Proof.Machine.exec (.mctpPacket m phys b true) s =
            .next (put (s.mgt.asm ++ [⟨⟨m, w⟩, (seq + 1) % 4, d, s.time⟩]))))) ∧
      (∀ a, s.eid m = some (b.getD 1 0) → som = false → s.mgt.asm.find? (fun a => a.of m w) = some a →
        let rest := s.mgt.asm.filter (fun y => !y.of m w)
        (a.seq ≠ seq → ∃ t, Sys2Proof.Machine.exec (.mctpPacket m phys b true) s = .next t ∧ t.mgt.asm = rest ∧ t.mgt.out = s.mgt.out) ∧
        (a.seq = seq → (a.data ++ d).length ≤ 4096 →
          (eom = true → Sys2Proof.Machine.exec (.mctpPacket m phys b true) s = .next ((put rest).deliver m w true (a.data ++ d))) ∧
          (eom = false → Sys2Proof.Machine.exec (.mctpPacket m phys b true) s =
            .next (put (rest ++ [⟨a.key, (seq + 1) % 4, a.data ++ d, s.time⟩])))))) ∧
    (∀ key : AsmKey, let old (a : Asm) : Bool := a.of key.m key.src && decide (a.at_ + 100000000 ≤ s.time)
      ∃ t, Sys2Proof.Machine.exec (.assemblyTimeout key) s = .next t ∧ t.mgt.asm = s.mgt.asm.filter (fun a => !old a) ∧
        (s.mgt.asm.filter old = [] → t = s)) ∧
    (∀ r lost nack, s.mgt.out.find? (fun r => r.m == m && r.backoff.isNone) = some r → s.mediumUp m = true →
      let gone : State := { s with mgt := { s.mgt with out := dropFirst (fun y => y == r) s.mgt.out } }
      (lost = false → nack = false → Sys2Proof.Machine.exec (.responseAttempt m lost nack) s =
        .next (gone.emit (.mgmt m r.dst r.ses r.data))) ∧
      (lost = false → nack = true → 3 ≤ r.tries → Sys2Proof.Machine.exec (.responseAttempt m lost nack) s =
        .next ((gone.bump (mgtR 0x104) 1).flagErr .mgt 20 0 0 none 0 0)) ∧
      (nack = true → r.tries < 3 → ∃ t k, Sys2Proof.Machine.exec (.responseAttempt m lost nack) s = .next t ∧ k < 57 ∧
        t.mgt.out = mapFirst (fun y => y == r)
          (fun _ => { r with tries := r.tries + 1, backoff := some (s.time + 1000000 + 125000 * k) }) s.mgt.out)) ∧
    (s.mgt.out.find? (fun r => r.m == m && r.backoff.isNone) = none →
      ∀ lost nack, Sys2Proof.Machine.exec (.responseAttempt m lost nack) s = .next s) ∧
    (∃ t, Sys2Proof.Machine.exec (.backoffExpiry m) s = .next t ∧ t.mgt.out.length = s.mgt.out.length ∧
      (∀ r ∈ s.mgt.out, r.m ≠ m ∨ r.backoff = none → r ∈ t.mgt.out))

/-- R370, R372 to R374, R412, R453: the messages that are rows, outside a session, from a source with tokens left on a
medium that is up with its EID set. SET_ENDPOINT_ID sets the EID and answers it; other control requests, register
accesses and PLDM messages go to their handlers; a message over the rate limit is dropped. A register read by an
allowed source answers the words read. Clauses the spec leaves open rest on the model's choices of assumption logs 68,
109 and 112. -/
def Obligations.ManagementMessages : Prop :=
  ∀ (s u : State) (m : Medium) (w : MsgSrc) (body : List Byte),
    s.mediumUp m = true → s.rate w [0] = (true, u) →
    (∀ eid : Byte, eid ≠ 0 → eid ≠ 0xFF → ∃ t, Sys2Proof.Machine.exec (.setEndpointId m w 0 eid) s = .next t ∧
      t.eid m = some eid ∧ t.mgt.out = u.mgt.out ++ [⟨m, { w with owner := false }, none, [0, 0, 1, 0, 0, eid, 0], 0, none⟩]) ∧
    (∀ cmd : Byte, cmd ≠ 1 → Sys2Proof.Machine.exec (.mctpControl m w cmd body) s = .next (u.mctpCtl m w ([0x80, cmd] ++ body))) ∧
    (s.eid m ≠ none →
      (body.getD 2 0 = 1 → Sys2Proof.Machine.exec (.registerAccessRead m w body) s = .next (u.regAccess m w none body)) ∧
      (body.getD 2 0 = 2 → Sys2Proof.Machine.exec (.registerAccessWrite m w false body) s = .next (u.regAccess m w none body)) ∧
      (body.getD 1 0 &&& 0x3F = 0 → Sys2Proof.Machine.exec (.pldmBase m w body) s = .next (u.pldm m w none body)) ∧
      (body.getD 1 0 &&& 0x3F = 2 →
        (body.getD 2 0 = 0x11 → Sys2Proof.Machine.exec (.getSensorReading m w body) s = .next (u.pldm m w none body)) ∧
        (body.getD 2 0 = 0x31 → Sys2Proof.Machine.exec (.setNumericEffecterValue m w body) s = .next (u.pldm m w none body)) ∧
        (body.getD 2 0 = 0x04 → Sys2Proof.Machine.exec (.setEventReceiver m w body) s = .next (u.pldm m w none body))) ∧
      (body.getD 1 0 &&& 0x3F = 5 → Sys2Proof.Machine.exec (.pldmFirmwareUpdate m w body) s = .next (u.pldm m w none body))) ∧
    (∀ inst off : Byte, m = .bus → u.allowed w = true → off.toNat % 4 = 0 → off.toNat ≠ 0xA0 →
      ∃ t, u.regAccess m w none [0x1F, 0x3C, 1, inst, 1, 0, 0, off, 0, 0, 0] = t ∧
        t.mgt.out = u.mgt.out ++ [⟨m, { w with owner := false }, none,
          [0x7E, 0x1F, 0x3C, 0x81, inst, 0, 0, 0, off, 0, 0, 0] ++ leBytes 4 (u.read 4 off.toNat).toNat, 0, none⟩])

/-- R372, R375, R381, R382: the SPDM requests, outside a session, from a source with tokens left. Each row hands its
request to the responder; GET_VERSION answers versions 1.2 and 1.3 and begins the source's connection; a request out
of order is answered UnexpectedRequest. A secured message of the established session of its source is handled inside
it, any other is discarded. Clauses the spec leaves open rest on the model's choices of assumption logs 17, 69, 108
and 113. -/
def Obligations.SpdmRequests : Prop :=
  ∀ (s u : State) (m : Medium) (w : MsgSrc) (body : List Byte),
    s.mediumUp m = true → s.eid m ≠ none → s.rate w [0] = (true, u) →
    let hands (cmd : Instr) (ok : Bool) : Prop := Sys2Proof.Machine.exec cmd s = .next (u.spdm m w none ok body)
    let ask (n : Byte) : Prop := body.getD 1 0 = n
    (ask 0x84 → hands (.getVersion m w body) true) ∧ (ask 0xE1 → hands (.getCapabilities m w body) true) ∧
    (ask 0xE3 → hands (.negotiateAlgorithms m w body) true) ∧ (ask 0x81 → hands (.getDigests m w body) true) ∧
    (ask 0x82 → hands (.getCertificate m w body) true) ∧ (ask 0x83 → hands (.challenge m w body) true) ∧
    (ask 0xE0 → hands (.getMeasurements m w body) true) ∧ (ask 0xE4 → hands (.keyExchange m w body) true) ∧
    (∀ ok, ask 0xE5 → hands (.finish m w ok body) ok) ∧ (ask 0x85 → hands (.chunkSend m w body) true) ∧
    (ask 0x86 → hands (.chunkGet m w body) true) ∧
    (s.session m w = none → (ask 0xE8 → hands (.heartbeat m w body) true) ∧ (ask 0xE9 → hands (.keyUpdate m w body) true) ∧
      (ask 0xEC → hands (.endSession m w body) true)) ∧
    (∀ id : Word, s.session m w = some id.toNat →
      (ask 0xE8 → Sys2Proof.Machine.exec (.heartbeat m w body) s = .next (u.spdm m w (some id.toNat) true body)) ∧
      (ask 0xE9 → Sys2Proof.Machine.exec (.keyUpdate m w body) s = .next (u.spdm m w (some id.toNat) true body)) ∧
      (ask 0xEC → Sys2Proof.Machine.exec (.endSession m w body) s = .next (u.spdm m w (some id.toNat) true body)) ∧
      Sys2Proof.Machine.exec (.securedMessage m w id true (5 :: body)) s = .next (u.spdm m w (some id.toNat) true body)) ∧
    (∀ (id : Word) (ok : Bool), ok = false ∨ s.session m w ≠ some id.toNat →
      Sys2Proof.Machine.exec (.securedMessage m w id ok body) s = .next s) ∧
    (4 ≤ body.length → ask 0x84 →
      let rest := u.mgt.spdm.filter (fun x => !x.of m w)
      rest.length < 4 → ∃ t, u.spdm m w none true body = t ∧
        t.mgt.spdm = rest ++ [⟨m, w.phys, w.eid, 0, 0x10, none, false, 0, none, none, 0⟩] ∧
        t.mgt.out = u.mgt.out ++ [⟨m, { w with owner := false }, none, [5, 0x10, 0x04, 0, 0, 0, 2, 0, 0x12, 0, 0x13], 0, none⟩]) ∧
    (4 ≤ body.length → body.getD 1 0 ∈ [0x81#8, 0x82#8, 0x83#8, 0xE0#8, 0xE4#8, 0xE5#8, 0xE8#8] → u.conn m w = none →
      (u.spdm m w none true body).mgt.out =
        u.mgt.out ++ [⟨m, { w with owner := false }, none, [5, 0x10, 0x7F, 0x04, 0], 0, none⟩])

/-! ### Security, resets and boot -/

/-- R383, R390, R395, R398, R401 to R404, R413, R439, R455: the sources of error and reset. The generator is reseeded
after 2²⁰ requests; an entropy failure is recorded once; unlocking the test port erases the keys; the watchdog, a
start's timeout, a critical state error, the software reset and the end of fatal handling reset the device with their
causes; fatal errors are recorded with their codes. Clauses the spec leaves open rest on the model's choices of
assumption logs 28, 65 and 97. -/
def Obligations.ResetSources : Prop :=
  ∀ (s : State),
    let fatal (s : State) (pg : Pg) (code : Nat) : State :=
      let e := s.logErr pg code 3 0 0
      if e.rst.fatal then e.deviceReset 9
      else (e.flushHist (mget ErrRing.reset e.rf.rings (pg.base / 4096)).recs.head?).modRst (fun x => { x with fatal := true })
    let cause (c crit tower : Nat) : State := s.deviceResetAt (if s.rst.fatal then 9 else c) crit tower
    let ms := s.fld (rscR 0x88) 15 0
    Sys2Proof.Machine.exec .drbgReseed s =
      .next (if 2 ^ 20 ≤ s.sec.drbg then { s with free := s.free + 1, sec := { s.sec with drbg := 0 } } else s) ∧
    (3 ≤ s.rst.ev → s.sec.entropyOk = true → Sys2Proof.Machine.exec .entropyFail s =
      .next (({ s with sec := { s.sec with entropyOk := false } } : State).flagErr .sec 16 0 0 none 0 0)) ∧
    (s.sec.entropyOk = false → Sys2Proof.Machine.exec .entropyFail s = .next s) ∧
    (2 ≤ s.rst.ev → ∃ t, Sys2Proof.Machine.exec .tapUnlock s = .next t ∧ t.sec.tap = true ∧
      (∀ st : Stall, t.fld (secR (0x8C + 16 * st.val)) 1 0 = 0)) ∧
    Sys2Proof.Machine.exec .refclkStop s = .next (s.modRst (fun x => { x with refStop := true })) ∧
    Sys2Proof.Machine.exec .refclkReturn s = .next (s.modRst (fun x => { x with refStop := false })) ∧
    Sys2Proof.Machine.exec .refclkLossTimeout s =
      .next (if s.rst.refStop then fatal (s.modRst (fun x => { x with refStop := false })) .rsc 0x6000 else s) ∧
    Sys2Proof.Machine.exec .softwareDeviceReset s = .next (if s.rst.swrst then s.deviceResetAt 3 0 0 else s) ∧
    (s.phase = 1 → ms ≠ 0 → s.rst.beatAt + ms * 1000000 ≤ s.time → Sys2Proof.Machine.exec .watchdogExpiry s = .next (cause 4 0 0)) ∧
    (s.phase ≠ 1 ∨ ms = 0 ∨ s.time < s.rst.beatAt + ms * 1000000 → Sys2Proof.Machine.exec .watchdogExpiry s = .next s) ∧
    (s.rst.starting = true →
      (s.phase = 0 → s.rst.straps.bootSel ≠ 1 → s.rst.startAt + s.fld (rscR 0x88) 31 24 * 100000000 ≤ s.time →
        Sys2Proof.Machine.exec .startTimeout s = .next (cause 5 0 0)) ∧
      (s.phase = 1 → s.rst.readyAt + s.fld (rscR 0x88) 23 16 * 1000000000 ≤ s.time → Sys2Proof.Machine.exec .startConfirm s =
        .next ((s.setFld (rscR 0x84) 3 0 0).modRst (fun x => { x with starting := false, lastFailed := false })))) ∧
    (s.rst.starting = false → Sys2Proof.Machine.exec .startTimeout s = .next s ∧ Sys2Proof.Machine.exec .startConfirm s = .next s) ∧
    (∀ (crit : Fin 16) (t : Tower), 1 ≤ crit.val → crit.val ≤ 5 → Sys2Proof.Machine.exec (.criticalStateError crit t) s =
      .next (cause 7 crit.val (if crit.val = 3 ∨ crit.val = 5 then t.val else 0))) ∧
    Sys2Proof.Machine.exec (.fatalError .refclk) s = .next (fatal s .rsc 0x6000) ∧
    (∀ g : Fin 2, Sys2Proof.Machine.exec (.fatalError (.gateMem g)) s = .next (fatal s (.gte g.val) 0x6100)) ∧
    Sys2Proof.Machine.exec (.fatalError .tallyman) s = .next (fatal s .tly 0x6200) ∧
    (∀ st : Stall, Sys2Proof.Machine.exec (.fatalError (.reconfTwice st)) s = .next (fatal s (.stl st.val) 0x6300)) ∧
    Sys2Proof.Machine.exec .fatalHandlingEnd s = .next (if s.rst.fatal then s.deviceResetAt 8 0 0 else s) ∧
    (∀ g : Fin 2, 2 ≤ s.rst.ev →
      Sys2Proof.Machine.exec (.gateMemoryError g true) s = .next ((s.bump (gteR g.val 0xA0) 1).flagErr (.gte g.val) 17 0 0 none 0 0) ∧
      Sys2Proof.Machine.exec (.gateMemoryError g false) s = .next (fatal s (.gte g.val) 0x6100)) ∧
    Sys2Proof.Machine.exec .sevHistoryFlush s =
      .next (if s.rst.booted ∧ s.rst.histTime + 3600000000000 ≤ s.time then s.flushHist none else s)

/-- R397 to R400, R402, R457, R462 to R465: pins and supplies. A device reset keeps the queue of commands, the fuses and
the pins; VSB clears every domain. RESET_N low for less than 1 µs is only counted; the release of a longer one, or of
PWR_GOOD, latches the straps where nothing else holds the device. PWR_EN, the VMAIN monitors and the loss of VSB
switch the converters. Clauses the spec leaves open rest on the model's choices of assumption logs 4 and 31. -/
def Obligations.PowerAndPins : Prop :=
  ∀ (s : State) (straps : Straps),
    let r := s.rst
    let down : State := if r.modGood then ((s.deviceReset 2).modRst (fun x => { x with modGood := false })).emit (.pin "PWR_GOOD" false) else s
    let latch (s : State) : State := if s.heldReset = false ∧ s.rst.resetN = false then s.latchStraps straps else s
    (∀ c crit t, let v := s.deviceResetAt c crit t
      v.pending = s.pending ∧ v.fuses = s.fuses ∧ v.time = s.time ∧ v.mem = [] ∧ v.ses = [] ∧ v.rst.ev = 0 ∧
      v.rst.resetN = s.rst.resetN ∧ v.rst.straps = s.rst.straps ∧ ∀ st : Stall, v.owner st.val = 7) ∧
    (∃ t, Sys2Proof.Machine.exec .powerOn s = .next t ∧ t.pending = s.pending ∧ t.fuses = s.fuses ∧ t.mem = [] ∧ t.time = 0 ∧
      t.rst.vsb = true ∧ t.rst.pwrEn = s.rst.pwrEn ∧ t.sec = State.reset.sec) ∧
    Sys2Proof.Machine.exec .resetNAssert s = .next (if r.resetN then s else s.modRst (fun x => { x with resetN := true })) ∧
    (r.resetN = true → r.filter = false → Sys2Proof.Machine.exec .resetNFilterExpiry s =
      .next ((s.deviceReset 2).modRst (fun x => { x with filter := true }))) ∧
    (r.resetN = false ∨ r.filter = true → Sys2Proof.Machine.exec .resetNFilterExpiry s = .next s) ∧
    (∀ ns, r.resetN = true → r.filter = false → ns < 1000 → Sys2Proof.Machine.exec (.resetNRelease ns straps) s =
      .next ((s.modRst (fun x => { x with resetN := false })).bump (rscR 0x134) 1)) ∧
    (∀ ns, r.resetN = true → r.filter = true →
      (ns < 100000 → Sys2Proof.Machine.exec (.resetNRelease ns straps) s =
        .next (latch ((s.bump (rscR 0x130) 1).modRst (fun x => { x with resetN := false, filter := false })))) ∧
      (100000 ≤ ns → Sys2Proof.Machine.exec (.resetNRelease ns straps) s =
        .next (latch (s.endTrip.modRst (fun x => { x with resetN := false, filter := false }))))) ∧
    (∀ ns, r.resetN = false → Sys2Proof.Machine.exec (.resetNRelease ns straps) s = .next s) ∧
    (r.platLow = false → Sys2Proof.Machine.exec .pwrGoodLow s =
      .next (let low := s.modRst (fun x => { x with platLow := true }); if r.modGood then low.deviceReset 2 else low)) ∧
    (r.platLow = true → Sys2Proof.Machine.exec (.pwrGoodRelease straps) s = .next (latch (s.modRst (fun x => { x with platLow := false })))) ∧
    (r.pwrEn = false →
      let up := s.modRst (fun x => { x with pwrEn := true })
      (r.holdoff = true → Sys2Proof.Machine.exec .pwrEnRise s = .next (up.modRst (fun x => { x with holdRise := true }))) ∧
      (r.holdoff = false → Sys2Proof.Machine.exec .pwrEnRise s = .next up.softStart)) ∧
    (r.soft = true → Sys2Proof.Machine.exec (.softStartDone straps) s =
      .next (latch ((s.modRst (fun x => { x with soft := false, modGood := true })).emit (.pin "PWR_GOOD" (!r.platLow))))) ∧
    (r.soft = false → Sys2Proof.Machine.exec (.softStartDone straps) s = .next s) ∧
    (r.pwrEn = true → Sys2Proof.Machine.exec .pwrEnFall s =
      .next (down.modRst (fun x => { x with pwrEn := false, soft := false, holdoff := true, holdRise := false }))) ∧
    (r.holdoff = true → Sys2Proof.Machine.exec .pwrEnHoldoffExpiry s =
      .next (let e := s.modRst (fun x => { x with holdoff := false, holdRise := false }); if r.holdRise then e.softStart else e)) ∧
    (Sys2Proof.Machine.exec .vmainUndervoltage s = .next (down.modRst (fun x => { x with vmainFault := true, soft := false })) ∧
      Sys2Proof.Machine.exec .vmainOvervoltage s = .next (down.modRst (fun x => { x with vmainFault := true, soft := false }))) ∧
    (r.vmainFault = true → Sys2Proof.Machine.exec .supplyFaultClear s = .next (s.modRst (fun x => { x with vmainFault := false })).softStart) ∧
    (r.vsb = true → Sys2Proof.Machine.exec .vsbLoss s = .next (down.modRst (fun x => { x with vsb := false, soft := false })))

/-- R378, R405, R406, R410, R412, R413, R417, R418: boot. The domains are released one event at a time, PLLs that do not
lock reset the device; the record of the chosen bank is loaded; an image that passes the checks joins those that run,
one that fails them fails its slot; a chunk joins the load; a record write that was read back is the record in use;
the first heartbeat makes the device READY. Clauses the spec leaves open rest on the model's choices of assumption
logs 15, 16, 66, 67, 83 and 95. -/
def Obligations.Boot : Prop :=
  ∀ (s : State),
    let r := s.rst
    let n := r.ev
    (∀ locked, (s.heldReset = true ∨ (r.resetN = true ∧ r.filter = true)) → Sys2Proof.Machine.exec (.domainReleaseEvent locked) s = .next s) ∧
    (s.heldReset = false →
      (∀ locked, n = 0 → Sys2Proof.Machine.exec (.domainReleaseEvent locked) s = .next s.event1) ∧
      (n = 1 → Sys2Proof.Machine.exec (.domainReleaseEvent false) s = .next (s.deviceResetAt 10 0 0)) ∧
      (∀ locked, (n = 1 ∧ locked = true) ∨ (2 ≤ n ∧ n < 10 ∧ (n < 4 ∨ s.phase ≠ 2)) →
        Sys2Proof.Machine.exec (.domainReleaseEvent locked) s =
          .next (if n = 2 then (s.modRst (fun x => { x with ev := 3 })).setFld (mgtR 0x88) 22 16 (0x38 + r.straps.slotId.toNat)
            else s.modRst (fun x => { x with ev := n + 1 })))) ∧
    (∀ failed, n = 10 → r.memInit = false → ∃ t, Sys2Proof.Machine.exec (.memoryInitDone failed) s = .next t ∧
      t.rst.memInit = true ∧ t.rst.failedCh = failed) ∧
    (∀ failed, n ≠ 10 ∨ r.memInit = true → Sys2Proof.Machine.exec (.memoryInitDone failed) s = .next s) ∧
    (n < 3 ∨ r.booted = true → Sys2Proof.Machine.exec .bootRecordRead s = .next s) ∧
    (∀ b x, 3 ≤ n → r.booted = false → s.flash.choose = some (b, x, false) → r.straps.bootSel ≠ 0 →
      ∃ t, Sys2Proof.Machine.exec .bootRecordRead s = .next t ∧ t.rst.prec = x ∧ t.rst.booted = true ∧ t.reg (mgtR 0x84) = x.portcfg ∧
        t.reg (flsR 0x84) = BitVec.ofNat 32 x.seq ∧ t.flash = s.flash) ∧
    (∀ (slot : Fin 2) (type : Fin 8), s.phase = 0 → r.booted = true → r.straps.bootSel = 0 → s.fld (rscR 0x84) 8 8 = slot.val →
      [1, 4, 2, 3].find? (fun t => (s.running t).isNone) = some type.val →
      (Sys2Proof.Machine.exec (.imageReadDone slot type false) s = .next ((s.flagErr .fls 20 0 0 none 0 0).slotFails slot.val)) ∧
      (∀ x, s.checkImage (mget [] s.flash.slots (slot.val * 8 + type.val)) = some x → x.type = type.val →
        Sys2Proof.Machine.exec (.imageReadDone slot type true) s = .next (s.modRst (fun r => { r with images := r.images ++ [x] })).judge) ∧
      (s.checkImage (mget [] s.flash.slots (slot.val * 8 + type.val)) = none →
        Sys2Proof.Machine.exec (.imageReadDone slot type true) s =
          .next (((s.bump (secR 0x150) 1).flagErr .sec 17 0 0 none 0 0).slotFails slot.val))) ∧
    (s.loadState = 2 → Sys2Proof.Machine.exec .loadChunkDone s =
      .next ((s.modRst (fun x => { x with loadData := x.loadData ++ (List.range x.loadLen).map (fun i => x.loadBuf.getD i 0) })).setFld (flsR 0x94) 3 0 1)) ∧
    (s.loadState ≠ 2 → Sys2Proof.Machine.exec .loadChunkDone s = .next s) ∧
    Sys2Proof.Machine.exec .loadOwnerTimeout s =
      .next (if s.fld (flsR 0x94) 31 30 ≠ 0 ∧ r.loadAt + 10000000000 ≤ s.time then s.endLoad.setFld (flsR 0x94) 3 0 0 else s) ∧
    (∀ x, s.flash.writing = some (x, false) →
      (r.prec = x → ∃ t, Sys2Proof.Machine.exec (.recordWriteDone true) s = .next t ∧ t.flash.writing = none ∧
        t.reg (flsR 0x84) = BitVec.ofNat 32 x.seq ∧
        (if t.fld (flsR 0x80) 0 0 = 0 then t.flash.bank0 else t.flash.bank1) = some x) ∧
      Sys2Proof.Machine.exec (.recordWriteDone false) s = .next { s with flash := { s.flash with writing := some (x, true) } }) ∧
    (∀ ok, s.flash.writing = none → Sys2Proof.Machine.exec (.recordWriteDone ok) s = .next s) ∧
    (∀ clerks : Byte, (r.judged = false ∨ s.allImages = false ∨ s.phase = 2 →
        Sys2Proof.Machine.exec (.tallymanHeartbeat clerks) s = .next s) ∧
      (r.judged = true → s.allImages = true → s.phase ≤ 1 → ∃ t, Sys2Proof.Machine.exec (.tallymanHeartbeat clerks) s = .next t ∧
        t.phase = 1 ∧ t.rst.beatAt = s.time ∧ t.reg (tlyR 0x88) = s.reg (tlyR 0x88) + 1))

/-! ### Power and heat -/

/-- R96, R402, R445 to R448, R450, R455: the reports and grants. A temperature of 110 °C on a deck, or 115 °C on a base or
gate die, trips; below it is shown. A demand is capped by the tower's limits; a raised grant takes effect 5 µs into
the epoch; a draw above the grant is throttled and counted once in an epoch; the grants of an epoch take effect at its
start. Clauses the spec leaves open rest on the model's choices of assumption logs 79, 100 and 102. -/
def Obligations.PowerEngine : Prop :=
  ∀ (s : State) (t : Tower),
    let i := t.val
    let x := s.tower i
    let released : Prop := 6 + i / 8 ≤ s.rst.ev
    (∀ (d : Deck) (h : HalfDeg), (s.rst.ev = 10 → s.rst.trip = false → 220 ≤ h.val →
        ∃ u, Sys2Proof.Machine.exec (.deckTempReport t d h) s = .next u ∧ u.rst.trip = true ∧ u.rst.modGood = false ∧ u.rst.ev = 0) ∧
      (s.rst.ev = 10 → h.val < 220 → ∃ u v : State, Sys2Proof.Machine.exec (.deckTempReport t d h) s = .next u.settleIdle ∧
        u = v.driftRetrain i ∧ mget 0 (v.tower i).temp d.val = h.val + 1) ∧
      (s.rst.ev ≠ 10 → Sys2Proof.Machine.exec (.deckTempReport t d h) s = .next s)) ∧
    (∀ h : HalfDeg, (released → s.rst.trip = false → 230 ≤ h.val →
        ∃ u, Sys2Proof.Machine.exec (.baseTempRead t h) s = .next u ∧ u.rst.trip = true) ∧
      (released → h.val < 230 → ∃ u, Sys2Proof.Machine.exec (.baseTempRead t h) s = .next u ∧ u.fld (thmR i 0x80) 31 20 = h.val ∧
        (u.tower i).stretch = heatStep baseBounds x.stretch h.val) ∧
      (¬ released → Sys2Proof.Machine.exec (.baseTempRead t h) s = .next s)) ∧
    (∀ (g : Fin 2) (h : HalfDeg), 3 ≤ s.rst.ev →
      (h.val < 210 → ∃ u, Sys2Proof.Machine.exec (.gateTempRead g h) s = .next u ∧ u.fld (gteR g.val 0x80) 31 20 = h.val ∧
        u.reg (gteR g.val 0xA4) = s.reg (gteR g.val 0xA4)) ∧
      (s.rst.trip = false → 230 ≤ h.val → ∃ u, Sys2Proof.Machine.exec (.gateTempRead g h) s = .next u ∧ u.rst.trip = true)) ∧
    (∀ (tsv : Fin 65536) (b : Fin 17) (core : Fin 65536), released → s.time % 100000 ≤ 90000 → x.oos = false →
      ∃ u dt db dc, Sys2Proof.Machine.exec (.demandReport t tsv b core) s = .next u ∧ (u.tower i).demand = some (dt, db, dc) ∧
        dt ≤ 296900000 ∧ dt ≤ tsv.val * 1250000 ∧ db ≤ b.val ∧ db ≤ s.maxBanks i ∧
        u.fld (thmR i 0x8C) 31 16 = (dt + 25390625 * db + dc) / 1250000 % 65536) ∧
    (3 ≤ s.rst.ev → 90000 ≤ s.time % 100000 → ∃ u, Sys2Proof.Machine.exec .grantCompute s = .next u ∧
      u.wgh.grants = s.wgh.grants ∧ u.time = s.time ∧ u.mem = s.mem) ∧
    (s.time % 100000 < 90000 → Sys2Proof.Machine.exec .grantCompute s = .next s) ∧
    (3 ≤ s.rst.ev → s.time % 100000 = 0 → ∃ u, Sys2Proof.Machine.exec .epochStart s = .next u ∧ u.wgh.grants = s.wgh.next ∧
      u.wgh.epochAt = s.time ∧ (u.tower i).demand = none) ∧
    (s.time % 100000 ≠ 0 → Sys2Proof.Machine.exec .epochStart s = .next s) ∧
    (x.rise = none → Sys2Proof.Machine.exec (.grantRise t) s = .next s) ∧
    (∀ g, x.rise = some g →
      (s.wgh.epochAt + 5000 ≤ s.time → Sys2Proof.Machine.exec (.grantRise t) s = .next (s.applyGrant i g)) ∧
      (s.time < s.wgh.epochAt + 5000 → Sys2Proof.Machine.exec (.grantRise t) s = .next s)) ∧
    (∀ m : Fin 65536, released → x.oos = false →
      let shown := s.setFld (thmR i 0x8C) 15 0 m.val
      (m.val * 1250000 ≤ mget 0 s.wgh.grants i →
        Sys2Proof.Machine.exec (.issueThrottle t m) s = .next (shown.setBit (thmR i 0x84) 6 false)) ∧
      (mget 0 s.wgh.grants i < m.val * 1250000 →
        let cut := (shown.setBit (thmR i 0x84) 6 true).modTower i (fun y => { y with clipped := true })
        Sys2Proof.Machine.exec (.issueThrottle t m) s =
          .next (if x.clipped then cut else ((cut.bump (thmR i 0xA0) 1).bump (wghR 0x100) 1).flagErr (.thm i) 18 0 0 none 0 0)))
end

