-- ==== Sys2Proof/Laws/Dispatch.lean ====
section
/-! SUPPORT. Which meaning exec calls, one equation per command. -/

namespace Sys2Proof.Machine

open Sys2Proof

@[simp] theorem exec_hawserPacket {s : State} {src} {dst} {id} {replays} : exec (.hawserPacket src dst id replays) s = Sys2Proof.Machine.execHawserPacket src dst id replays s := rfl
@[simp] theorem exec_hawserAck {s : State} {src} {dst} {n} : exec (.hawserAck src dst n) s = Sys2Proof.Machine.execHawserAck src dst n s := rfl
@[simp] theorem exec_linkDown {s : State} {t} {d} : exec (.linkDown t d) s = Sys2Proof.Machine.execLinkDown t d s := rfl
@[simp] theorem exec_regWrite {s : State} {src} {addr} {size} {val} : exec (.regWrite src addr size val) s = Sys2Proof.Machine.execRegWrite src addr size val s := rfl
@[simp] theorem exec_timeLoRead {s : State} {r} : exec (.timeLoRead r) s = Sys2Proof.Machine.execTimeLoRead r s := rfl
@[simp] theorem exec_bar2Read {s : State} {p} {rid} {off} {len} : exec (.bar2Read p rid off len) s = Sys2Proof.Machine.execBar2Read p rid off len s := rfl
@[simp] theorem exec_bar2Write {s : State} {p} {rid} {off} {data} {ep} : exec (.bar2Write p rid off data ep) s = Sys2Proof.Machine.execBar2Write p rid off data ep s := rfl
@[simp] theorem exec_winBaseWrite {s : State} {src} {p} {w} {val} : exec (.winBaseWrite src p w val) s = Sys2Proof.Machine.execWinBaseWrite src p w val s := rfl
@[simp] theorem exec_winCtlWrite {s : State} {src} {p} {w} {val} : exec (.winCtlWrite src p w val) s = Sys2Proof.Machine.execWinCtlWrite src p w val s := rfl
@[simp] theorem exec_acwHeldWrite {s : State} {src} {p} {a} {limit} {val} : exec (.acwHeldWrite src p a limit val) s = Sys2Proof.Machine.execAcwHeldWrite src p a limit val s := rfl
@[simp] theorem exec_acwCtlWrite {s : State} {src} {p} {a} {val} : exec (.acwCtlWrite src p a val) s = Sys2Proof.Machine.execAcwCtlWrite src p a val s := rfl
@[simp] theorem exec_memmapWrite {s : State} {src} {t} {val} : exec (.memmapWrite src t val) s = Sys2Proof.Machine.execMemmapWrite src t val s := rfl
@[simp] theorem exec_txnBegin {s : State} {src} {page} {group} : exec (.txnBegin src page group) s = Sys2Proof.Machine.execTxnBegin src page group s := rfl
@[simp] theorem exec_txnCommit {s : State} {src} {page} : exec (.txnCommit src page) s = Sys2Proof.Machine.execTxnCommit src page s := rfl
@[simp] theorem exec_txnRollback {s : State} {src} {page} : exec (.txnRollback src page) s = Sys2Proof.Machine.execTxnRollback src page s := rfl
@[simp] theorem exec_txgOpen {s : State} {src} {g} : exec (.txgOpen src g) s = Sys2Proof.Machine.execTxgOpen src g s := rfl
@[simp] theorem exec_txgCommit {s : State} {src} {g} : exec (.txgCommit src g) s = Sys2Proof.Machine.execTxgCommit src g s := rfl
@[simp] theorem exec_txgAbort {s : State} {src} {g} : exec (.txgAbort src g) s = Sys2Proof.Machine.execTxgAbort src g s := rfl
@[simp] theorem exec_txgTimeout {s : State} {g} : exec (.txgTimeout g) s = Sys2Proof.Machine.execTxgTimeout g s := rfl
@[simp] theorem exec_txgRelease {s : State} {g} : exec (.txgRelease g) s = Sys2Proof.Machine.execTxgRelease g s := rfl
@[simp] theorem exec_ifverReqWrite {s : State} {p} {rid} {val} : exec (.ifverReqWrite p rid val) s = Sys2Proof.Machine.execIfverReqWrite p rid val s := rfl
@[simp] theorem exec_swrstGo {s : State} {src} : exec (.swrstGo src) s = Sys2Proof.Machine.execSwrstGo src s := rfl
@[simp] theorem exec_softwareDeviceReset {s : State} : exec (.softwareDeviceReset) s = Sys2Proof.Machine.execSoftwareDeviceReset s := rfl
@[simp] theorem exec_stepBoundary {s : State} {st} : exec (.stepBoundary st) s = Sys2Proof.Machine.execStepBoundary st s := rfl
@[simp] theorem exec_channelCommandIssue {s : State} {t} {c} : exec (.channelCommandIssue t c) s = Sys2Proof.Machine.execChannelCommandIssue t c s := rfl
@[simp] theorem exec_memReadRequest {s : State} {da} {units} {tag} : exec (.memReadRequest da units tag) s = Sys2Proof.Machine.execMemReadRequest da units tag s := rfl
@[simp] theorem exec_memWriteRequest {s : State} {da} {data} {poison} : exec (.memWriteRequest da data poison) s = Sys2Proof.Machine.execMemWriteRequest da data poison s := rfl
@[simp] theorem exec_narrowRead {s : State} {da} {tag} : exec (.narrowRead da tag) s = Sys2Proof.Machine.execNarrowRead da tag s := rfl
@[simp] theorem exec_atomicAdd {s : State} {da} {af} {addend} {mask} : exec (.atomicAdd da af addend mask) s = Sys2Proof.Machine.execAtomicAdd da af addend mask s := rfl
@[simp] theorem exec_readDataReturn {s : State} {t} {c} {errs} : exec (.readDataReturn t c errs) s = Sys2Proof.Machine.execReadDataReturn t c errs s := rfl
@[simp] theorem exec_mirrorReadReturn {s : State} {t} {errs} : exec (.mirrorReadReturn t errs) s = Sys2Proof.Machine.execMirrorReadReturn t errs s := rfl
@[simp] theorem exec_mirrorRepairReadback {s : State} {t} {errs} : exec (.mirrorRepairReadback t errs) s = Sys2Proof.Machine.execMirrorRepairReadback t errs s := rfl
@[simp] theorem exec_wcbTimeoutFlush {s : State} {t} {c} : exec (.wcbTimeoutFlush t c) s = Sys2Proof.Machine.execWcbTimeoutFlush t c s := rfl
@[simp] theorem exec_atomicIdleWriteback {s : State} {t} {c} : exec (.atomicIdleWriteback t c) s = Sys2Proof.Machine.execAtomicIdleWriteback t c s := rfl
@[simp] theorem exec_refreshDue {s : State} {t} {c} {b} : exec (.refreshDue t c b) s = Sys2Proof.Machine.execRefreshDue t c b s := rfl
@[simp] theorem exec_patrolScrubRead {s : State} {t} {c} {b} {row} {unit} {errs} : exec (.patrolScrubRead t c b row unit errs) s = Sys2Proof.Machine.execPatrolScrubRead t c b row unit errs s := rfl
@[simp] theorem exec_parityError {s : State} {t} {c} {e} :
    exec (.parityError t c e) s = Sys2Proof.Machine.execParityError t c e s := rfl
@[simp] theorem exec_forcedRetrainStart {s : State} {t} {c} : exec (.forcedRetrainStart t c) s = Sys2Proof.Machine.execForcedRetrainStart t c s := rfl
@[simp] theorem exec_retrainSliceEnd {s : State} {t} {c} : exec (.retrainSliceEnd t c) s = Sys2Proof.Machine.execRetrainSliceEnd t c s := rfl
@[simp] theorem exec_retrainAttemptEnd {s : State} {t} {c} {converged} : exec (.retrainAttemptEnd t c converged) s = Sys2Proof.Machine.execRetrainAttemptEnd t c converged s := rfl
@[simp] theorem exec_trainReq {s : State} {src} {t} {c} : exec (.trainReq src t c) s = Sys2Proof.Machine.execTrainReq src t c s := rfl
@[simp] theorem exec_deckTempReport {s : State} {t} {deck} {half} : exec (.deckTempReport t deck half) s = Sys2Proof.Machine.execDeckTempReport t deck half s := rfl
@[simp] theorem exec_repairStart {s : State} {src} {t} {c} : exec (.repairStart src t c) s = Sys2Proof.Machine.execRepairStart src t c s := rfl
@[simp] theorem exec_repairAbort {s : State} {src} {t} {c} : exec (.repairAbort src t c) s = Sys2Proof.Machine.execRepairAbort src t c s := rfl
@[simp] theorem exec_repairRowCopy {s : State} {t} : exec (.repairRowCopy t) s = Sys2Proof.Machine.execRepairRowCopy t s := rfl
@[simp] theorem exec_tgGo {s : State} {src} {t} {c} {val} : exec (.tgGo src t c val) s = Sys2Proof.Machine.execTgGo src t c val s := rfl
@[simp] theorem exec_tgStop {s : State} {src} {t} {c} {val} : exec (.tgStop src t c val) s = Sys2Proof.Machine.execTgStop src t c val s := rfl
@[simp] theorem exec_tgRunDone {s : State} {t} {c} {cycles} : exec (.tgRunDone t c cycles) s = Sys2Proof.Machine.execTgRunDone t c cycles s := rfl
@[simp] theorem exec_memEnWrite {s : State} {src} {t} {c} {en} : exec (.memEnWrite src t c en) s = Sys2Proof.Machine.execMemEnWrite src t c en s := rfl
@[simp] theorem exec_bnRun {s : State} {t} {d} : exec (.bnRun t d) s = Sys2Proof.Machine.execBnRun t d s := rfl
@[simp] theorem exec_bnSetload {s : State} {t} {d} : exec (.bnSetload t d) s = Sys2Proof.Machine.execBnSetload t d s := rfl
@[simp] theorem exec_bnBload {s : State} {t} {d} : exec (.bnBload t d) s = Sys2Proof.Machine.execBnBload t d s := rfl
@[simp] theorem exec_bnRunComplete {s : State} {t} : exec (.bnRunComplete t) s = Sys2Proof.Machine.execBnRunComplete t s := rfl
@[simp] theorem exec_unitNop {s : State} {t} {u} : exec (.unitNop t u) s = Sys2Proof.Machine.execUnitNop t u s := rfl
@[simp] theorem exec_unitMac {s : State} {t} {u} : exec (.unitMac t u) s = Sys2Proof.Machine.execUnitMac t u s := rfl
@[simp] theorem exec_unitMul {s : State} {t} {u} : exec (.unitMul t u) s = Sys2Proof.Machine.execUnitMul t u s := rfl
@[simp] theorem exec_unitFma {s : State} {t} {u} : exec (.unitFma t u) s = Sys2Proof.Machine.execUnitFma t u s := rfl
@[simp] theorem exec_unitAdd {s : State} {t} {u} : exec (.unitAdd t u) s = Sys2Proof.Machine.execUnitAdd t u s := rfl
@[simp] theorem exec_unitSub {s : State} {t} {u} : exec (.unitSub t u) s = Sys2Proof.Machine.execUnitSub t u s := rfl
@[simp] theorem exec_unitMax {s : State} {t} {u} : exec (.unitMax t u) s = Sys2Proof.Machine.execUnitMax t u s := rfl
@[simp] theorem exec_unitMin {s : State} {t} {u} : exec (.unitMin t u) s = Sys2Proof.Machine.execUnitMin t u s := rfl
@[simp] theorem exec_unitCmpgt {s : State} {t} {u} : exec (.unitCmpgt t u) s = Sys2Proof.Machine.execUnitCmpgt t u s := rfl
@[simp] theorem exec_unitCmpge {s : State} {t} {u} : exec (.unitCmpge t u) s = Sys2Proof.Machine.execUnitCmpge t u s := rfl
@[simp] theorem exec_unitCmpeq {s : State} {t} {u} : exec (.unitCmpeq t u) s = Sys2Proof.Machine.execUnitCmpeq t u s := rfl
@[simp] theorem exec_unitSel {s : State} {t} {u} : exec (.unitSel t u) s = Sys2Proof.Machine.execUnitSel t u s := rfl
@[simp] theorem exec_unitExp2 {s : State} {t} {u} : exec (.unitExp2 t u) s = Sys2Proof.Machine.execUnitExp2 t u s := rfl
@[simp] theorem exec_unitLog2 {s : State} {t} {u} : exec (.unitLog2 t u) s = Sys2Proof.Machine.execUnitLog2 t u s := rfl
@[simp] theorem exec_unitHsum {s : State} {t} {u} : exec (.unitHsum t u) s = Sys2Proof.Machine.execUnitHsum t u s := rfl
@[simp] theorem exec_unitHmax {s : State} {t} {u} : exec (.unitHmax t u) s = Sys2Proof.Machine.execUnitHmax t u s := rfl
@[simp] theorem exec_unitRsum {s : State} {t} {u} : exec (.unitRsum t u) s = Sys2Proof.Machine.execUnitRsum t u s := rfl
@[simp] theorem exec_unitRmax {s : State} {t} {u} : exec (.unitRmax t u) s = Sys2Proof.Machine.execUnitRmax t u s := rfl
@[simp] theorem exec_unitMov {s : State} {t} {u} : exec (.unitMov t u) s = Sys2Proof.Machine.execUnitMov t u s := rfl
@[simp] theorem exec_unitSt {s : State} {t} {u} : exec (.unitSt t u) s = Sys2Proof.Machine.execUnitSt t u s := rfl
@[simp] theorem exec_unitClr {s : State} {t} {u} : exec (.unitClr t u) s = Sys2Proof.Machine.execUnitClr t u s := rfl
@[simp] theorem exec_unitOut {s : State} {t} {u} : exec (.unitOut t u) s = Sys2Proof.Machine.execUnitOut t u s := rfl
@[simp] theorem exec_kvIsolateWrite {s : State} {src} {t} {val} : exec (.kvIsolateWrite src t val) s = Sys2Proof.Machine.execKvIsolateWrite src t val s := rfl
@[simp] theorem exec_scrubProgramIssue {s : State} {t} : exec (.scrubProgramIssue t) s = Sys2Proof.Machine.execScrubProgramIssue t s := rfl
@[simp] theorem exec_scrubComplete {s : State} {t} : exec (.scrubComplete t) s = Sys2Proof.Machine.execScrubComplete t s := rfl
@[simp] theorem exec_mxCommand {s : State} {q} {d} : exec (.mxCommand q d) s = Sys2Proof.Machine.execMxCommand q d s := rfl
@[simp] theorem exec_vxNop {s : State} {q} {d} : exec (.vxNop q d) s = Sys2Proof.Machine.execVxNop q d s := rfl
@[simp] theorem exec_vxAdd {s : State} {q} {d} : exec (.vxAdd q d) s = Sys2Proof.Machine.execVxAdd q d s := rfl
@[simp] theorem exec_vxSub {s : State} {q} {d} : exec (.vxSub q d) s = Sys2Proof.Machine.execVxSub q d s := rfl
@[simp] theorem exec_vxMul {s : State} {q} {d} : exec (.vxMul q d) s = Sys2Proof.Machine.execVxMul q d s := rfl
@[simp] theorem exec_vxFma {s : State} {q} {d} : exec (.vxFma q d) s = Sys2Proof.Machine.execVxFma q d s := rfl
@[simp] theorem exec_vxMax {s : State} {q} {d} : exec (.vxMax q d) s = Sys2Proof.Machine.execVxMax q d s := rfl
@[simp] theorem exec_vxMin {s : State} {q} {d} : exec (.vxMin q d) s = Sys2Proof.Machine.execVxMin q d s := rfl
@[simp] theorem exec_vxSel {s : State} {q} {d} : exec (.vxSel q d) s = Sys2Proof.Machine.execVxSel q d s := rfl
@[simp] theorem exec_vxCmpgt {s : State} {q} {d} : exec (.vxCmpgt q d) s = Sys2Proof.Machine.execVxCmpgt q d s := rfl
@[simp] theorem exec_vxCmpge {s : State} {q} {d} : exec (.vxCmpge q d) s = Sys2Proof.Machine.execVxCmpge q d s := rfl
@[simp] theorem exec_vxCmpeq {s : State} {q} {d} : exec (.vxCmpeq q d) s = Sys2Proof.Machine.execVxCmpeq q d s := rfl
@[simp] theorem exec_vxMand {s : State} {q} {d} : exec (.vxMand q d) s = Sys2Proof.Machine.execVxMand q d s := rfl
@[simp] theorem exec_vxMor {s : State} {q} {d} : exec (.vxMor q d) s = Sys2Proof.Machine.execVxMor q d s := rfl
@[simp] theorem exec_vxMnot {s : State} {q} {d} : exec (.vxMnot q d) s = Sys2Proof.Machine.execVxMnot q d s := rfl
@[simp] theorem exec_vxExp2 {s : State} {q} {d} : exec (.vxExp2 q d) s = Sys2Proof.Machine.execVxExp2 q d s := rfl
@[simp] theorem exec_vxLog2 {s : State} {q} {d} : exec (.vxLog2 q d) s = Sys2Proof.Machine.execVxLog2 q d s := rfl
@[simp] theorem exec_vxRsqrt {s : State} {q} {d} : exec (.vxRsqrt q d) s = Sys2Proof.Machine.execVxRsqrt q d s := rfl
@[simp] theorem exec_vxRcp {s : State} {q} {d} : exec (.vxRcp q d) s = Sys2Proof.Machine.execVxRcp q d s := rfl
@[simp] theorem exec_vxCvt {s : State} {q} {d} : exec (.vxCvt q d) s = Sys2Proof.Machine.execVxCvt q d s := rfl
@[simp] theorem exec_vxLdt {s : State} {q} {d} : exec (.vxLdt q d) s = Sys2Proof.Machine.execVxLdt q d s := rfl
@[simp] theorem exec_vxStt {s : State} {q} {d} : exec (.vxStt q d) s = Sys2Proof.Machine.execVxStt q d s := rfl
@[simp] theorem exec_vxAcc {s : State} {q} {d} : exec (.vxAcc q d) s = Sys2Proof.Machine.execVxAcc q d s := rfl
@[simp] theorem exec_vxScl {s : State} {q} {d} : exec (.vxScl q d) s = Sys2Proof.Machine.execVxScl q d s := rfl
@[simp] theorem exec_vxRsum {s : State} {q} {d} : exec (.vxRsum q d) s = Sys2Proof.Machine.execVxRsum q d s := rfl
@[simp] theorem exec_vxRmax {s : State} {q} {d} : exec (.vxRmax q d) s = Sys2Proof.Machine.execVxRmax q d s := rfl
@[simp] theorem exec_vxRargmax {s : State} {q} {d} : exec (.vxRargmax q d) s = Sys2Proof.Machine.execVxRargmax q d s := rfl
@[simp] theorem exec_vxTopk {s : State} {q} {d} : exec (.vxTopk q d) s = Sys2Proof.Machine.execVxTopk q d s := rfl
@[simp] theorem exec_vxSample {s : State} {q} {d} : exec (.vxSample q d) s = Sys2Proof.Machine.execVxSample q d s := rfl
@[simp] theorem exec_vxMerge {s : State} {q} {d} : exec (.vxMerge q d) s = Sys2Proof.Machine.execVxMerge q d s := rfl
@[simp] theorem exec_vxQnt {s : State} {q} {d} : exec (.vxQnt q d) s = Sys2Proof.Machine.execVxQnt q d s := rfl
@[simp] theorem exec_mvCopy {s : State} {q} {d} : exec (.mvCopy q d) s = Sys2Proof.Machine.execMvCopy q d s := rfl
@[simp] theorem exec_mvConvert {s : State} {q} {d} : exec (.mvConvert q d) s = Sys2Proof.Machine.execMvConvert q d s := rfl
@[simp] theorem exec_mvFill {s : State} {q} {d} : exec (.mvFill q d) s = Sys2Proof.Machine.execMvFill q d s := rfl
@[simp] theorem exec_mvAtomic {s : State} {q} {d} : exec (.mvAtomic q d) s = Sys2Proof.Machine.execMvAtomic q d s := rfl
@[simp] theorem exec_mvHostrd {s : State} {q} {d} : exec (.mvHostrd q d) s = Sys2Proof.Machine.execMvHostrd q d s := rfl
@[simp] theorem exec_mvHostwr {s : State} {q} {d} : exec (.mvHostwr q d) s = Sys2Proof.Machine.execMvHostwr q d s := rfl
@[simp] theorem exec_pack {s : State} {q} {d} : exec (.pack q d) s = Sys2Proof.Machine.execPack q d s := rfl
@[simp] theorem exec_syFence {s : State} {q} {d} : exec (.syFence q d) s = Sys2Proof.Machine.execSyFence q d s := rfl
@[simp] theorem exec_syWait {s : State} {q} {d} : exec (.syWait q d) s = Sys2Proof.Machine.execSyWait q d s := rfl
@[simp] theorem exec_syPost {s : State} {q} {d} : exec (.syPost q d) s = Sys2Proof.Machine.execSyPost q d s := rfl
@[simp] theorem exec_syStamp {s : State} {q} {d} : exec (.syStamp q d) s = Sys2Proof.Machine.execSyStamp q d s := rfl
@[simp] theorem exec_stDescriptor {s : State} {q} {d} : exec (.stDescriptor q d) s = Sys2Proof.Machine.execStDescriptor q d s := rfl
@[simp] theorem exec_waitTimeout {s : State} {q} : exec (.waitTimeout q) s = Sys2Proof.Machine.execWaitTimeout q s := rfl
@[simp] theorem exec_word0WaitTimeout {s : State} {q} : exec (.word0WaitTimeout q) s = Sys2Proof.Machine.execWord0WaitTimeout q s := rfl
@[simp] theorem exec_descriptorComplete {s : State} {q} : exec (.descriptorComplete q) s = Sys2Proof.Machine.execDescriptorComplete q s := rfl
@[simp] theorem exec_sliceExpiry {s : State} {r} : exec (.sliceExpiry r) s = Sys2Proof.Machine.execSliceExpiry r s := rfl
@[simp] theorem exec_ringCtlWrite {s : State} {src} {p} {n} {val} : exec (.ringCtlWrite src p n val) s = Sys2Proof.Machine.execRingCtlWrite src p n val s := rfl
@[simp] theorem exec_stepIntake {s : State} {st} {samples} : exec (.stepIntake st samples) s = Sys2Proof.Machine.execStepIntake st samples s := rfl
@[simp] theorem exec_idleSampleTimer {s : State} {st} {samples} : exec (.idleSampleTimer st samples) s = Sys2Proof.Machine.execIdleSampleTimer st samples s := rfl
@[simp] theorem exec_hostReadCompletion {s : State} {p} {tag} {ok} {ep} {data} : exec (.hostReadCompletion p tag ok ep data) s = Sys2Proof.Machine.execHostReadCompletion p tag ok ep data s := rfl
@[simp] theorem exec_cplTimeout {s : State} {p} {tag} : exec (.cplTimeout p tag) s = Sys2Proof.Machine.execCplTimeout p tag s := rfl
@[simp] theorem exec_openSession {s : State} {p} {n} {r} : exec (.openSession p n r) s = Sys2Proof.Machine.execOpenSession p n r s := rfl
@[simp] theorem exec_submit {s : State} {p} {n} {r} : exec (.submit p n r) s = Sys2Proof.Machine.execSubmit p n r s := rfl
@[simp] theorem exec_append {s : State} {p} {n} {r} : exec (.append p n r) s = Sys2Proof.Machine.execAppend p n r s := rfl
@[simp] theorem exec_draft {s : State} {p} {n} {r} : exec (.draft p n r) s = Sys2Proof.Machine.execDraft p n r s := rfl
@[simp] theorem exec_cancel {s : State} {p} {n} {r} : exec (.cancel p n r) s = Sys2Proof.Machine.execCancel p n r s := rfl
@[simp] theorem exec_close {s : State} {p} {n} {r} : exec (.close p n r) s = Sys2Proof.Machine.execClose p n r s := rfl
@[simp] theorem exec_expertList {s : State} {p} {n} {r} : exec (.expertList p n r) s = Sys2Proof.Machine.execExpertList p n r s := rfl
@[simp] theorem exec_stepAdmission {s : State} {st} : exec (.stepAdmission st) s = Sys2Proof.Machine.execStepAdmission st s := rfl
@[simp] theorem exec_stepAllocate {s : State} {st} : exec (.stepAllocate st) s = Sys2Proof.Machine.execStepAllocate st s := rfl
@[simp] theorem exec_stepLayers {s : State} {st} {rows} : exec (.stepLayers st rows) s = Sys2Proof.Machine.execStepLayers st rows s := rfl
@[simp] theorem exec_layerCheck {s : State} {st} {layer} : exec (.layerCheck st layer) s = Sys2Proof.Machine.execLayerCheck st layer s := rfl
@[simp] theorem exec_stepVerify {s : State} {st} : exec (.stepVerify st) s = Sys2Proof.Machine.execStepVerify st s := rfl
@[simp] theorem exec_stepCommit {s : State} {st} : exec (.stepCommit st) s = Sys2Proof.Machine.execStepCommit st s := rfl
@[simp] theorem exec_stepEmit {s : State} {st} {rooms} : exec (.stepEmit st rooms) s = Sys2Proof.Machine.execStepEmit st rooms s := rfl
@[simp] theorem exec_stepFree {s : State} {st} : exec (.stepFree st) s = Sys2Proof.Machine.execStepFree st s := rfl
@[simp] theorem exec_resultHoldRetry {s : State} {p} {n} {rcons} : exec (.resultHoldRetry p n rcons) s = Sys2Proof.Machine.execResultHoldRetry p n rcons s := rfl
@[simp] theorem exec_msixModeration {s : State} {p} {n} : exec (.msixModeration p n) s = Sys2Proof.Machine.execMsixModeration p n s := rfl
@[simp] theorem exec_msixVectorUnmask {s : State} {p} {e} :
    exec (.msixVectorUnmask p e) s = Sys2Proof.Machine.execMsixVectorUnmask p e s := rfl
@[simp] theorem exec_admissionTimeout {s : State} {st} {ctx} {sid} : exec (.admissionTimeout st ctx sid) s = Sys2Proof.Machine.execAdmissionTimeout st ctx sid s := rfl
@[simp] theorem exec_lcParkExpiry {s : State} {st} : exec (.lcParkExpiry st) s = Sys2Proof.Machine.execLcParkExpiry st s := rfl
@[simp] theorem exec_parkMaxExpiry {s : State} {t} : exec (.parkMaxExpiry t) s = Sys2Proof.Machine.execParkMaxExpiry t s := rfl
@[simp] theorem exec_stepRecordRefresh {s : State} {t} {r} : exec (.stepRecordRefresh t r) s = Sys2Proof.Machine.execStepRecordRefresh t r s := rfl
@[simp] theorem exec_histogramStep {s : State} {st} : exec (.histogramStep st) s = Sys2Proof.Machine.execHistogramStep st s := rfl
@[simp] theorem exec_tabLoad {s : State} {src} {t} {tid} : exec (.tabLoad src t tid) s = Sys2Proof.Machine.execTabLoad src t tid s := rfl
@[simp] theorem exec_partitionChange {s : State} {src} {val} : exec (.partitionChange src val) s = Sys2Proof.Machine.execPartitionChange src val s := rfl
@[simp] theorem exec_claim {s : State} {src} {p} {st} : exec (.claim src p st) s = Sys2Proof.Machine.execClaim src p st s := rfl
@[simp] theorem exec_release {s : State} {src} {p} {st} : exec (.release src p st) s = Sys2Proof.Machine.execRelease src p st s := rfl
@[simp] theorem exec_ownerSet {s : State} {src} {st} {port} : exec (.ownerSet src st port) s = Sys2Proof.Machine.execOwnerSet src st port s := rfl
@[simp] theorem exec_reconfGo {s : State} {src} {st} {force} : exec (.reconfGo src st force) s = Sys2Proof.Machine.execReconfGo src st force s := rfl
@[simp] theorem exec_reconfiguration {s : State} {st} : exec (.reconfiguration st) s = Sys2Proof.Machine.execReconfiguration st s := rfl
@[simp] theorem exec_contextOpen {s : State} {src} {st} {k} {val} : exec (.contextOpen src st k val) s = Sys2Proof.Machine.execContextOpen src st k val s := rfl
@[simp] theorem exec_contextClose {s : State} {src} {st} {k} : exec (.contextClose src st k) s = Sys2Proof.Machine.execContextClose src st k s := rfl
@[simp] theorem exec_stallResetDone {s : State} {st} : exec (.stallResetDone st) s = Sys2Proof.Machine.execStallResetDone st s := rfl
@[simp] theorem exec_brstWrite {s : State} {src} {page} : exec (.brstWrite src page) s = Sys2Proof.Machine.execBrstWrite src page s := rfl
@[simp] theorem exec_brstDone {s : State} {page} : exec (.brstDone page) s = Sys2Proof.Machine.execBrstDone page s := rfl
@[simp] theorem exec_perst {s : State} {p} : exec (.perst p) s = Sys2Proof.Machine.execPerst p s := rfl
@[simp] theorem exec_hotReset {s : State} {p} : exec (.hotReset p) s = Sys2Proof.Machine.execHotReset p s := rfl
@[simp] theorem exec_portLinkDown {s : State} {p} : exec (.portLinkDown p) s = Sys2Proof.Machine.execPortLinkDown p s := rfl
@[simp] theorem exec_flr {s : State} {p} : exec (.flr p) s = Sys2Proof.Machine.execFlr p s := rfl
@[simp] theorem exec_isolationComplete {s : State} {p} : exec (.isolationComplete p) s = Sys2Proof.Machine.execIsolationComplete p s := rfl
@[simp] theorem exec_flrComplete {s : State} {p} : exec (.flrComplete p) s = Sys2Proof.Machine.execFlrComplete p s := rfl
@[simp] theorem exec_linkUp {s : State} {p} {rate} {width} {flit} {reversed} : exec (.linkUp p rate width flit reversed) s = Sys2Proof.Machine.execLinkUp p rate width flit reversed s := rfl
@[simp] theorem exec_configRequest {s : State} {p} {wr} {off} {val} : exec (.configRequest p wr off val) s = Sys2Proof.Machine.execConfigRequest p wr off val s := rfl
@[simp] theorem exec_unsupportedRequest {s : State} {p} {rid} {kind} {addr} : exec (.unsupportedRequest p rid kind addr) s = Sys2Proof.Machine.execUnsupportedRequest p rid kind addr s := rfl
@[simp] theorem exec_mctpPacket {s : State} {m} {phys} {bytes} {pecOk} : exec (.mctpPacket m phys bytes pecOk) s = Sys2Proof.Machine.execMctpPacket m phys bytes pecOk s := rfl
@[simp] theorem exec_assemblyTimeout {s : State} {key} : exec (.assemblyTimeout key) s = Sys2Proof.Machine.execAssemblyTimeout key s := rfl
@[simp] theorem exec_setdasa {s : State} {static} {dyn} : exec (.setdasa static dyn) s = Sys2Proof.Machine.execSetdasa static dyn s := rfl
@[simp] theorem exec_entdaa {s : State} {won} {dyn} : exec (.entdaa won dyn) s = Sys2Proof.Machine.execEntdaa won dyn s := rfl
@[simp] theorem exec_rstdaa {s : State} : exec (.rstdaa) s = Sys2Proof.Machine.execRstdaa s := rfl
@[simp] theorem exec_hdrEntry {s : State} : exec (.hdrEntry) s = Sys2Proof.Machine.execHdrEntry s := rfl
@[simp] theorem exec_i3cParityError {s : State} : exec (.i3cParityError) s = Sys2Proof.Machine.execI3cParityError s := rfl
@[simp] theorem exec_busTimeout {s : State} : exec (.busTimeout) s = Sys2Proof.Machine.execBusTimeout s := rfl
@[simp] theorem exec_setEndpointId {s : State} {m} {w} {op} {eid} : exec (.setEndpointId m w op eid) s = Sys2Proof.Machine.execSetEndpointId m w op eid s := rfl
@[simp] theorem exec_mctpControl {s : State} {m} {w} {cmd} {body} : exec (.mctpControl m w cmd body) s = Sys2Proof.Machine.execMctpControl m w cmd body s := rfl
@[simp] theorem exec_registerAccessRead {s : State} {m} {w} {body} : exec (.registerAccessRead m w body) s = Sys2Proof.Machine.execRegisterAccessRead m w body s := rfl
@[simp] theorem exec_registerAccessWrite {s : State} {m} {w} {secured} {body} : exec (.registerAccessWrite m w secured body) s = Sys2Proof.Machine.execRegisterAccessWrite m w secured body s := rfl
@[simp] theorem exec_responseAttempt {s : State} {m} {lost} {nack} : exec (.responseAttempt m lost nack) s = Sys2Proof.Machine.execResponseAttempt m lost nack s := rfl
@[simp] theorem exec_backoffExpiry {s : State} {m} : exec (.backoffExpiry m) s = Sys2Proof.Machine.execBackoffExpiry m s := rfl
@[simp] theorem exec_pldmBase {s : State} {m} {w} {body} : exec (.pldmBase m w body) s = Sys2Proof.Machine.execPldmBase m w body s := rfl
@[simp] theorem exec_getSensorReading {s : State} {m} {w} {body} : exec (.getSensorReading m w body) s = Sys2Proof.Machine.execGetSensorReading m w body s := rfl
@[simp] theorem exec_setNumericEffecterValue {s : State} {m} {w} {body} : exec (.setNumericEffecterValue m w body) s = Sys2Proof.Machine.execSetNumericEffecterValue m w body s := rfl
@[simp] theorem exec_setEventReceiver {s : State} {m} {w} {body} : exec (.setEventReceiver m w body) s = Sys2Proof.Machine.execSetEventReceiver m w body s := rfl
@[simp] theorem exec_pldmFirmwareUpdate {s : State} {m} {w} {body} : exec (.pldmFirmwareUpdate m w body) s = Sys2Proof.Machine.execPldmFirmwareUpdate m w body s := rfl
@[simp] theorem exec_getVersion {s : State} {m} {w} {body} : exec (.getVersion m w body) s = Sys2Proof.Machine.execGetVersion m w body s := rfl
@[simp] theorem exec_getCapabilities {s : State} {m} {w} {body} : exec (.getCapabilities m w body) s = Sys2Proof.Machine.execGetCapabilities m w body s := rfl
@[simp] theorem exec_negotiateAlgorithms {s : State} {m} {w} {body} : exec (.negotiateAlgorithms m w body) s = Sys2Proof.Machine.execNegotiateAlgorithms m w body s := rfl
@[simp] theorem exec_getDigests {s : State} {m} {w} {body} : exec (.getDigests m w body) s = Sys2Proof.Machine.execGetDigests m w body s := rfl
@[simp] theorem exec_getCertificate {s : State} {m} {w} {body} : exec (.getCertificate m w body) s = Sys2Proof.Machine.execGetCertificate m w body s := rfl
@[simp] theorem exec_challenge {s : State} {m} {w} {body} : exec (.challenge m w body) s = Sys2Proof.Machine.execChallenge m w body s := rfl
@[simp] theorem exec_getMeasurements {s : State} {m} {w} {body} : exec (.getMeasurements m w body) s = Sys2Proof.Machine.execGetMeasurements m w body s := rfl
@[simp] theorem exec_keyExchange {s : State} {m} {w} {body} : exec (.keyExchange m w body) s = Sys2Proof.Machine.execKeyExchange m w body s := rfl
@[simp] theorem exec_finish {s : State} {m} {w} {ok} {body} : exec (.finish m w ok body) s = Sys2Proof.Machine.execFinish m w ok body s := rfl
@[simp] theorem exec_heartbeat {s : State} {m} {w} {body} : exec (.heartbeat m w body) s = Sys2Proof.Machine.execHeartbeat m w body s := rfl
@[simp] theorem exec_keyUpdate {s : State} {m} {w} {body} : exec (.keyUpdate m w body) s = Sys2Proof.Machine.execKeyUpdate m w body s := rfl
@[simp] theorem exec_endSession {s : State} {m} {w} {body} : exec (.endSession m w body) s = Sys2Proof.Machine.execEndSession m w body s := rfl
@[simp] theorem exec_chunkSend {s : State} {m} {w} {body} : exec (.chunkSend m w body) s = Sys2Proof.Machine.execChunkSend m w body s := rfl
@[simp] theorem exec_chunkGet {s : State} {m} {w} {body} : exec (.chunkGet m w body) s = Sys2Proof.Machine.execChunkGet m w body s := rfl
@[simp] theorem exec_securedMessage {s : State} {m} {w} {session} {ok} {body} : exec (.securedMessage m w session ok body) s = Sys2Proof.Machine.execSecuredMessage m w session ok body s := rfl
@[simp] theorem exec_arbCommit {s : State} {src} {type} : exec (.arbCommit src type) s = Sys2Proof.Machine.execArbCommit src type s := rfl
@[simp] theorem exec_revoke {s : State} {src} {idx} : exec (.revoke src idx) s = Sys2Proof.Machine.execRevoke src idx s := rfl
@[simp] theorem exec_newkey {s : State} {src} {st} : exec (.newkey src st) s = Sys2Proof.Machine.execNewkey src st s := rfl
@[simp] theorem exec_importKey {s : State} {src} {st} : exec (.importKey src st) s = Sys2Proof.Machine.execImportKey src st s := rfl
@[simp] theorem exec_kimportWrite {s : State} {src} {k} {val} : exec (.kimportWrite src k val) s = Sys2Proof.Machine.execKimportWrite src k val s := rfl
@[simp] theorem exec_drbgReseed {s : State} : exec (.drbgReseed) s = Sys2Proof.Machine.execDrbgReseed s := rfl
@[simp] theorem exec_entropyFail {s : State} : exec (.entropyFail) s = Sys2Proof.Machine.execEntropyFail s := rfl
@[simp] theorem exec_tapUnlock {s : State} : exec (.tapUnlock) s = Sys2Proof.Machine.execTapUnlock s := rfl
@[simp] theorem exec_powerOn {s : State} : exec (.powerOn) s = Sys2Proof.Machine.execPowerOn s := rfl
@[simp] theorem exec_resetNAssert {s : State} : exec (.resetNAssert) s = Sys2Proof.Machine.execResetNAssert s := rfl
@[simp] theorem exec_resetNFilterExpiry {s : State} : exec (.resetNFilterExpiry) s = Sys2Proof.Machine.execResetNFilterExpiry s := rfl
@[simp] theorem exec_resetNRelease {s : State} {lowNs} {straps} : exec (.resetNRelease lowNs straps) s = Sys2Proof.Machine.execResetNRelease lowNs straps s := rfl
@[simp] theorem exec_pwrGoodLow {s : State} : exec (.pwrGoodLow) s = Sys2Proof.Machine.execPwrGoodLow s := rfl
@[simp] theorem exec_refclkStop {s : State} : exec (.refclkStop) s = Sys2Proof.Machine.execRefclkStop s := rfl
@[simp] theorem exec_refclkLossTimeout {s : State} : exec (.refclkLossTimeout) s = Sys2Proof.Machine.execRefclkLossTimeout s := rfl
@[simp] theorem exec_watchdogExpiry {s : State} : exec (.watchdogExpiry) s = Sys2Proof.Machine.execWatchdogExpiry s := rfl
@[simp] theorem exec_tallymanHeartbeat {s : State} {clerks} : exec (.tallymanHeartbeat clerks) s = Sys2Proof.Machine.execTallymanHeartbeat clerks s := rfl
@[simp] theorem exec_startTimeout {s : State} : exec (.startTimeout) s = Sys2Proof.Machine.execStartTimeout s := rfl
@[simp] theorem exec_startConfirm {s : State} : exec (.startConfirm) s = Sys2Proof.Machine.execStartConfirm s := rfl
@[simp] theorem exec_criticalStateError {s : State} {crit} {tower} : exec (.criticalStateError crit tower) s = Sys2Proof.Machine.execCriticalStateError crit tower s := rfl
@[simp] theorem exec_fatalError {s : State} {kind} : exec (.fatalError kind) s = Sys2Proof.Machine.execFatalError kind s := rfl
@[simp] theorem exec_fatalHandlingEnd {s : State} : exec (.fatalHandlingEnd) s = Sys2Proof.Machine.execFatalHandlingEnd s := rfl
@[simp] theorem exec_domainReleaseEvent {s : State} {locked} : exec (.domainReleaseEvent locked) s = Sys2Proof.Machine.execDomainReleaseEvent locked s := rfl
@[simp] theorem exec_memoryInitDone {s : State} {failed} : exec (.memoryInitDone failed) s = Sys2Proof.Machine.execMemoryInitDone failed s := rfl
@[simp] theorem exec_bootRecordRead {s : State} : exec (.bootRecordRead) s = Sys2Proof.Machine.execBootRecordRead s := rfl
@[simp] theorem exec_imageReadDone {s : State} {slot} {type} {ok} : exec (.imageReadDone slot type ok) s = Sys2Proof.Machine.execImageReadDone slot type ok s := rfl
@[simp] theorem exec_loadBegin {s : State} {src} : exec (.loadBegin src) s = Sys2Proof.Machine.execLoadBegin src s := rfl
@[simp] theorem exec_loadChunk {s : State} {src} {len} : exec (.loadChunk src len) s = Sys2Proof.Machine.execLoadChunk src len s := rfl
@[simp] theorem exec_loadChunkDone {s : State} : exec (.loadChunkDone) s = Sys2Proof.Machine.execLoadChunkDone s := rfl
@[simp] theorem exec_loadEnd {s : State} {src} : exec (.loadEnd src) s = Sys2Proof.Machine.execLoadEnd src s := rfl
@[simp] theorem exec_loadAbort {s : State} {src} : exec (.loadAbort src) s = Sys2Proof.Machine.execLoadAbort src s := rfl
@[simp] theorem exec_loadOwnerTimeout {s : State} : exec (.loadOwnerTimeout) s = Sys2Proof.Machine.execLoadOwnerTimeout s := rfl
@[simp] theorem exec_bootRetry {s : State} {src} : exec (.bootRetry src) s = Sys2Proof.Machine.execBootRetry src s := rfl
@[simp] theorem exec_slotSwap {s : State} {src} : exec (.slotSwap src) s = Sys2Proof.Machine.execSlotSwap src s := rfl
@[simp] theorem exec_recordWriteDone {s : State} {ok} : exec (.recordWriteDone ok) s = Sys2Proof.Machine.execRecordWriteDone ok s := rfl
@[simp] theorem exec_errSelWrite {s : State} {src} {val} : exec (.errSelWrite src val) s = Sys2Proof.Machine.execErrSelWrite src val s := rfl
@[simp] theorem exec_sevHistoryFlush {s : State} : exec (.sevHistoryFlush) s = Sys2Proof.Machine.execSevHistoryFlush s := rfl
@[simp] theorem exec_integResume {s : State} {src} {st} : exec (.integResume src st) s = Sys2Proof.Machine.execIntegResume src st s := rfl
@[simp] theorem exec_integrityCheckDone {s : State} {st} : exec (.integrityCheckDone st) s = Sys2Proof.Machine.execIntegrityCheckDone st s := rfl
@[simp] theorem exec_gateMemoryError {s : State} {g} {correctable} : exec (.gateMemoryError g correctable) s = Sys2Proof.Machine.execGateMemoryError g correctable s := rfl
@[simp] theorem exec_epochStart {s : State} : exec (.epochStart) s = Sys2Proof.Machine.execEpochStart s := rfl
@[simp] theorem exec_demandReport {s : State} {t} {tsv} {banks} {core} : exec (.demandReport t tsv banks core) s = Sys2Proof.Machine.execDemandReport t tsv banks core s := rfl
@[simp] theorem exec_grantCompute {s : State} : exec (.grantCompute) s = Sys2Proof.Machine.execGrantCompute s := rfl
@[simp] theorem exec_grantRise {s : State} {t} : exec (.grantRise t) s = Sys2Proof.Machine.execGrantRise t s := rfl
@[simp] theorem exec_issueThrottle {s : State} {t} {measured} : exec (.issueThrottle t measured) s = Sys2Proof.Machine.execIssueThrottle t measured s := rfl
@[simp] theorem exec_baseTempRead {s : State} {t} {half} : exec (.baseTempRead t half) s = Sys2Proof.Machine.execBaseTempRead t half s := rfl
@[simp] theorem exec_gateTempRead {s : State} {g} {half} : exec (.gateTempRead g half) s = Sys2Proof.Machine.execGateTempRead g half s := rfl
@[simp] theorem exec_moduleWWrite {s : State} {src} {val} : exec (.moduleWWrite src val) s = Sys2Proof.Machine.execModuleWWrite src val s := rfl
@[simp] theorem exec_pwrEnRise {s : State} : exec (.pwrEnRise) s = Sys2Proof.Machine.execPwrEnRise s := rfl
@[simp] theorem exec_softStartDone {s : State} {straps} : exec (.softStartDone straps) s = Sys2Proof.Machine.execSoftStartDone straps s := rfl
@[simp] theorem exec_pwrEnFall {s : State} : exec (.pwrEnFall) s = Sys2Proof.Machine.execPwrEnFall s := rfl
@[simp] theorem exec_pwrEnHoldoffExpiry {s : State} : exec (.pwrEnHoldoffExpiry) s = Sys2Proof.Machine.execPwrEnHoldoffExpiry s := rfl
@[simp] theorem exec_vmainUndervoltage {s : State} : exec (.vmainUndervoltage) s = Sys2Proof.Machine.execVmainUndervoltage s := rfl
@[simp] theorem exec_vmainOvervoltage {s : State} : exec (.vmainOvervoltage) s = Sys2Proof.Machine.execVmainOvervoltage s := rfl
@[simp] theorem exec_supplyFaultClear {s : State} : exec (.supplyFaultClear) s = Sys2Proof.Machine.execSupplyFaultClear s := rfl
@[simp] theorem exec_vsbLoss {s : State} : exec (.vsbLoss) s = Sys2Proof.Machine.execVsbLoss s := rfl
@[simp] theorem exec_perstDeassert {s : State} {p} : exec (.perstDeassert p) s = Sys2Proof.Machine.execPerstDeassert p s := rfl
@[simp] theorem exec_hdrExit {s : State} : exec (.hdrExit) s = Sys2Proof.Machine.execHdrExit s := rfl
@[simp] theorem exec_refclkReturn {s : State} : exec (.refclkReturn) s = Sys2Proof.Machine.execRefclkReturn s := rfl
@[simp] theorem exec_pwrGoodRelease {s : State} {straps} : exec (.pwrGoodRelease straps) s = Sys2Proof.Machine.execPwrGoodRelease straps s := rfl
@[simp] theorem exec_reconfigurationDone {s : State} {st} : exec (.reconfigurationDone st) s = Sys2Proof.Machine.execReconfigurationDone st s := rfl

end Sys2Proof.Machine
end

