-- ==== Sys2Proof/Laws/Maps.lean ====
section
/-! SUPPORT. Sparse maps: a read after a write gives the value written, a write leaves every other key alone, and every
write keeps the canonical form; so does every operation over memory cells. -/

namespace Sys2Proof.Machine

variable {α : Type}

theorem mget_mput_same (d : α) (m : List (Nat × α)) (k : Nat) (v : α) : mget d (mput m k v) k = v := by
  induction m with
  | nil => simp [mput, mget]
  | cons x t ih =>
    obtain ⟨k', v'⟩ := x
    unfold mput
    split
    · simp [mget]
    · split
      · simp [mget]
      · simp only [mget]; rw [if_neg (by assumption)]; exact ih

theorem mget_mput_other (d : α) (m : List (Nat × α)) {k j : Nat} (v : α) (h : j ≠ k) :
    mget d (mput m k v) j = mget d m j := by
  induction m with
  | nil => simp [mput, mget, Ne.symm h]
  | cons x t ih =>
    obtain ⟨k', v'⟩ := x
    unfold mput
    split
    · simp [mget, Ne.symm h]
    · split
      · next e => subst e; simp [mget, Ne.symm h]
      · simp only [mget, ih]

theorem mget_filter_same (d : α) (m : List (Nat × α)) (k : Nat) : mget d (m.filter (fun x => !(x.1 == k))) k = d := by
  induction m with
  | nil => rfl
  | cons x t ih =>
    obtain ⟨k', v'⟩ := x
    by_cases e : k' = k
    · simpa [e] using ih
    · simp only [List.filter_cons, e, Bool.not_eq_true', beq_eq_false_iff_ne, ne_eq, not_false_eq_true, if_true, mget,
        if_false]
      exact ih

theorem mget_filter_other (d : α) (m : List (Nat × α)) {k j : Nat} (h : j ≠ k) :
    mget d (m.filter (fun x => !(x.1 == k))) j = mget d m j := by
  induction m with
  | nil => rfl
  | cons x t ih =>
    obtain ⟨k', v'⟩ := x
    by_cases e : k' = k
    · subst e; simpa [mget, Ne.symm h] using ih
    · simp only [List.filter_cons, e, Bool.not_eq_true', beq_eq_false_iff_ne, ne_eq, not_false_eq_true, if_true, mget, ih]

variable [DecidableEq α]

/-- A read of the key just written gives the value written. -/
@[simp] theorem mget_mset_same (d : α) (m : List (Nat × α)) (k : Nat) (v : α) : mget d (mset d m k v) k = v := by
  unfold mset
  split
  · next h => subst h; exact mget_filter_same _ m k
  · exact mget_mput_same d m k v

/-- A write leaves every other key alone. -/
theorem mget_mset_other (d : α) (m : List (Nat × α)) {k j : Nat} (v : α) (h : j ≠ k) :
    mget d (mset d m k v) j = mget d m j := by
  unfold mset
  split
  · exact mget_filter_other d m h
  · exact mget_mput_other d m v h

/-- What a read sees after a write. -/
theorem mget_mset (d : α) (m : List (Nat × α)) (k j : Nat) (v : α) :
    mget d (mset d m k v) j = if j = k then v else mget d m j := by
  split
  · next h => subst h; exact mget_mset_same d m j v
  · next h => exact mget_mset_other d m v h

/-! ### The canonical form -/

theorem mwfFrom_mono {d : α} {m : List (Nat × α)} {a b : Option Nat} (h : mwfFrom d b m = true)
    (hab : ∀ x, a = some x → ∃ y, b = some y ∧ x ≤ y) : mwfFrom d a m = true := by
  cases m with
  | nil => rfl
  | cons x t =>
    obtain ⟨k, v⟩ := x
    simp only [mwfFrom, Bool.and_eq_true] at h ⊢
    refine ⟨⟨?_, h.1.2⟩, h.2⟩
    cases a with
    | none => rfl
    | some x =>
      obtain ⟨y, hy, hxy⟩ := hab x rfl
      subst hy
      have h1 := h.1.1
      simp only [decide_eq_true_eq] at h1 ⊢
      omega

theorem mwfFrom_mput {d : α} {m : List (Nat × α)} {lo : Option Nat} {k : Nat} {v : α} (h : mwfFrom d lo m = true)
    (hk : ∀ x, lo = some x → x < k) (hv : v ≠ d) : mwfFrom d lo (mput m k v) = true := by
  induction m generalizing lo with
  | nil =>
    cases lo with
    | none => simp [mput, mwfFrom, hv]
    | some x => simp [mput, mwfFrom, hv, hk x rfl]
  | cons y t ih =>
    obtain ⟨k', v'⟩ := y
    simp only [mwfFrom, Bool.and_eq_true] at h
    unfold mput
    split
    · next hlt =>
      simp only [mwfFrom, Bool.and_eq_true]
      refine ⟨⟨?_, by simpa using hv⟩, ⟨by simpa using hlt, h.1.2⟩, h.2⟩
      cases lo with
      | none => rfl
      | some x => simpa using hk x rfl
    · split
      · next e =>
        subst e
        simp only [mwfFrom, Bool.and_eq_true]
        exact ⟨⟨h.1.1, by simpa using hv⟩, h.2⟩
      · simp only [mwfFrom, Bool.and_eq_true]
        exact ⟨h.1, ih h.2 (by intro x hx; cases hx; omega)⟩

theorem mwfFrom_filter {d : α} {m : List (Nat × α)} {lo : Option Nat} {f : Nat × α → Bool} (h : mwfFrom d lo m = true) :
    mwfFrom d lo (m.filter f) = true := by
  induction m generalizing lo with
  | nil => rfl
  | cons y t ih =>
    obtain ⟨k', v'⟩ := y
    simp only [mwfFrom, Bool.and_eq_true] at h
    simp only [List.filter_cons]
    split
    · simp only [mwfFrom, Bool.and_eq_true]
      exact ⟨h.1, ih h.2⟩
    · refine mwfFrom_mono (ih h.2) ?_
      intro x hx
      subst hx
      refine ⟨k', rfl, ?_⟩
      have h1 := h.1.1
      simp only [decide_eq_true_eq] at h1
      omega

/-- Every write keeps the canonical form. -/
theorem mwf_mset {d : α} {m : List (Nat × α)} (k : Nat) (v : α) (h : mwf d m = true) : mwf d (mset d m k v) = true := by
  unfold mset mwf at *
  split
  · exact mwfFrom_filter h
  · next hv => exact mwfFrom_mput h (by intro x hx; cases hx) hv

/-- Taking entries out keeps the canonical form. -/
theorem mwf_filter {d : α} {m : List (Nat × α)} (f : Nat × α → Bool) (h : mwf d m = true) : mwf d (m.filter f) = true :=
  mwfFrom_filter h

/-! ### Memory cells -/

theorem cellSet_wf {m : List Host.Cell} (a : Nat) (b : Byte) (h : Memory.wf m) : Memory.wf (cellSet m a b) := mwf_mset a b h

theorem cellsSet_wf {m : List Host.Cell} (a : Nat) (bs : List Byte) (h : Memory.wf m) : Memory.wf (cellsSet m a bs) := by
  induction bs generalizing m a with
  | nil => exact h
  | cons b bs ih => exact ih _ (cellSet_wf a b h)

@[simp] theorem cellGet_cellSet_same (m : List Host.Cell) (a : Nat) (b : Byte) : cellGet (cellSet m a b) a = b :=
  mget_mset_same 0 m a b

theorem cellGet_cellSet_other (m : List Host.Cell) {a c : Nat} (b : Byte) (h : c ≠ a) :
    cellGet (cellSet m a b) c = cellGet m c := mget_mset_other 0 m b h

/-- A write of bytes leaves every cell outside them alone. -/
theorem cellGet_cellsSet_other (m : List Host.Cell) (a c : Nat) (bs : List Byte) (h : c < a ∨ a + bs.length ≤ c) :
    cellGet (cellsSet m a bs) c = cellGet m c := by
  induction bs generalizing m a with
  | nil => rfl
  | cons b bs ih =>
    simp only [List.length_cons] at h
    unfold cellsSet
    rw [ih _ _ (by omega), cellGet_cellSet_other _ _ (by omega)]

/-- A byte just written reads as written. -/
theorem cellGet_cellsSet_in (m : List Host.Cell) (a : Nat) (bs : List Byte) (i : Nat) (h : i < bs.length) :
    cellGet (cellsSet m a bs) (a + i) = bs[i] := by
  induction bs generalizing m a i with
  | nil => cases h
  | cons b bs ih =>
    unfold cellsSet
    cases i with
    | zero =>
      rw [cellGet_cellsSet_other _ _ _ _ (by omega)]
      simp
    | succ i =>
      have := ih (cellSet m a b) (a + 1) i (by simpa using h)
      rw [show a + (i + 1) = a + 1 + i by omega, this]
      simp

/-! ### Sub-states by key -/

@[simp] theorem State.chan_setChan (s : State) (t c : Nat) (x : Chn) : (s.setChan t c x).chan t c = x := mget_mset_same _ _ _ _
@[simp] theorem State.chan_modChan (s : State) (t c : Nat) (f : Chn → Chn) : (s.modChan t c f).chan t c = f (s.chan t c) :=
  mget_mset_same _ _ _ _
@[simp] theorem State.tower_setTower (s : State) (t : Nat) (x : Tw) : (s.setTower t x).tower t = x := mget_mset_same _ _ _ _
@[simp] theorem State.tower_modTower (s : State) (t : Nat) (f : Tw → Tw) : (s.modTower t f).tower t = f (s.tower t) :=
  mget_mset_same _ _ _ _
@[simp] theorem State.stall_setStall (s : State) (i : Nat) (x : Stl) : (s.setStall i x).stall i = x := mget_mset_same _ _ _ _
@[simp] theorem State.stall_modStall (s : State) (i : Nat) (f : Stl → Stl) : (s.modStall i f).stall i = f (s.stall i) :=
  mget_mset_same _ _ _ _
@[simp] theorem State.port_setPort (s : State) (p : Nat) (x : Prt) : (s.setPort p x).port p = x := mget_mset_same _ _ _ _
@[simp] theorem State.port_modPort (s : State) (p : Nat) (f : Prt → Prt) : (s.modPort p f).port p = f (s.port p) :=
  mget_mset_same _ _ _ _
@[simp] theorem State.ring_setRing (s : State) (k : Nat) (x : RingSt) : (s.setRing k x).ring k = x := mget_mset_same _ _ _ _
@[simp] theorem State.ring_modRing (s : State) (k : Nat) (f : RingSt → RingSt) : (s.modRing k f).ring k = f (s.ring k) :=
  mget_mset_same _ _ _ _
@[simp] theorem State.core_setCore (s : State) (k : Nat) (x : CoreSt) : (s.setCore k x).core k = x := mget_mset_same _ _ _ _
@[simp] theorem State.core_modCore (s : State) (k : Nat) (f : CoreSt → CoreSt) : (s.modCore k f).core k = f (s.core k) :=
  mget_mset_same _ _ _ _
@[simp] theorem State.aisle_setAisle (s : State) (k : Nat) (x : AisleSt) : (s.setAisle k x).aisle k = x := mget_mset_same _ _ _ _
@[simp] theorem State.aisle_modAisle (s : State) (k : Nat) (f : AisleSt → AisleSt) : (s.modAisle k f).aisle k = f (s.aisle k) :=
  mget_mset_same _ _ _ _

end Sys2Proof.Machine
end

