-- ==== Sys2Proof/Laws/State.lean ====
section
/-! SUPPORT. What each update of the state leaves: one lemma per field per update, true by rfl, so that no proof unfolds a
record update. -/

namespace Sys2Proof.Machine

/-! setChan -/

@[simp] theorem State.setChan_pending (s : State) (t c : Nat) (x : Chn) : (s.setChan t c x).pending = s.pending := rfl
@[simp] theorem State.setChan_sent (s : State) (t c : Nat) (x : Chn) : (s.setChan t c x).sent = s.sent := rfl
@[simp] theorem State.setChan_free (s : State) (t c : Nat) (x : Chn) : (s.setChan t c x).free = s.free := rfl
@[simp] theorem State.setChan_time (s : State) (t c : Nat) (x : Chn) : (s.setChan t c x).time = s.time := rfl
@[simp] theorem State.setChan_rf (s : State) (t c : Nat) (x : Chn) : (s.setChan t c x).rf = s.rf := rfl
@[simp] theorem State.setChan_hw (s : State) (t c : Nat) (x : Chn) : (s.setChan t c x).hw = s.hw := rfl
@[simp] theorem State.setChan_mem (s : State) (t c : Nat) (x : Chn) : (s.setChan t c x).mem = s.mem := rfl
@[simp] theorem State.setChan_chk (s : State) (t c : Nat) (x : Chn) : (s.setChan t c x).chk = s.chk := rfl
@[simp] theorem State.setChan_sram (s : State) (t c : Nat) (x : Chn) : (s.setChan t c x).sram = s.sram := rfl
@[simp] theorem State.setChan_marks (s : State) (t c : Nat) (x : Chn) : (s.setChan t c x).marks = s.marks := rfl
@[simp] theorem State.setChan_sramP (s : State) (t c : Nat) (x : Chn) : (s.setChan t c x).sramP = s.sramP := rfl
@[simp] theorem State.setChan_tw (s : State) (t c : Nat) (x : Chn) : (s.setChan t c x).tw = s.tw := rfl
@[simp] theorem State.setChan_cores (s : State) (t c : Nat) (x : Chn) : (s.setChan t c x).cores = s.cores := rfl
@[simp] theorem State.setChan_aisles (s : State) (t c : Nat) (x : Chn) : (s.setChan t c x).aisles = s.aisles := rfl
@[simp] theorem State.setChan_subs (s : State) (t c : Nat) (x : Chn) : (s.setChan t c x).subs = s.subs := rfl
@[simp] theorem State.setChan_ses (s : State) (t c : Nat) (x : Chn) : (s.setChan t c x).ses = s.ses := rfl
@[simp] theorem State.setChan_rings (s : State) (t c : Nat) (x : Chn) : (s.setChan t c x).rings = s.rings := rfl
@[simp] theorem State.setChan_stl (s : State) (t c : Nat) (x : Chn) : (s.setChan t c x).stl = s.stl := rfl
@[simp] theorem State.setChan_hostRds (s : State) (t c : Nat) (x : Chn) : (s.setChan t c x).hostRds = s.hostRds := rfl
@[simp] theorem State.setChan_bar2 (s : State) (t c : Nat) (x : Chn) : (s.setChan t c x).bar2 = s.bar2 := rfl
@[simp] theorem State.setChan_hit (s : State) (t c : Nat) (x : Chn) : (s.setChan t c x).hit = s.hit := rfl
@[simp] theorem State.setChan_prt (s : State) (t c : Nat) (x : Chn) : (s.setChan t c x).prt = s.prt := rfl
@[simp] theorem State.setChan_mgt (s : State) (t c : Nat) (x : Chn) : (s.setChan t c x).mgt = s.mgt := rfl
@[simp] theorem State.setChan_sec (s : State) (t c : Nat) (x : Chn) : (s.setChan t c x).sec = s.sec := rfl
@[simp] theorem State.setChan_fuses (s : State) (t c : Nat) (x : Chn) : (s.setChan t c x).fuses = s.fuses := rfl
@[simp] theorem State.setChan_flash (s : State) (t c : Nat) (x : Chn) : (s.setChan t c x).flash = s.flash := rfl
@[simp] theorem State.setChan_rst (s : State) (t c : Nat) (x : Chn) : (s.setChan t c x).rst = s.rst := rfl
@[simp] theorem State.setChan_wgh (s : State) (t c : Nat) (x : Chn) : (s.setChan t c x).wgh = s.wgh := rfl
@[simp] theorem State.setChan_partn (s : State) (t c : Nat) (x : Chn) : (s.setChan t c x).partn = s.partn := rfl
@[simp] theorem State.setChan_partnOn (s : State) (t c : Nat) (x : Chn) : (s.setChan t c x).partnOn = s.partnOn := rfl

/-! modChan -/

@[simp] theorem State.modChan_pending (s : State) (t c : Nat) (f : Chn → Chn) : (s.modChan t c f).pending = s.pending := rfl
@[simp] theorem State.modChan_sent (s : State) (t c : Nat) (f : Chn → Chn) : (s.modChan t c f).sent = s.sent := rfl
@[simp] theorem State.modChan_free (s : State) (t c : Nat) (f : Chn → Chn) : (s.modChan t c f).free = s.free := rfl
@[simp] theorem State.modChan_time (s : State) (t c : Nat) (f : Chn → Chn) : (s.modChan t c f).time = s.time := rfl
@[simp] theorem State.modChan_rf (s : State) (t c : Nat) (f : Chn → Chn) : (s.modChan t c f).rf = s.rf := rfl
@[simp] theorem State.modChan_hw (s : State) (t c : Nat) (f : Chn → Chn) : (s.modChan t c f).hw = s.hw := rfl
@[simp] theorem State.modChan_mem (s : State) (t c : Nat) (f : Chn → Chn) : (s.modChan t c f).mem = s.mem := rfl
@[simp] theorem State.modChan_chk (s : State) (t c : Nat) (f : Chn → Chn) : (s.modChan t c f).chk = s.chk := rfl
@[simp] theorem State.modChan_sram (s : State) (t c : Nat) (f : Chn → Chn) : (s.modChan t c f).sram = s.sram := rfl
@[simp] theorem State.modChan_marks (s : State) (t c : Nat) (f : Chn → Chn) : (s.modChan t c f).marks = s.marks := rfl
@[simp] theorem State.modChan_sramP (s : State) (t c : Nat) (f : Chn → Chn) : (s.modChan t c f).sramP = s.sramP := rfl
@[simp] theorem State.modChan_tw (s : State) (t c : Nat) (f : Chn → Chn) : (s.modChan t c f).tw = s.tw := rfl
@[simp] theorem State.modChan_cores (s : State) (t c : Nat) (f : Chn → Chn) : (s.modChan t c f).cores = s.cores := rfl
@[simp] theorem State.modChan_aisles (s : State) (t c : Nat) (f : Chn → Chn) : (s.modChan t c f).aisles = s.aisles := rfl
@[simp] theorem State.modChan_subs (s : State) (t c : Nat) (f : Chn → Chn) : (s.modChan t c f).subs = s.subs := rfl
@[simp] theorem State.modChan_ses (s : State) (t c : Nat) (f : Chn → Chn) : (s.modChan t c f).ses = s.ses := rfl
@[simp] theorem State.modChan_rings (s : State) (t c : Nat) (f : Chn → Chn) : (s.modChan t c f).rings = s.rings := rfl
@[simp] theorem State.modChan_stl (s : State) (t c : Nat) (f : Chn → Chn) : (s.modChan t c f).stl = s.stl := rfl
@[simp] theorem State.modChan_hostRds (s : State) (t c : Nat) (f : Chn → Chn) : (s.modChan t c f).hostRds = s.hostRds := rfl
@[simp] theorem State.modChan_bar2 (s : State) (t c : Nat) (f : Chn → Chn) : (s.modChan t c f).bar2 = s.bar2 := rfl
@[simp] theorem State.modChan_hit (s : State) (t c : Nat) (f : Chn → Chn) : (s.modChan t c f).hit = s.hit := rfl
@[simp] theorem State.modChan_prt (s : State) (t c : Nat) (f : Chn → Chn) : (s.modChan t c f).prt = s.prt := rfl
@[simp] theorem State.modChan_mgt (s : State) (t c : Nat) (f : Chn → Chn) : (s.modChan t c f).mgt = s.mgt := rfl
@[simp] theorem State.modChan_sec (s : State) (t c : Nat) (f : Chn → Chn) : (s.modChan t c f).sec = s.sec := rfl
@[simp] theorem State.modChan_fuses (s : State) (t c : Nat) (f : Chn → Chn) : (s.modChan t c f).fuses = s.fuses := rfl
@[simp] theorem State.modChan_flash (s : State) (t c : Nat) (f : Chn → Chn) : (s.modChan t c f).flash = s.flash := rfl
@[simp] theorem State.modChan_rst (s : State) (t c : Nat) (f : Chn → Chn) : (s.modChan t c f).rst = s.rst := rfl
@[simp] theorem State.modChan_wgh (s : State) (t c : Nat) (f : Chn → Chn) : (s.modChan t c f).wgh = s.wgh := rfl
@[simp] theorem State.modChan_partn (s : State) (t c : Nat) (f : Chn → Chn) : (s.modChan t c f).partn = s.partn := rfl
@[simp] theorem State.modChan_partnOn (s : State) (t c : Nat) (f : Chn → Chn) : (s.modChan t c f).partnOn = s.partnOn := rfl

/-! setTower -/

@[simp] theorem State.setTower_pending (s : State) (t : Nat) (x : Tw) : (s.setTower t x).pending = s.pending := rfl
@[simp] theorem State.setTower_sent (s : State) (t : Nat) (x : Tw) : (s.setTower t x).sent = s.sent := rfl
@[simp] theorem State.setTower_free (s : State) (t : Nat) (x : Tw) : (s.setTower t x).free = s.free := rfl
@[simp] theorem State.setTower_time (s : State) (t : Nat) (x : Tw) : (s.setTower t x).time = s.time := rfl
@[simp] theorem State.setTower_rf (s : State) (t : Nat) (x : Tw) : (s.setTower t x).rf = s.rf := rfl
@[simp] theorem State.setTower_hw (s : State) (t : Nat) (x : Tw) : (s.setTower t x).hw = s.hw := rfl
@[simp] theorem State.setTower_mem (s : State) (t : Nat) (x : Tw) : (s.setTower t x).mem = s.mem := rfl
@[simp] theorem State.setTower_chk (s : State) (t : Nat) (x : Tw) : (s.setTower t x).chk = s.chk := rfl
@[simp] theorem State.setTower_sram (s : State) (t : Nat) (x : Tw) : (s.setTower t x).sram = s.sram := rfl
@[simp] theorem State.setTower_marks (s : State) (t : Nat) (x : Tw) : (s.setTower t x).marks = s.marks := rfl
@[simp] theorem State.setTower_sramP (s : State) (t : Nat) (x : Tw) : (s.setTower t x).sramP = s.sramP := rfl
@[simp] theorem State.setTower_chn (s : State) (t : Nat) (x : Tw) : (s.setTower t x).chn = s.chn := rfl
@[simp] theorem State.setTower_cores (s : State) (t : Nat) (x : Tw) : (s.setTower t x).cores = s.cores := rfl
@[simp] theorem State.setTower_aisles (s : State) (t : Nat) (x : Tw) : (s.setTower t x).aisles = s.aisles := rfl
@[simp] theorem State.setTower_subs (s : State) (t : Nat) (x : Tw) : (s.setTower t x).subs = s.subs := rfl
@[simp] theorem State.setTower_ses (s : State) (t : Nat) (x : Tw) : (s.setTower t x).ses = s.ses := rfl
@[simp] theorem State.setTower_rings (s : State) (t : Nat) (x : Tw) : (s.setTower t x).rings = s.rings := rfl
@[simp] theorem State.setTower_stl (s : State) (t : Nat) (x : Tw) : (s.setTower t x).stl = s.stl := rfl
@[simp] theorem State.setTower_hostRds (s : State) (t : Nat) (x : Tw) : (s.setTower t x).hostRds = s.hostRds := rfl
@[simp] theorem State.setTower_bar2 (s : State) (t : Nat) (x : Tw) : (s.setTower t x).bar2 = s.bar2 := rfl
@[simp] theorem State.setTower_hit (s : State) (t : Nat) (x : Tw) : (s.setTower t x).hit = s.hit := rfl
@[simp] theorem State.setTower_prt (s : State) (t : Nat) (x : Tw) : (s.setTower t x).prt = s.prt := rfl
@[simp] theorem State.setTower_mgt (s : State) (t : Nat) (x : Tw) : (s.setTower t x).mgt = s.mgt := rfl
@[simp] theorem State.setTower_sec (s : State) (t : Nat) (x : Tw) : (s.setTower t x).sec = s.sec := rfl
@[simp] theorem State.setTower_fuses (s : State) (t : Nat) (x : Tw) : (s.setTower t x).fuses = s.fuses := rfl
@[simp] theorem State.setTower_flash (s : State) (t : Nat) (x : Tw) : (s.setTower t x).flash = s.flash := rfl
@[simp] theorem State.setTower_rst (s : State) (t : Nat) (x : Tw) : (s.setTower t x).rst = s.rst := rfl
@[simp] theorem State.setTower_wgh (s : State) (t : Nat) (x : Tw) : (s.setTower t x).wgh = s.wgh := rfl
@[simp] theorem State.setTower_partn (s : State) (t : Nat) (x : Tw) : (s.setTower t x).partn = s.partn := rfl
@[simp] theorem State.setTower_partnOn (s : State) (t : Nat) (x : Tw) : (s.setTower t x).partnOn = s.partnOn := rfl

/-! modTower -/

@[simp] theorem State.modTower_pending (s : State) (t : Nat) (f : Tw → Tw) : (s.modTower t f).pending = s.pending := rfl
@[simp] theorem State.modTower_sent (s : State) (t : Nat) (f : Tw → Tw) : (s.modTower t f).sent = s.sent := rfl
@[simp] theorem State.modTower_free (s : State) (t : Nat) (f : Tw → Tw) : (s.modTower t f).free = s.free := rfl
@[simp] theorem State.modTower_time (s : State) (t : Nat) (f : Tw → Tw) : (s.modTower t f).time = s.time := rfl
@[simp] theorem State.modTower_rf (s : State) (t : Nat) (f : Tw → Tw) : (s.modTower t f).rf = s.rf := rfl
@[simp] theorem State.modTower_hw (s : State) (t : Nat) (f : Tw → Tw) : (s.modTower t f).hw = s.hw := rfl
@[simp] theorem State.modTower_mem (s : State) (t : Nat) (f : Tw → Tw) : (s.modTower t f).mem = s.mem := rfl
@[simp] theorem State.modTower_chk (s : State) (t : Nat) (f : Tw → Tw) : (s.modTower t f).chk = s.chk := rfl
@[simp] theorem State.modTower_sram (s : State) (t : Nat) (f : Tw → Tw) : (s.modTower t f).sram = s.sram := rfl
@[simp] theorem State.modTower_marks (s : State) (t : Nat) (f : Tw → Tw) : (s.modTower t f).marks = s.marks := rfl
@[simp] theorem State.modTower_sramP (s : State) (t : Nat) (f : Tw → Tw) : (s.modTower t f).sramP = s.sramP := rfl
@[simp] theorem State.modTower_chn (s : State) (t : Nat) (f : Tw → Tw) : (s.modTower t f).chn = s.chn := rfl
@[simp] theorem State.modTower_cores (s : State) (t : Nat) (f : Tw → Tw) : (s.modTower t f).cores = s.cores := rfl
@[simp] theorem State.modTower_aisles (s : State) (t : Nat) (f : Tw → Tw) : (s.modTower t f).aisles = s.aisles := rfl
@[simp] theorem State.modTower_subs (s : State) (t : Nat) (f : Tw → Tw) : (s.modTower t f).subs = s.subs := rfl
@[simp] theorem State.modTower_ses (s : State) (t : Nat) (f : Tw → Tw) : (s.modTower t f).ses = s.ses := rfl
@[simp] theorem State.modTower_rings (s : State) (t : Nat) (f : Tw → Tw) : (s.modTower t f).rings = s.rings := rfl
@[simp] theorem State.modTower_stl (s : State) (t : Nat) (f : Tw → Tw) : (s.modTower t f).stl = s.stl := rfl
@[simp] theorem State.modTower_hostRds (s : State) (t : Nat) (f : Tw → Tw) : (s.modTower t f).hostRds = s.hostRds := rfl
@[simp] theorem State.modTower_bar2 (s : State) (t : Nat) (f : Tw → Tw) : (s.modTower t f).bar2 = s.bar2 := rfl
@[simp] theorem State.modTower_hit (s : State) (t : Nat) (f : Tw → Tw) : (s.modTower t f).hit = s.hit := rfl
@[simp] theorem State.modTower_prt (s : State) (t : Nat) (f : Tw → Tw) : (s.modTower t f).prt = s.prt := rfl
@[simp] theorem State.modTower_mgt (s : State) (t : Nat) (f : Tw → Tw) : (s.modTower t f).mgt = s.mgt := rfl
@[simp] theorem State.modTower_sec (s : State) (t : Nat) (f : Tw → Tw) : (s.modTower t f).sec = s.sec := rfl
@[simp] theorem State.modTower_fuses (s : State) (t : Nat) (f : Tw → Tw) : (s.modTower t f).fuses = s.fuses := rfl
@[simp] theorem State.modTower_flash (s : State) (t : Nat) (f : Tw → Tw) : (s.modTower t f).flash = s.flash := rfl
@[simp] theorem State.modTower_rst (s : State) (t : Nat) (f : Tw → Tw) : (s.modTower t f).rst = s.rst := rfl
@[simp] theorem State.modTower_wgh (s : State) (t : Nat) (f : Tw → Tw) : (s.modTower t f).wgh = s.wgh := rfl
@[simp] theorem State.modTower_partn (s : State) (t : Nat) (f : Tw → Tw) : (s.modTower t f).partn = s.partn := rfl
@[simp] theorem State.modTower_partnOn (s : State) (t : Nat) (f : Tw → Tw) : (s.modTower t f).partnOn = s.partnOn := rfl

/-! modBench -/

@[simp] theorem State.modBench_pending (s : State) (t : Nat) (f : Bench → Bench) : (s.modBench t f).pending = s.pending := rfl
@[simp] theorem State.modBench_sent (s : State) (t : Nat) (f : Bench → Bench) : (s.modBench t f).sent = s.sent := rfl
@[simp] theorem State.modBench_free (s : State) (t : Nat) (f : Bench → Bench) : (s.modBench t f).free = s.free := rfl
@[simp] theorem State.modBench_time (s : State) (t : Nat) (f : Bench → Bench) : (s.modBench t f).time = s.time := rfl
@[simp] theorem State.modBench_rf (s : State) (t : Nat) (f : Bench → Bench) : (s.modBench t f).rf = s.rf := rfl
@[simp] theorem State.modBench_hw (s : State) (t : Nat) (f : Bench → Bench) : (s.modBench t f).hw = s.hw := rfl
@[simp] theorem State.modBench_mem (s : State) (t : Nat) (f : Bench → Bench) : (s.modBench t f).mem = s.mem := rfl
@[simp] theorem State.modBench_chk (s : State) (t : Nat) (f : Bench → Bench) : (s.modBench t f).chk = s.chk := rfl
@[simp] theorem State.modBench_sram (s : State) (t : Nat) (f : Bench → Bench) : (s.modBench t f).sram = s.sram := rfl
@[simp] theorem State.modBench_marks (s : State) (t : Nat) (f : Bench → Bench) : (s.modBench t f).marks = s.marks := rfl
@[simp] theorem State.modBench_sramP (s : State) (t : Nat) (f : Bench → Bench) : (s.modBench t f).sramP = s.sramP := rfl
@[simp] theorem State.modBench_chn (s : State) (t : Nat) (f : Bench → Bench) : (s.modBench t f).chn = s.chn := rfl
@[simp] theorem State.modBench_cores (s : State) (t : Nat) (f : Bench → Bench) : (s.modBench t f).cores = s.cores := rfl
@[simp] theorem State.modBench_aisles (s : State) (t : Nat) (f : Bench → Bench) : (s.modBench t f).aisles = s.aisles := rfl
@[simp] theorem State.modBench_subs (s : State) (t : Nat) (f : Bench → Bench) : (s.modBench t f).subs = s.subs := rfl
@[simp] theorem State.modBench_ses (s : State) (t : Nat) (f : Bench → Bench) : (s.modBench t f).ses = s.ses := rfl
@[simp] theorem State.modBench_rings (s : State) (t : Nat) (f : Bench → Bench) : (s.modBench t f).rings = s.rings := rfl
@[simp] theorem State.modBench_stl (s : State) (t : Nat) (f : Bench → Bench) : (s.modBench t f).stl = s.stl := rfl
@[simp] theorem State.modBench_hostRds (s : State) (t : Nat) (f : Bench → Bench) : (s.modBench t f).hostRds = s.hostRds := rfl
@[simp] theorem State.modBench_bar2 (s : State) (t : Nat) (f : Bench → Bench) : (s.modBench t f).bar2 = s.bar2 := rfl
@[simp] theorem State.modBench_hit (s : State) (t : Nat) (f : Bench → Bench) : (s.modBench t f).hit = s.hit := rfl
@[simp] theorem State.modBench_prt (s : State) (t : Nat) (f : Bench → Bench) : (s.modBench t f).prt = s.prt := rfl
@[simp] theorem State.modBench_mgt (s : State) (t : Nat) (f : Bench → Bench) : (s.modBench t f).mgt = s.mgt := rfl
@[simp] theorem State.modBench_sec (s : State) (t : Nat) (f : Bench → Bench) : (s.modBench t f).sec = s.sec := rfl
@[simp] theorem State.modBench_fuses (s : State) (t : Nat) (f : Bench → Bench) : (s.modBench t f).fuses = s.fuses := rfl
@[simp] theorem State.modBench_flash (s : State) (t : Nat) (f : Bench → Bench) : (s.modBench t f).flash = s.flash := rfl
@[simp] theorem State.modBench_rst (s : State) (t : Nat) (f : Bench → Bench) : (s.modBench t f).rst = s.rst := rfl
@[simp] theorem State.modBench_wgh (s : State) (t : Nat) (f : Bench → Bench) : (s.modBench t f).wgh = s.wgh := rfl
@[simp] theorem State.modBench_partn (s : State) (t : Nat) (f : Bench → Bench) : (s.modBench t f).partn = s.partn := rfl
@[simp] theorem State.modBench_partnOn (s : State) (t : Nat) (f : Bench → Bench) : (s.modBench t f).partnOn = s.partnOn := rfl

/-! setStall -/

@[simp] theorem State.setStall_pending (s : State) (i : Nat) (x : Stl) : (s.setStall i x).pending = s.pending := rfl
@[simp] theorem State.setStall_sent (s : State) (i : Nat) (x : Stl) : (s.setStall i x).sent = s.sent := rfl
@[simp] theorem State.setStall_free (s : State) (i : Nat) (x : Stl) : (s.setStall i x).free = s.free := rfl
@[simp] theorem State.setStall_time (s : State) (i : Nat) (x : Stl) : (s.setStall i x).time = s.time := rfl
@[simp] theorem State.setStall_rf (s : State) (i : Nat) (x : Stl) : (s.setStall i x).rf = s.rf := rfl
@[simp] theorem State.setStall_hw (s : State) (i : Nat) (x : Stl) : (s.setStall i x).hw = s.hw := rfl
@[simp] theorem State.setStall_mem (s : State) (i : Nat) (x : Stl) : (s.setStall i x).mem = s.mem := rfl
@[simp] theorem State.setStall_chk (s : State) (i : Nat) (x : Stl) : (s.setStall i x).chk = s.chk := rfl
@[simp] theorem State.setStall_sram (s : State) (i : Nat) (x : Stl) : (s.setStall i x).sram = s.sram := rfl
@[simp] theorem State.setStall_marks (s : State) (i : Nat) (x : Stl) : (s.setStall i x).marks = s.marks := rfl
@[simp] theorem State.setStall_sramP (s : State) (i : Nat) (x : Stl) : (s.setStall i x).sramP = s.sramP := rfl
@[simp] theorem State.setStall_chn (s : State) (i : Nat) (x : Stl) : (s.setStall i x).chn = s.chn := rfl
@[simp] theorem State.setStall_tw (s : State) (i : Nat) (x : Stl) : (s.setStall i x).tw = s.tw := rfl
@[simp] theorem State.setStall_cores (s : State) (i : Nat) (x : Stl) : (s.setStall i x).cores = s.cores := rfl
@[simp] theorem State.setStall_aisles (s : State) (i : Nat) (x : Stl) : (s.setStall i x).aisles = s.aisles := rfl
@[simp] theorem State.setStall_subs (s : State) (i : Nat) (x : Stl) : (s.setStall i x).subs = s.subs := rfl
@[simp] theorem State.setStall_ses (s : State) (i : Nat) (x : Stl) : (s.setStall i x).ses = s.ses := rfl
@[simp] theorem State.setStall_rings (s : State) (i : Nat) (x : Stl) : (s.setStall i x).rings = s.rings := rfl
@[simp] theorem State.setStall_hostRds (s : State) (i : Nat) (x : Stl) : (s.setStall i x).hostRds = s.hostRds := rfl
@[simp] theorem State.setStall_bar2 (s : State) (i : Nat) (x : Stl) : (s.setStall i x).bar2 = s.bar2 := rfl
@[simp] theorem State.setStall_hit (s : State) (i : Nat) (x : Stl) : (s.setStall i x).hit = s.hit := rfl
@[simp] theorem State.setStall_prt (s : State) (i : Nat) (x : Stl) : (s.setStall i x).prt = s.prt := rfl
@[simp] theorem State.setStall_mgt (s : State) (i : Nat) (x : Stl) : (s.setStall i x).mgt = s.mgt := rfl
@[simp] theorem State.setStall_sec (s : State) (i : Nat) (x : Stl) : (s.setStall i x).sec = s.sec := rfl
@[simp] theorem State.setStall_fuses (s : State) (i : Nat) (x : Stl) : (s.setStall i x).fuses = s.fuses := rfl
@[simp] theorem State.setStall_flash (s : State) (i : Nat) (x : Stl) : (s.setStall i x).flash = s.flash := rfl
@[simp] theorem State.setStall_rst (s : State) (i : Nat) (x : Stl) : (s.setStall i x).rst = s.rst := rfl
@[simp] theorem State.setStall_wgh (s : State) (i : Nat) (x : Stl) : (s.setStall i x).wgh = s.wgh := rfl
@[simp] theorem State.setStall_partn (s : State) (i : Nat) (x : Stl) : (s.setStall i x).partn = s.partn := rfl
@[simp] theorem State.setStall_partnOn (s : State) (i : Nat) (x : Stl) : (s.setStall i x).partnOn = s.partnOn := rfl

/-! modStall -/

@[simp] theorem State.modStall_pending (s : State) (i : Nat) (f : Stl → Stl) : (s.modStall i f).pending = s.pending := rfl
@[simp] theorem State.modStall_sent (s : State) (i : Nat) (f : Stl → Stl) : (s.modStall i f).sent = s.sent := rfl
@[simp] theorem State.modStall_free (s : State) (i : Nat) (f : Stl → Stl) : (s.modStall i f).free = s.free := rfl
@[simp] theorem State.modStall_time (s : State) (i : Nat) (f : Stl → Stl) : (s.modStall i f).time = s.time := rfl
@[simp] theorem State.modStall_rf (s : State) (i : Nat) (f : Stl → Stl) : (s.modStall i f).rf = s.rf := rfl
@[simp] theorem State.modStall_hw (s : State) (i : Nat) (f : Stl → Stl) : (s.modStall i f).hw = s.hw := rfl
@[simp] theorem State.modStall_mem (s : State) (i : Nat) (f : Stl → Stl) : (s.modStall i f).mem = s.mem := rfl
@[simp] theorem State.modStall_chk (s : State) (i : Nat) (f : Stl → Stl) : (s.modStall i f).chk = s.chk := rfl
@[simp] theorem State.modStall_sram (s : State) (i : Nat) (f : Stl → Stl) : (s.modStall i f).sram = s.sram := rfl
@[simp] theorem State.modStall_marks (s : State) (i : Nat) (f : Stl → Stl) : (s.modStall i f).marks = s.marks := rfl
@[simp] theorem State.modStall_sramP (s : State) (i : Nat) (f : Stl → Stl) : (s.modStall i f).sramP = s.sramP := rfl
@[simp] theorem State.modStall_chn (s : State) (i : Nat) (f : Stl → Stl) : (s.modStall i f).chn = s.chn := rfl
@[simp] theorem State.modStall_tw (s : State) (i : Nat) (f : Stl → Stl) : (s.modStall i f).tw = s.tw := rfl
@[simp] theorem State.modStall_cores (s : State) (i : Nat) (f : Stl → Stl) : (s.modStall i f).cores = s.cores := rfl
@[simp] theorem State.modStall_aisles (s : State) (i : Nat) (f : Stl → Stl) : (s.modStall i f).aisles = s.aisles := rfl
@[simp] theorem State.modStall_subs (s : State) (i : Nat) (f : Stl → Stl) : (s.modStall i f).subs = s.subs := rfl
@[simp] theorem State.modStall_ses (s : State) (i : Nat) (f : Stl → Stl) : (s.modStall i f).ses = s.ses := rfl
@[simp] theorem State.modStall_rings (s : State) (i : Nat) (f : Stl → Stl) : (s.modStall i f).rings = s.rings := rfl
@[simp] theorem State.modStall_hostRds (s : State) (i : Nat) (f : Stl → Stl) : (s.modStall i f).hostRds = s.hostRds := rfl
@[simp] theorem State.modStall_bar2 (s : State) (i : Nat) (f : Stl → Stl) : (s.modStall i f).bar2 = s.bar2 := rfl
@[simp] theorem State.modStall_hit (s : State) (i : Nat) (f : Stl → Stl) : (s.modStall i f).hit = s.hit := rfl
@[simp] theorem State.modStall_prt (s : State) (i : Nat) (f : Stl → Stl) : (s.modStall i f).prt = s.prt := rfl
@[simp] theorem State.modStall_mgt (s : State) (i : Nat) (f : Stl → Stl) : (s.modStall i f).mgt = s.mgt := rfl
@[simp] theorem State.modStall_sec (s : State) (i : Nat) (f : Stl → Stl) : (s.modStall i f).sec = s.sec := rfl
@[simp] theorem State.modStall_fuses (s : State) (i : Nat) (f : Stl → Stl) : (s.modStall i f).fuses = s.fuses := rfl
@[simp] theorem State.modStall_flash (s : State) (i : Nat) (f : Stl → Stl) : (s.modStall i f).flash = s.flash := rfl
@[simp] theorem State.modStall_rst (s : State) (i : Nat) (f : Stl → Stl) : (s.modStall i f).rst = s.rst := rfl
@[simp] theorem State.modStall_wgh (s : State) (i : Nat) (f : Stl → Stl) : (s.modStall i f).wgh = s.wgh := rfl
@[simp] theorem State.modStall_partn (s : State) (i : Nat) (f : Stl → Stl) : (s.modStall i f).partn = s.partn := rfl
@[simp] theorem State.modStall_partnOn (s : State) (i : Nat) (f : Stl → Stl) : (s.modStall i f).partnOn = s.partnOn := rfl

/-! setPort -/

@[simp] theorem State.setPort_pending (s : State) (p : Nat) (x : Prt) : (s.setPort p x).pending = s.pending := rfl
@[simp] theorem State.setPort_sent (s : State) (p : Nat) (x : Prt) : (s.setPort p x).sent = s.sent := rfl
@[simp] theorem State.setPort_free (s : State) (p : Nat) (x : Prt) : (s.setPort p x).free = s.free := rfl
@[simp] theorem State.setPort_time (s : State) (p : Nat) (x : Prt) : (s.setPort p x).time = s.time := rfl
@[simp] theorem State.setPort_rf (s : State) (p : Nat) (x : Prt) : (s.setPort p x).rf = s.rf := rfl
@[simp] theorem State.setPort_hw (s : State) (p : Nat) (x : Prt) : (s.setPort p x).hw = s.hw := rfl
@[simp] theorem State.setPort_mem (s : State) (p : Nat) (x : Prt) : (s.setPort p x).mem = s.mem := rfl
@[simp] theorem State.setPort_chk (s : State) (p : Nat) (x : Prt) : (s.setPort p x).chk = s.chk := rfl
@[simp] theorem State.setPort_sram (s : State) (p : Nat) (x : Prt) : (s.setPort p x).sram = s.sram := rfl
@[simp] theorem State.setPort_marks (s : State) (p : Nat) (x : Prt) : (s.setPort p x).marks = s.marks := rfl
@[simp] theorem State.setPort_sramP (s : State) (p : Nat) (x : Prt) : (s.setPort p x).sramP = s.sramP := rfl
@[simp] theorem State.setPort_chn (s : State) (p : Nat) (x : Prt) : (s.setPort p x).chn = s.chn := rfl
@[simp] theorem State.setPort_tw (s : State) (p : Nat) (x : Prt) : (s.setPort p x).tw = s.tw := rfl
@[simp] theorem State.setPort_cores (s : State) (p : Nat) (x : Prt) : (s.setPort p x).cores = s.cores := rfl
@[simp] theorem State.setPort_aisles (s : State) (p : Nat) (x : Prt) : (s.setPort p x).aisles = s.aisles := rfl
@[simp] theorem State.setPort_subs (s : State) (p : Nat) (x : Prt) : (s.setPort p x).subs = s.subs := rfl
@[simp] theorem State.setPort_ses (s : State) (p : Nat) (x : Prt) : (s.setPort p x).ses = s.ses := rfl
@[simp] theorem State.setPort_rings (s : State) (p : Nat) (x : Prt) : (s.setPort p x).rings = s.rings := rfl
@[simp] theorem State.setPort_stl (s : State) (p : Nat) (x : Prt) : (s.setPort p x).stl = s.stl := rfl
@[simp] theorem State.setPort_hostRds (s : State) (p : Nat) (x : Prt) : (s.setPort p x).hostRds = s.hostRds := rfl
@[simp] theorem State.setPort_bar2 (s : State) (p : Nat) (x : Prt) : (s.setPort p x).bar2 = s.bar2 := rfl
@[simp] theorem State.setPort_hit (s : State) (p : Nat) (x : Prt) : (s.setPort p x).hit = s.hit := rfl
@[simp] theorem State.setPort_mgt (s : State) (p : Nat) (x : Prt) : (s.setPort p x).mgt = s.mgt := rfl
@[simp] theorem State.setPort_sec (s : State) (p : Nat) (x : Prt) : (s.setPort p x).sec = s.sec := rfl
@[simp] theorem State.setPort_fuses (s : State) (p : Nat) (x : Prt) : (s.setPort p x).fuses = s.fuses := rfl
@[simp] theorem State.setPort_flash (s : State) (p : Nat) (x : Prt) : (s.setPort p x).flash = s.flash := rfl
@[simp] theorem State.setPort_rst (s : State) (p : Nat) (x : Prt) : (s.setPort p x).rst = s.rst := rfl
@[simp] theorem State.setPort_wgh (s : State) (p : Nat) (x : Prt) : (s.setPort p x).wgh = s.wgh := rfl
@[simp] theorem State.setPort_partn (s : State) (p : Nat) (x : Prt) : (s.setPort p x).partn = s.partn := rfl
@[simp] theorem State.setPort_partnOn (s : State) (p : Nat) (x : Prt) : (s.setPort p x).partnOn = s.partnOn := rfl

/-! modPort -/

@[simp] theorem State.modPort_pending (s : State) (p : Nat) (f : Prt → Prt) : (s.modPort p f).pending = s.pending := rfl
@[simp] theorem State.modPort_sent (s : State) (p : Nat) (f : Prt → Prt) : (s.modPort p f).sent = s.sent := rfl
@[simp] theorem State.modPort_free (s : State) (p : Nat) (f : Prt → Prt) : (s.modPort p f).free = s.free := rfl
@[simp] theorem State.modPort_time (s : State) (p : Nat) (f : Prt → Prt) : (s.modPort p f).time = s.time := rfl
@[simp] theorem State.modPort_rf (s : State) (p : Nat) (f : Prt → Prt) : (s.modPort p f).rf = s.rf := rfl
@[simp] theorem State.modPort_hw (s : State) (p : Nat) (f : Prt → Prt) : (s.modPort p f).hw = s.hw := rfl
@[simp] theorem State.modPort_mem (s : State) (p : Nat) (f : Prt → Prt) : (s.modPort p f).mem = s.mem := rfl
@[simp] theorem State.modPort_chk (s : State) (p : Nat) (f : Prt → Prt) : (s.modPort p f).chk = s.chk := rfl
@[simp] theorem State.modPort_sram (s : State) (p : Nat) (f : Prt → Prt) : (s.modPort p f).sram = s.sram := rfl
@[simp] theorem State.modPort_marks (s : State) (p : Nat) (f : Prt → Prt) : (s.modPort p f).marks = s.marks := rfl
@[simp] theorem State.modPort_sramP (s : State) (p : Nat) (f : Prt → Prt) : (s.modPort p f).sramP = s.sramP := rfl
@[simp] theorem State.modPort_chn (s : State) (p : Nat) (f : Prt → Prt) : (s.modPort p f).chn = s.chn := rfl
@[simp] theorem State.modPort_tw (s : State) (p : Nat) (f : Prt → Prt) : (s.modPort p f).tw = s.tw := rfl
@[simp] theorem State.modPort_cores (s : State) (p : Nat) (f : Prt → Prt) : (s.modPort p f).cores = s.cores := rfl
@[simp] theorem State.modPort_aisles (s : State) (p : Nat) (f : Prt → Prt) : (s.modPort p f).aisles = s.aisles := rfl
@[simp] theorem State.modPort_subs (s : State) (p : Nat) (f : Prt → Prt) : (s.modPort p f).subs = s.subs := rfl
@[simp] theorem State.modPort_ses (s : State) (p : Nat) (f : Prt → Prt) : (s.modPort p f).ses = s.ses := rfl
@[simp] theorem State.modPort_rings (s : State) (p : Nat) (f : Prt → Prt) : (s.modPort p f).rings = s.rings := rfl
@[simp] theorem State.modPort_stl (s : State) (p : Nat) (f : Prt → Prt) : (s.modPort p f).stl = s.stl := rfl
@[simp] theorem State.modPort_hostRds (s : State) (p : Nat) (f : Prt → Prt) : (s.modPort p f).hostRds = s.hostRds := rfl
@[simp] theorem State.modPort_bar2 (s : State) (p : Nat) (f : Prt → Prt) : (s.modPort p f).bar2 = s.bar2 := rfl
@[simp] theorem State.modPort_hit (s : State) (p : Nat) (f : Prt → Prt) : (s.modPort p f).hit = s.hit := rfl
@[simp] theorem State.modPort_mgt (s : State) (p : Nat) (f : Prt → Prt) : (s.modPort p f).mgt = s.mgt := rfl
@[simp] theorem State.modPort_sec (s : State) (p : Nat) (f : Prt → Prt) : (s.modPort p f).sec = s.sec := rfl
@[simp] theorem State.modPort_fuses (s : State) (p : Nat) (f : Prt → Prt) : (s.modPort p f).fuses = s.fuses := rfl
@[simp] theorem State.modPort_flash (s : State) (p : Nat) (f : Prt → Prt) : (s.modPort p f).flash = s.flash := rfl
@[simp] theorem State.modPort_rst (s : State) (p : Nat) (f : Prt → Prt) : (s.modPort p f).rst = s.rst := rfl
@[simp] theorem State.modPort_wgh (s : State) (p : Nat) (f : Prt → Prt) : (s.modPort p f).wgh = s.wgh := rfl
@[simp] theorem State.modPort_partn (s : State) (p : Nat) (f : Prt → Prt) : (s.modPort p f).partn = s.partn := rfl
@[simp] theorem State.modPort_partnOn (s : State) (p : Nat) (f : Prt → Prt) : (s.modPort p f).partnOn = s.partnOn := rfl

/-! setRing -/

@[simp] theorem State.setRing_pending (s : State) (k : Nat) (x : RingSt) : (s.setRing k x).pending = s.pending := rfl
@[simp] theorem State.setRing_sent (s : State) (k : Nat) (x : RingSt) : (s.setRing k x).sent = s.sent := rfl
@[simp] theorem State.setRing_free (s : State) (k : Nat) (x : RingSt) : (s.setRing k x).free = s.free := rfl
@[simp] theorem State.setRing_time (s : State) (k : Nat) (x : RingSt) : (s.setRing k x).time = s.time := rfl
@[simp] theorem State.setRing_rf (s : State) (k : Nat) (x : RingSt) : (s.setRing k x).rf = s.rf := rfl
@[simp] theorem State.setRing_hw (s : State) (k : Nat) (x : RingSt) : (s.setRing k x).hw = s.hw := rfl
@[simp] theorem State.setRing_mem (s : State) (k : Nat) (x : RingSt) : (s.setRing k x).mem = s.mem := rfl
@[simp] theorem State.setRing_chk (s : State) (k : Nat) (x : RingSt) : (s.setRing k x).chk = s.chk := rfl
@[simp] theorem State.setRing_sram (s : State) (k : Nat) (x : RingSt) : (s.setRing k x).sram = s.sram := rfl
@[simp] theorem State.setRing_marks (s : State) (k : Nat) (x : RingSt) : (s.setRing k x).marks = s.marks := rfl
@[simp] theorem State.setRing_sramP (s : State) (k : Nat) (x : RingSt) : (s.setRing k x).sramP = s.sramP := rfl
@[simp] theorem State.setRing_chn (s : State) (k : Nat) (x : RingSt) : (s.setRing k x).chn = s.chn := rfl
@[simp] theorem State.setRing_tw (s : State) (k : Nat) (x : RingSt) : (s.setRing k x).tw = s.tw := rfl
@[simp] theorem State.setRing_cores (s : State) (k : Nat) (x : RingSt) : (s.setRing k x).cores = s.cores := rfl
@[simp] theorem State.setRing_aisles (s : State) (k : Nat) (x : RingSt) : (s.setRing k x).aisles = s.aisles := rfl
@[simp] theorem State.setRing_subs (s : State) (k : Nat) (x : RingSt) : (s.setRing k x).subs = s.subs := rfl
@[simp] theorem State.setRing_ses (s : State) (k : Nat) (x : RingSt) : (s.setRing k x).ses = s.ses := rfl
@[simp] theorem State.setRing_stl (s : State) (k : Nat) (x : RingSt) : (s.setRing k x).stl = s.stl := rfl
@[simp] theorem State.setRing_hostRds (s : State) (k : Nat) (x : RingSt) : (s.setRing k x).hostRds = s.hostRds := rfl
@[simp] theorem State.setRing_bar2 (s : State) (k : Nat) (x : RingSt) : (s.setRing k x).bar2 = s.bar2 := rfl
@[simp] theorem State.setRing_hit (s : State) (k : Nat) (x : RingSt) : (s.setRing k x).hit = s.hit := rfl
@[simp] theorem State.setRing_prt (s : State) (k : Nat) (x : RingSt) : (s.setRing k x).prt = s.prt := rfl
@[simp] theorem State.setRing_mgt (s : State) (k : Nat) (x : RingSt) : (s.setRing k x).mgt = s.mgt := rfl
@[simp] theorem State.setRing_sec (s : State) (k : Nat) (x : RingSt) : (s.setRing k x).sec = s.sec := rfl
@[simp] theorem State.setRing_fuses (s : State) (k : Nat) (x : RingSt) : (s.setRing k x).fuses = s.fuses := rfl
@[simp] theorem State.setRing_flash (s : State) (k : Nat) (x : RingSt) : (s.setRing k x).flash = s.flash := rfl
@[simp] theorem State.setRing_rst (s : State) (k : Nat) (x : RingSt) : (s.setRing k x).rst = s.rst := rfl
@[simp] theorem State.setRing_wgh (s : State) (k : Nat) (x : RingSt) : (s.setRing k x).wgh = s.wgh := rfl
@[simp] theorem State.setRing_partn (s : State) (k : Nat) (x : RingSt) : (s.setRing k x).partn = s.partn := rfl
@[simp] theorem State.setRing_partnOn (s : State) (k : Nat) (x : RingSt) : (s.setRing k x).partnOn = s.partnOn := rfl

/-! modRing -/

@[simp] theorem State.modRing_pending (s : State) (k : Nat) (f : RingSt → RingSt) : (s.modRing k f).pending = s.pending := rfl
@[simp] theorem State.modRing_sent (s : State) (k : Nat) (f : RingSt → RingSt) : (s.modRing k f).sent = s.sent := rfl
@[simp] theorem State.modRing_free (s : State) (k : Nat) (f : RingSt → RingSt) : (s.modRing k f).free = s.free := rfl
@[simp] theorem State.modRing_time (s : State) (k : Nat) (f : RingSt → RingSt) : (s.modRing k f).time = s.time := rfl
@[simp] theorem State.modRing_rf (s : State) (k : Nat) (f : RingSt → RingSt) : (s.modRing k f).rf = s.rf := rfl
@[simp] theorem State.modRing_hw (s : State) (k : Nat) (f : RingSt → RingSt) : (s.modRing k f).hw = s.hw := rfl
@[simp] theorem State.modRing_mem (s : State) (k : Nat) (f : RingSt → RingSt) : (s.modRing k f).mem = s.mem := rfl
@[simp] theorem State.modRing_chk (s : State) (k : Nat) (f : RingSt → RingSt) : (s.modRing k f).chk = s.chk := rfl
@[simp] theorem State.modRing_sram (s : State) (k : Nat) (f : RingSt → RingSt) : (s.modRing k f).sram = s.sram := rfl
@[simp] theorem State.modRing_marks (s : State) (k : Nat) (f : RingSt → RingSt) : (s.modRing k f).marks = s.marks := rfl
@[simp] theorem State.modRing_sramP (s : State) (k : Nat) (f : RingSt → RingSt) : (s.modRing k f).sramP = s.sramP := rfl
@[simp] theorem State.modRing_chn (s : State) (k : Nat) (f : RingSt → RingSt) : (s.modRing k f).chn = s.chn := rfl
@[simp] theorem State.modRing_tw (s : State) (k : Nat) (f : RingSt → RingSt) : (s.modRing k f).tw = s.tw := rfl
@[simp] theorem State.modRing_cores (s : State) (k : Nat) (f : RingSt → RingSt) : (s.modRing k f).cores = s.cores := rfl
@[simp] theorem State.modRing_aisles (s : State) (k : Nat) (f : RingSt → RingSt) : (s.modRing k f).aisles = s.aisles := rfl
@[simp] theorem State.modRing_subs (s : State) (k : Nat) (f : RingSt → RingSt) : (s.modRing k f).subs = s.subs := rfl
@[simp] theorem State.modRing_ses (s : State) (k : Nat) (f : RingSt → RingSt) : (s.modRing k f).ses = s.ses := rfl
@[simp] theorem State.modRing_stl (s : State) (k : Nat) (f : RingSt → RingSt) : (s.modRing k f).stl = s.stl := rfl
@[simp] theorem State.modRing_hostRds (s : State) (k : Nat) (f : RingSt → RingSt) : (s.modRing k f).hostRds = s.hostRds := rfl
@[simp] theorem State.modRing_bar2 (s : State) (k : Nat) (f : RingSt → RingSt) : (s.modRing k f).bar2 = s.bar2 := rfl
@[simp] theorem State.modRing_hit (s : State) (k : Nat) (f : RingSt → RingSt) : (s.modRing k f).hit = s.hit := rfl
@[simp] theorem State.modRing_prt (s : State) (k : Nat) (f : RingSt → RingSt) : (s.modRing k f).prt = s.prt := rfl
@[simp] theorem State.modRing_mgt (s : State) (k : Nat) (f : RingSt → RingSt) : (s.modRing k f).mgt = s.mgt := rfl
@[simp] theorem State.modRing_sec (s : State) (k : Nat) (f : RingSt → RingSt) : (s.modRing k f).sec = s.sec := rfl
@[simp] theorem State.modRing_fuses (s : State) (k : Nat) (f : RingSt → RingSt) : (s.modRing k f).fuses = s.fuses := rfl
@[simp] theorem State.modRing_flash (s : State) (k : Nat) (f : RingSt → RingSt) : (s.modRing k f).flash = s.flash := rfl
@[simp] theorem State.modRing_rst (s : State) (k : Nat) (f : RingSt → RingSt) : (s.modRing k f).rst = s.rst := rfl
@[simp] theorem State.modRing_wgh (s : State) (k : Nat) (f : RingSt → RingSt) : (s.modRing k f).wgh = s.wgh := rfl
@[simp] theorem State.modRing_partn (s : State) (k : Nat) (f : RingSt → RingSt) : (s.modRing k f).partn = s.partn := rfl
@[simp] theorem State.modRing_partnOn (s : State) (k : Nat) (f : RingSt → RingSt) : (s.modRing k f).partnOn = s.partnOn := rfl

/-! setCore -/

@[simp] theorem State.setCore_pending (s : State) (k : Nat) (x : CoreSt) : (s.setCore k x).pending = s.pending := rfl
@[simp] theorem State.setCore_sent (s : State) (k : Nat) (x : CoreSt) : (s.setCore k x).sent = s.sent := rfl
@[simp] theorem State.setCore_free (s : State) (k : Nat) (x : CoreSt) : (s.setCore k x).free = s.free := rfl
@[simp] theorem State.setCore_time (s : State) (k : Nat) (x : CoreSt) : (s.setCore k x).time = s.time := rfl
@[simp] theorem State.setCore_rf (s : State) (k : Nat) (x : CoreSt) : (s.setCore k x).rf = s.rf := rfl
@[simp] theorem State.setCore_hw (s : State) (k : Nat) (x : CoreSt) : (s.setCore k x).hw = s.hw := rfl
@[simp] theorem State.setCore_mem (s : State) (k : Nat) (x : CoreSt) : (s.setCore k x).mem = s.mem := rfl
@[simp] theorem State.setCore_chk (s : State) (k : Nat) (x : CoreSt) : (s.setCore k x).chk = s.chk := rfl
@[simp] theorem State.setCore_sram (s : State) (k : Nat) (x : CoreSt) : (s.setCore k x).sram = s.sram := rfl
@[simp] theorem State.setCore_marks (s : State) (k : Nat) (x : CoreSt) : (s.setCore k x).marks = s.marks := rfl
@[simp] theorem State.setCore_sramP (s : State) (k : Nat) (x : CoreSt) : (s.setCore k x).sramP = s.sramP := rfl
@[simp] theorem State.setCore_chn (s : State) (k : Nat) (x : CoreSt) : (s.setCore k x).chn = s.chn := rfl
@[simp] theorem State.setCore_tw (s : State) (k : Nat) (x : CoreSt) : (s.setCore k x).tw = s.tw := rfl
@[simp] theorem State.setCore_aisles (s : State) (k : Nat) (x : CoreSt) : (s.setCore k x).aisles = s.aisles := rfl
@[simp] theorem State.setCore_subs (s : State) (k : Nat) (x : CoreSt) : (s.setCore k x).subs = s.subs := rfl
@[simp] theorem State.setCore_ses (s : State) (k : Nat) (x : CoreSt) : (s.setCore k x).ses = s.ses := rfl
@[simp] theorem State.setCore_rings (s : State) (k : Nat) (x : CoreSt) : (s.setCore k x).rings = s.rings := rfl
@[simp] theorem State.setCore_stl (s : State) (k : Nat) (x : CoreSt) : (s.setCore k x).stl = s.stl := rfl
@[simp] theorem State.setCore_hostRds (s : State) (k : Nat) (x : CoreSt) : (s.setCore k x).hostRds = s.hostRds := rfl
@[simp] theorem State.setCore_bar2 (s : State) (k : Nat) (x : CoreSt) : (s.setCore k x).bar2 = s.bar2 := rfl
@[simp] theorem State.setCore_hit (s : State) (k : Nat) (x : CoreSt) : (s.setCore k x).hit = s.hit := rfl
@[simp] theorem State.setCore_prt (s : State) (k : Nat) (x : CoreSt) : (s.setCore k x).prt = s.prt := rfl
@[simp] theorem State.setCore_mgt (s : State) (k : Nat) (x : CoreSt) : (s.setCore k x).mgt = s.mgt := rfl
@[simp] theorem State.setCore_sec (s : State) (k : Nat) (x : CoreSt) : (s.setCore k x).sec = s.sec := rfl
@[simp] theorem State.setCore_fuses (s : State) (k : Nat) (x : CoreSt) : (s.setCore k x).fuses = s.fuses := rfl
@[simp] theorem State.setCore_flash (s : State) (k : Nat) (x : CoreSt) : (s.setCore k x).flash = s.flash := rfl
@[simp] theorem State.setCore_rst (s : State) (k : Nat) (x : CoreSt) : (s.setCore k x).rst = s.rst := rfl
@[simp] theorem State.setCore_wgh (s : State) (k : Nat) (x : CoreSt) : (s.setCore k x).wgh = s.wgh := rfl
@[simp] theorem State.setCore_partn (s : State) (k : Nat) (x : CoreSt) : (s.setCore k x).partn = s.partn := rfl
@[simp] theorem State.setCore_partnOn (s : State) (k : Nat) (x : CoreSt) : (s.setCore k x).partnOn = s.partnOn := rfl

/-! modCore -/

@[simp] theorem State.modCore_pending (s : State) (k : Nat) (f : CoreSt → CoreSt) : (s.modCore k f).pending = s.pending := rfl
@[simp] theorem State.modCore_sent (s : State) (k : Nat) (f : CoreSt → CoreSt) : (s.modCore k f).sent = s.sent := rfl
@[simp] theorem State.modCore_free (s : State) (k : Nat) (f : CoreSt → CoreSt) : (s.modCore k f).free = s.free := rfl
@[simp] theorem State.modCore_time (s : State) (k : Nat) (f : CoreSt → CoreSt) : (s.modCore k f).time = s.time := rfl
@[simp] theorem State.modCore_rf (s : State) (k : Nat) (f : CoreSt → CoreSt) : (s.modCore k f).rf = s.rf := rfl
@[simp] theorem State.modCore_hw (s : State) (k : Nat) (f : CoreSt → CoreSt) : (s.modCore k f).hw = s.hw := rfl
@[simp] theorem State.modCore_mem (s : State) (k : Nat) (f : CoreSt → CoreSt) : (s.modCore k f).mem = s.mem := rfl
@[simp] theorem State.modCore_chk (s : State) (k : Nat) (f : CoreSt → CoreSt) : (s.modCore k f).chk = s.chk := rfl
@[simp] theorem State.modCore_sram (s : State) (k : Nat) (f : CoreSt → CoreSt) : (s.modCore k f).sram = s.sram := rfl
@[simp] theorem State.modCore_marks (s : State) (k : Nat) (f : CoreSt → CoreSt) : (s.modCore k f).marks = s.marks := rfl
@[simp] theorem State.modCore_sramP (s : State) (k : Nat) (f : CoreSt → CoreSt) : (s.modCore k f).sramP = s.sramP := rfl
@[simp] theorem State.modCore_chn (s : State) (k : Nat) (f : CoreSt → CoreSt) : (s.modCore k f).chn = s.chn := rfl
@[simp] theorem State.modCore_tw (s : State) (k : Nat) (f : CoreSt → CoreSt) : (s.modCore k f).tw = s.tw := rfl
@[simp] theorem State.modCore_aisles (s : State) (k : Nat) (f : CoreSt → CoreSt) : (s.modCore k f).aisles = s.aisles := rfl
@[simp] theorem State.modCore_subs (s : State) (k : Nat) (f : CoreSt → CoreSt) : (s.modCore k f).subs = s.subs := rfl
@[simp] theorem State.modCore_ses (s : State) (k : Nat) (f : CoreSt → CoreSt) : (s.modCore k f).ses = s.ses := rfl
@[simp] theorem State.modCore_rings (s : State) (k : Nat) (f : CoreSt → CoreSt) : (s.modCore k f).rings = s.rings := rfl
@[simp] theorem State.modCore_stl (s : State) (k : Nat) (f : CoreSt → CoreSt) : (s.modCore k f).stl = s.stl := rfl
@[simp] theorem State.modCore_hostRds (s : State) (k : Nat) (f : CoreSt → CoreSt) : (s.modCore k f).hostRds = s.hostRds := rfl
@[simp] theorem State.modCore_bar2 (s : State) (k : Nat) (f : CoreSt → CoreSt) : (s.modCore k f).bar2 = s.bar2 := rfl
@[simp] theorem State.modCore_hit (s : State) (k : Nat) (f : CoreSt → CoreSt) : (s.modCore k f).hit = s.hit := rfl
@[simp] theorem State.modCore_prt (s : State) (k : Nat) (f : CoreSt → CoreSt) : (s.modCore k f).prt = s.prt := rfl
@[simp] theorem State.modCore_mgt (s : State) (k : Nat) (f : CoreSt → CoreSt) : (s.modCore k f).mgt = s.mgt := rfl
@[simp] theorem State.modCore_sec (s : State) (k : Nat) (f : CoreSt → CoreSt) : (s.modCore k f).sec = s.sec := rfl
@[simp] theorem State.modCore_fuses (s : State) (k : Nat) (f : CoreSt → CoreSt) : (s.modCore k f).fuses = s.fuses := rfl
@[simp] theorem State.modCore_flash (s : State) (k : Nat) (f : CoreSt → CoreSt) : (s.modCore k f).flash = s.flash := rfl
@[simp] theorem State.modCore_rst (s : State) (k : Nat) (f : CoreSt → CoreSt) : (s.modCore k f).rst = s.rst := rfl
@[simp] theorem State.modCore_wgh (s : State) (k : Nat) (f : CoreSt → CoreSt) : (s.modCore k f).wgh = s.wgh := rfl
@[simp] theorem State.modCore_partn (s : State) (k : Nat) (f : CoreSt → CoreSt) : (s.modCore k f).partn = s.partn := rfl
@[simp] theorem State.modCore_partnOn (s : State) (k : Nat) (f : CoreSt → CoreSt) : (s.modCore k f).partnOn = s.partnOn := rfl

/-! setAisle -/

@[simp] theorem State.setAisle_pending (s : State) (k : Nat) (x : AisleSt) : (s.setAisle k x).pending = s.pending := rfl
@[simp] theorem State.setAisle_sent (s : State) (k : Nat) (x : AisleSt) : (s.setAisle k x).sent = s.sent := rfl
@[simp] theorem State.setAisle_free (s : State) (k : Nat) (x : AisleSt) : (s.setAisle k x).free = s.free := rfl
@[simp] theorem State.setAisle_time (s : State) (k : Nat) (x : AisleSt) : (s.setAisle k x).time = s.time := rfl
@[simp] theorem State.setAisle_rf (s : State) (k : Nat) (x : AisleSt) : (s.setAisle k x).rf = s.rf := rfl
@[simp] theorem State.setAisle_hw (s : State) (k : Nat) (x : AisleSt) : (s.setAisle k x).hw = s.hw := rfl
@[simp] theorem State.setAisle_mem (s : State) (k : Nat) (x : AisleSt) : (s.setAisle k x).mem = s.mem := rfl
@[simp] theorem State.setAisle_chk (s : State) (k : Nat) (x : AisleSt) : (s.setAisle k x).chk = s.chk := rfl
@[simp] theorem State.setAisle_sram (s : State) (k : Nat) (x : AisleSt) : (s.setAisle k x).sram = s.sram := rfl
@[simp] theorem State.setAisle_marks (s : State) (k : Nat) (x : AisleSt) : (s.setAisle k x).marks = s.marks := rfl
@[simp] theorem State.setAisle_sramP (s : State) (k : Nat) (x : AisleSt) : (s.setAisle k x).sramP = s.sramP := rfl
@[simp] theorem State.setAisle_chn (s : State) (k : Nat) (x : AisleSt) : (s.setAisle k x).chn = s.chn := rfl
@[simp] theorem State.setAisle_tw (s : State) (k : Nat) (x : AisleSt) : (s.setAisle k x).tw = s.tw := rfl
@[simp] theorem State.setAisle_cores (s : State) (k : Nat) (x : AisleSt) : (s.setAisle k x).cores = s.cores := rfl
@[simp] theorem State.setAisle_subs (s : State) (k : Nat) (x : AisleSt) : (s.setAisle k x).subs = s.subs := rfl
@[simp] theorem State.setAisle_ses (s : State) (k : Nat) (x : AisleSt) : (s.setAisle k x).ses = s.ses := rfl
@[simp] theorem State.setAisle_rings (s : State) (k : Nat) (x : AisleSt) : (s.setAisle k x).rings = s.rings := rfl
@[simp] theorem State.setAisle_stl (s : State) (k : Nat) (x : AisleSt) : (s.setAisle k x).stl = s.stl := rfl
@[simp] theorem State.setAisle_hostRds (s : State) (k : Nat) (x : AisleSt) : (s.setAisle k x).hostRds = s.hostRds := rfl
@[simp] theorem State.setAisle_bar2 (s : State) (k : Nat) (x : AisleSt) : (s.setAisle k x).bar2 = s.bar2 := rfl
@[simp] theorem State.setAisle_hit (s : State) (k : Nat) (x : AisleSt) : (s.setAisle k x).hit = s.hit := rfl
@[simp] theorem State.setAisle_prt (s : State) (k : Nat) (x : AisleSt) : (s.setAisle k x).prt = s.prt := rfl
@[simp] theorem State.setAisle_mgt (s : State) (k : Nat) (x : AisleSt) : (s.setAisle k x).mgt = s.mgt := rfl
@[simp] theorem State.setAisle_sec (s : State) (k : Nat) (x : AisleSt) : (s.setAisle k x).sec = s.sec := rfl
@[simp] theorem State.setAisle_fuses (s : State) (k : Nat) (x : AisleSt) : (s.setAisle k x).fuses = s.fuses := rfl
@[simp] theorem State.setAisle_flash (s : State) (k : Nat) (x : AisleSt) : (s.setAisle k x).flash = s.flash := rfl
@[simp] theorem State.setAisle_rst (s : State) (k : Nat) (x : AisleSt) : (s.setAisle k x).rst = s.rst := rfl
@[simp] theorem State.setAisle_wgh (s : State) (k : Nat) (x : AisleSt) : (s.setAisle k x).wgh = s.wgh := rfl
@[simp] theorem State.setAisle_partn (s : State) (k : Nat) (x : AisleSt) : (s.setAisle k x).partn = s.partn := rfl
@[simp] theorem State.setAisle_partnOn (s : State) (k : Nat) (x : AisleSt) : (s.setAisle k x).partnOn = s.partnOn := rfl

/-! modAisle -/

@[simp] theorem State.modAisle_pending (s : State) (k : Nat) (f : AisleSt → AisleSt) : (s.modAisle k f).pending = s.pending := rfl
@[simp] theorem State.modAisle_sent (s : State) (k : Nat) (f : AisleSt → AisleSt) : (s.modAisle k f).sent = s.sent := rfl
@[simp] theorem State.modAisle_free (s : State) (k : Nat) (f : AisleSt → AisleSt) : (s.modAisle k f).free = s.free := rfl
@[simp] theorem State.modAisle_time (s : State) (k : Nat) (f : AisleSt → AisleSt) : (s.modAisle k f).time = s.time := rfl
@[simp] theorem State.modAisle_rf (s : State) (k : Nat) (f : AisleSt → AisleSt) : (s.modAisle k f).rf = s.rf := rfl
@[simp] theorem State.modAisle_hw (s : State) (k : Nat) (f : AisleSt → AisleSt) : (s.modAisle k f).hw = s.hw := rfl
@[simp] theorem State.modAisle_mem (s : State) (k : Nat) (f : AisleSt → AisleSt) : (s.modAisle k f).mem = s.mem := rfl
@[simp] theorem State.modAisle_chk (s : State) (k : Nat) (f : AisleSt → AisleSt) : (s.modAisle k f).chk = s.chk := rfl
@[simp] theorem State.modAisle_sram (s : State) (k : Nat) (f : AisleSt → AisleSt) : (s.modAisle k f).sram = s.sram := rfl
@[simp] theorem State.modAisle_marks (s : State) (k : Nat) (f : AisleSt → AisleSt) : (s.modAisle k f).marks = s.marks := rfl
@[simp] theorem State.modAisle_sramP (s : State) (k : Nat) (f : AisleSt → AisleSt) : (s.modAisle k f).sramP = s.sramP := rfl
@[simp] theorem State.modAisle_chn (s : State) (k : Nat) (f : AisleSt → AisleSt) : (s.modAisle k f).chn = s.chn := rfl
@[simp] theorem State.modAisle_tw (s : State) (k : Nat) (f : AisleSt → AisleSt) : (s.modAisle k f).tw = s.tw := rfl
@[simp] theorem State.modAisle_cores (s : State) (k : Nat) (f : AisleSt → AisleSt) : (s.modAisle k f).cores = s.cores := rfl
@[simp] theorem State.modAisle_subs (s : State) (k : Nat) (f : AisleSt → AisleSt) : (s.modAisle k f).subs = s.subs := rfl
@[simp] theorem State.modAisle_ses (s : State) (k : Nat) (f : AisleSt → AisleSt) : (s.modAisle k f).ses = s.ses := rfl
@[simp] theorem State.modAisle_rings (s : State) (k : Nat) (f : AisleSt → AisleSt) : (s.modAisle k f).rings = s.rings := rfl
@[simp] theorem State.modAisle_stl (s : State) (k : Nat) (f : AisleSt → AisleSt) : (s.modAisle k f).stl = s.stl := rfl
@[simp] theorem State.modAisle_hostRds (s : State) (k : Nat) (f : AisleSt → AisleSt) : (s.modAisle k f).hostRds = s.hostRds := rfl
@[simp] theorem State.modAisle_bar2 (s : State) (k : Nat) (f : AisleSt → AisleSt) : (s.modAisle k f).bar2 = s.bar2 := rfl
@[simp] theorem State.modAisle_hit (s : State) (k : Nat) (f : AisleSt → AisleSt) : (s.modAisle k f).hit = s.hit := rfl
@[simp] theorem State.modAisle_prt (s : State) (k : Nat) (f : AisleSt → AisleSt) : (s.modAisle k f).prt = s.prt := rfl
@[simp] theorem State.modAisle_mgt (s : State) (k : Nat) (f : AisleSt → AisleSt) : (s.modAisle k f).mgt = s.mgt := rfl
@[simp] theorem State.modAisle_sec (s : State) (k : Nat) (f : AisleSt → AisleSt) : (s.modAisle k f).sec = s.sec := rfl
@[simp] theorem State.modAisle_fuses (s : State) (k : Nat) (f : AisleSt → AisleSt) : (s.modAisle k f).fuses = s.fuses := rfl
@[simp] theorem State.modAisle_flash (s : State) (k : Nat) (f : AisleSt → AisleSt) : (s.modAisle k f).flash = s.flash := rfl
@[simp] theorem State.modAisle_rst (s : State) (k : Nat) (f : AisleSt → AisleSt) : (s.modAisle k f).rst = s.rst := rfl
@[simp] theorem State.modAisle_wgh (s : State) (k : Nat) (f : AisleSt → AisleSt) : (s.modAisle k f).wgh = s.wgh := rfl
@[simp] theorem State.modAisle_partn (s : State) (k : Nat) (f : AisleSt → AisleSt) : (s.modAisle k f).partn = s.partn := rfl
@[simp] theorem State.modAisle_partnOn (s : State) (k : Nat) (f : AisleSt → AisleSt) : (s.modAisle k f).partnOn = s.partnOn := rfl

/-! emit -/

@[simp] theorem State.emit_pending (s : State) (o : Out) : (s.emit o).pending = s.pending := rfl
@[simp] theorem State.emit_free (s : State) (o : Out) : (s.emit o).free = s.free := rfl
@[simp] theorem State.emit_time (s : State) (o : Out) : (s.emit o).time = s.time := rfl
@[simp] theorem State.emit_rf (s : State) (o : Out) : (s.emit o).rf = s.rf := rfl
@[simp] theorem State.emit_hw (s : State) (o : Out) : (s.emit o).hw = s.hw := rfl
@[simp] theorem State.emit_mem (s : State) (o : Out) : (s.emit o).mem = s.mem := rfl
@[simp] theorem State.emit_chk (s : State) (o : Out) : (s.emit o).chk = s.chk := rfl
@[simp] theorem State.emit_sram (s : State) (o : Out) : (s.emit o).sram = s.sram := rfl
@[simp] theorem State.emit_marks (s : State) (o : Out) : (s.emit o).marks = s.marks := rfl
@[simp] theorem State.emit_sramP (s : State) (o : Out) : (s.emit o).sramP = s.sramP := rfl
@[simp] theorem State.emit_chn (s : State) (o : Out) : (s.emit o).chn = s.chn := rfl
@[simp] theorem State.emit_tw (s : State) (o : Out) : (s.emit o).tw = s.tw := rfl
@[simp] theorem State.emit_cores (s : State) (o : Out) : (s.emit o).cores = s.cores := rfl
@[simp] theorem State.emit_aisles (s : State) (o : Out) : (s.emit o).aisles = s.aisles := rfl
@[simp] theorem State.emit_subs (s : State) (o : Out) : (s.emit o).subs = s.subs := rfl
@[simp] theorem State.emit_ses (s : State) (o : Out) : (s.emit o).ses = s.ses := rfl
@[simp] theorem State.emit_rings (s : State) (o : Out) : (s.emit o).rings = s.rings := rfl
@[simp] theorem State.emit_stl (s : State) (o : Out) : (s.emit o).stl = s.stl := rfl
@[simp] theorem State.emit_hostRds (s : State) (o : Out) : (s.emit o).hostRds = s.hostRds := rfl
@[simp] theorem State.emit_bar2 (s : State) (o : Out) : (s.emit o).bar2 = s.bar2 := rfl
@[simp] theorem State.emit_hit (s : State) (o : Out) : (s.emit o).hit = s.hit := rfl
@[simp] theorem State.emit_prt (s : State) (o : Out) : (s.emit o).prt = s.prt := rfl
@[simp] theorem State.emit_mgt (s : State) (o : Out) : (s.emit o).mgt = s.mgt := rfl
@[simp] theorem State.emit_sec (s : State) (o : Out) : (s.emit o).sec = s.sec := rfl
@[simp] theorem State.emit_fuses (s : State) (o : Out) : (s.emit o).fuses = s.fuses := rfl
@[simp] theorem State.emit_flash (s : State) (o : Out) : (s.emit o).flash = s.flash := rfl
@[simp] theorem State.emit_rst (s : State) (o : Out) : (s.emit o).rst = s.rst := rfl
@[simp] theorem State.emit_wgh (s : State) (o : Out) : (s.emit o).wgh = s.wgh := rfl
@[simp] theorem State.emit_partn (s : State) (o : Out) : (s.emit o).partn = s.partn := rfl
@[simp] theorem State.emit_partnOn (s : State) (o : Out) : (s.emit o).partnOn = s.partnOn := rfl

/-! setReg -/

@[simp] theorem State.setReg_pending (s : State) (a : Nat) (w : Word) : (s.setReg a w).pending = s.pending := rfl
@[simp] theorem State.setReg_sent (s : State) (a : Nat) (w : Word) : (s.setReg a w).sent = s.sent := rfl
@[simp] theorem State.setReg_free (s : State) (a : Nat) (w : Word) : (s.setReg a w).free = s.free := rfl
@[simp] theorem State.setReg_time (s : State) (a : Nat) (w : Word) : (s.setReg a w).time = s.time := rfl
@[simp] theorem State.setReg_hw (s : State) (a : Nat) (w : Word) : (s.setReg a w).hw = s.hw := rfl
@[simp] theorem State.setReg_mem (s : State) (a : Nat) (w : Word) : (s.setReg a w).mem = s.mem := rfl
@[simp] theorem State.setReg_chk (s : State) (a : Nat) (w : Word) : (s.setReg a w).chk = s.chk := rfl
@[simp] theorem State.setReg_sram (s : State) (a : Nat) (w : Word) : (s.setReg a w).sram = s.sram := rfl
@[simp] theorem State.setReg_marks (s : State) (a : Nat) (w : Word) : (s.setReg a w).marks = s.marks := rfl
@[simp] theorem State.setReg_sramP (s : State) (a : Nat) (w : Word) : (s.setReg a w).sramP = s.sramP := rfl
@[simp] theorem State.setReg_chn (s : State) (a : Nat) (w : Word) : (s.setReg a w).chn = s.chn := rfl
@[simp] theorem State.setReg_tw (s : State) (a : Nat) (w : Word) : (s.setReg a w).tw = s.tw := rfl
@[simp] theorem State.setReg_cores (s : State) (a : Nat) (w : Word) : (s.setReg a w).cores = s.cores := rfl
@[simp] theorem State.setReg_aisles (s : State) (a : Nat) (w : Word) : (s.setReg a w).aisles = s.aisles := rfl
@[simp] theorem State.setReg_subs (s : State) (a : Nat) (w : Word) : (s.setReg a w).subs = s.subs := rfl
@[simp] theorem State.setReg_ses (s : State) (a : Nat) (w : Word) : (s.setReg a w).ses = s.ses := rfl
@[simp] theorem State.setReg_rings (s : State) (a : Nat) (w : Word) : (s.setReg a w).rings = s.rings := rfl
@[simp] theorem State.setReg_stl (s : State) (a : Nat) (w : Word) : (s.setReg a w).stl = s.stl := rfl
@[simp] theorem State.setReg_hostRds (s : State) (a : Nat) (w : Word) : (s.setReg a w).hostRds = s.hostRds := rfl
@[simp] theorem State.setReg_bar2 (s : State) (a : Nat) (w : Word) : (s.setReg a w).bar2 = s.bar2 := rfl
@[simp] theorem State.setReg_hit (s : State) (a : Nat) (w : Word) : (s.setReg a w).hit = s.hit := rfl
@[simp] theorem State.setReg_prt (s : State) (a : Nat) (w : Word) : (s.setReg a w).prt = s.prt := rfl
@[simp] theorem State.setReg_mgt (s : State) (a : Nat) (w : Word) : (s.setReg a w).mgt = s.mgt := rfl
@[simp] theorem State.setReg_sec (s : State) (a : Nat) (w : Word) : (s.setReg a w).sec = s.sec := rfl
@[simp] theorem State.setReg_fuses (s : State) (a : Nat) (w : Word) : (s.setReg a w).fuses = s.fuses := rfl
@[simp] theorem State.setReg_flash (s : State) (a : Nat) (w : Word) : (s.setReg a w).flash = s.flash := rfl
@[simp] theorem State.setReg_rst (s : State) (a : Nat) (w : Word) : (s.setReg a w).rst = s.rst := rfl
@[simp] theorem State.setReg_wgh (s : State) (a : Nat) (w : Word) : (s.setReg a w).wgh = s.wgh := rfl
@[simp] theorem State.setReg_partn (s : State) (a : Nat) (w : Word) : (s.setReg a w).partn = s.partn := rfl
@[simp] theorem State.setReg_partnOn (s : State) (a : Nat) (w : Word) : (s.setReg a w).partnOn = s.partnOn := rfl

/-! setFld -/

@[simp] theorem State.setFld_pending (s : State) (a h l v : Nat) : (s.setFld a h l v).pending = s.pending := rfl
@[simp] theorem State.setFld_sent (s : State) (a h l v : Nat) : (s.setFld a h l v).sent = s.sent := rfl
@[simp] theorem State.setFld_free (s : State) (a h l v : Nat) : (s.setFld a h l v).free = s.free := rfl
@[simp] theorem State.setFld_time (s : State) (a h l v : Nat) : (s.setFld a h l v).time = s.time := rfl
@[simp] theorem State.setFld_hw (s : State) (a h l v : Nat) : (s.setFld a h l v).hw = s.hw := rfl
@[simp] theorem State.setFld_mem (s : State) (a h l v : Nat) : (s.setFld a h l v).mem = s.mem := rfl
@[simp] theorem State.setFld_chk (s : State) (a h l v : Nat) : (s.setFld a h l v).chk = s.chk := rfl
@[simp] theorem State.setFld_sram (s : State) (a h l v : Nat) : (s.setFld a h l v).sram = s.sram := rfl
@[simp] theorem State.setFld_marks (s : State) (a h l v : Nat) : (s.setFld a h l v).marks = s.marks := rfl
@[simp] theorem State.setFld_sramP (s : State) (a h l v : Nat) : (s.setFld a h l v).sramP = s.sramP := rfl
@[simp] theorem State.setFld_chn (s : State) (a h l v : Nat) : (s.setFld a h l v).chn = s.chn := rfl
@[simp] theorem State.setFld_tw (s : State) (a h l v : Nat) : (s.setFld a h l v).tw = s.tw := rfl
@[simp] theorem State.setFld_cores (s : State) (a h l v : Nat) : (s.setFld a h l v).cores = s.cores := rfl
@[simp] theorem State.setFld_aisles (s : State) (a h l v : Nat) : (s.setFld a h l v).aisles = s.aisles := rfl
@[simp] theorem State.setFld_subs (s : State) (a h l v : Nat) : (s.setFld a h l v).subs = s.subs := rfl
@[simp] theorem State.setFld_ses (s : State) (a h l v : Nat) : (s.setFld a h l v).ses = s.ses := rfl
@[simp] theorem State.setFld_rings (s : State) (a h l v : Nat) : (s.setFld a h l v).rings = s.rings := rfl
@[simp] theorem State.setFld_stl (s : State) (a h l v : Nat) : (s.setFld a h l v).stl = s.stl := rfl
@[simp] theorem State.setFld_hostRds (s : State) (a h l v : Nat) : (s.setFld a h l v).hostRds = s.hostRds := rfl
@[simp] theorem State.setFld_bar2 (s : State) (a h l v : Nat) : (s.setFld a h l v).bar2 = s.bar2 := rfl
@[simp] theorem State.setFld_hit (s : State) (a h l v : Nat) : (s.setFld a h l v).hit = s.hit := rfl
@[simp] theorem State.setFld_prt (s : State) (a h l v : Nat) : (s.setFld a h l v).prt = s.prt := rfl
@[simp] theorem State.setFld_mgt (s : State) (a h l v : Nat) : (s.setFld a h l v).mgt = s.mgt := rfl
@[simp] theorem State.setFld_sec (s : State) (a h l v : Nat) : (s.setFld a h l v).sec = s.sec := rfl
@[simp] theorem State.setFld_fuses (s : State) (a h l v : Nat) : (s.setFld a h l v).fuses = s.fuses := rfl
@[simp] theorem State.setFld_flash (s : State) (a h l v : Nat) : (s.setFld a h l v).flash = s.flash := rfl
@[simp] theorem State.setFld_rst (s : State) (a h l v : Nat) : (s.setFld a h l v).rst = s.rst := rfl
@[simp] theorem State.setFld_wgh (s : State) (a h l v : Nat) : (s.setFld a h l v).wgh = s.wgh := rfl
@[simp] theorem State.setFld_partn (s : State) (a h l v : Nat) : (s.setFld a h l v).partn = s.partn := rfl
@[simp] theorem State.setFld_partnOn (s : State) (a h l v : Nat) : (s.setFld a h l v).partnOn = s.partnOn := rfl

/-! setBit -/

@[simp] theorem State.setBit_pending (s : State) (a i : Nat) (b : Bool) : (s.setBit a i b).pending = s.pending := rfl
@[simp] theorem State.setBit_sent (s : State) (a i : Nat) (b : Bool) : (s.setBit a i b).sent = s.sent := rfl
@[simp] theorem State.setBit_free (s : State) (a i : Nat) (b : Bool) : (s.setBit a i b).free = s.free := rfl
@[simp] theorem State.setBit_time (s : State) (a i : Nat) (b : Bool) : (s.setBit a i b).time = s.time := rfl
@[simp] theorem State.setBit_hw (s : State) (a i : Nat) (b : Bool) : (s.setBit a i b).hw = s.hw := rfl
@[simp] theorem State.setBit_mem (s : State) (a i : Nat) (b : Bool) : (s.setBit a i b).mem = s.mem := rfl
@[simp] theorem State.setBit_chk (s : State) (a i : Nat) (b : Bool) : (s.setBit a i b).chk = s.chk := rfl
@[simp] theorem State.setBit_sram (s : State) (a i : Nat) (b : Bool) : (s.setBit a i b).sram = s.sram := rfl
@[simp] theorem State.setBit_marks (s : State) (a i : Nat) (b : Bool) : (s.setBit a i b).marks = s.marks := rfl
@[simp] theorem State.setBit_sramP (s : State) (a i : Nat) (b : Bool) : (s.setBit a i b).sramP = s.sramP := rfl
@[simp] theorem State.setBit_chn (s : State) (a i : Nat) (b : Bool) : (s.setBit a i b).chn = s.chn := rfl
@[simp] theorem State.setBit_tw (s : State) (a i : Nat) (b : Bool) : (s.setBit a i b).tw = s.tw := rfl
@[simp] theorem State.setBit_cores (s : State) (a i : Nat) (b : Bool) : (s.setBit a i b).cores = s.cores := rfl
@[simp] theorem State.setBit_aisles (s : State) (a i : Nat) (b : Bool) : (s.setBit a i b).aisles = s.aisles := rfl
@[simp] theorem State.setBit_subs (s : State) (a i : Nat) (b : Bool) : (s.setBit a i b).subs = s.subs := rfl
@[simp] theorem State.setBit_ses (s : State) (a i : Nat) (b : Bool) : (s.setBit a i b).ses = s.ses := rfl
@[simp] theorem State.setBit_rings (s : State) (a i : Nat) (b : Bool) : (s.setBit a i b).rings = s.rings := rfl
@[simp] theorem State.setBit_stl (s : State) (a i : Nat) (b : Bool) : (s.setBit a i b).stl = s.stl := rfl
@[simp] theorem State.setBit_hostRds (s : State) (a i : Nat) (b : Bool) : (s.setBit a i b).hostRds = s.hostRds := rfl
@[simp] theorem State.setBit_bar2 (s : State) (a i : Nat) (b : Bool) : (s.setBit a i b).bar2 = s.bar2 := rfl
@[simp] theorem State.setBit_hit (s : State) (a i : Nat) (b : Bool) : (s.setBit a i b).hit = s.hit := rfl
@[simp] theorem State.setBit_prt (s : State) (a i : Nat) (b : Bool) : (s.setBit a i b).prt = s.prt := rfl
@[simp] theorem State.setBit_mgt (s : State) (a i : Nat) (b : Bool) : (s.setBit a i b).mgt = s.mgt := rfl
@[simp] theorem State.setBit_sec (s : State) (a i : Nat) (b : Bool) : (s.setBit a i b).sec = s.sec := rfl
@[simp] theorem State.setBit_fuses (s : State) (a i : Nat) (b : Bool) : (s.setBit a i b).fuses = s.fuses := rfl
@[simp] theorem State.setBit_flash (s : State) (a i : Nat) (b : Bool) : (s.setBit a i b).flash = s.flash := rfl
@[simp] theorem State.setBit_rst (s : State) (a i : Nat) (b : Bool) : (s.setBit a i b).rst = s.rst := rfl
@[simp] theorem State.setBit_wgh (s : State) (a i : Nat) (b : Bool) : (s.setBit a i b).wgh = s.wgh := rfl
@[simp] theorem State.setBit_partn (s : State) (a i : Nat) (b : Bool) : (s.setBit a i b).partn = s.partn := rfl
@[simp] theorem State.setBit_partnOn (s : State) (a i : Nat) (b : Bool) : (s.setBit a i b).partnOn = s.partnOn := rfl

/-! bump -/

@[simp] theorem State.bump_pending (s : State) (a n : Nat) : (s.bump a n).pending = s.pending := rfl
@[simp] theorem State.bump_sent (s : State) (a n : Nat) : (s.bump a n).sent = s.sent := rfl
@[simp] theorem State.bump_free (s : State) (a n : Nat) : (s.bump a n).free = s.free := rfl
@[simp] theorem State.bump_time (s : State) (a n : Nat) : (s.bump a n).time = s.time := rfl
@[simp] theorem State.bump_hw (s : State) (a n : Nat) : (s.bump a n).hw = s.hw := rfl
@[simp] theorem State.bump_mem (s : State) (a n : Nat) : (s.bump a n).mem = s.mem := rfl
@[simp] theorem State.bump_chk (s : State) (a n : Nat) : (s.bump a n).chk = s.chk := rfl
@[simp] theorem State.bump_sram (s : State) (a n : Nat) : (s.bump a n).sram = s.sram := rfl
@[simp] theorem State.bump_marks (s : State) (a n : Nat) : (s.bump a n).marks = s.marks := rfl
@[simp] theorem State.bump_sramP (s : State) (a n : Nat) : (s.bump a n).sramP = s.sramP := rfl
@[simp] theorem State.bump_chn (s : State) (a n : Nat) : (s.bump a n).chn = s.chn := rfl
@[simp] theorem State.bump_tw (s : State) (a n : Nat) : (s.bump a n).tw = s.tw := rfl
@[simp] theorem State.bump_cores (s : State) (a n : Nat) : (s.bump a n).cores = s.cores := rfl
@[simp] theorem State.bump_aisles (s : State) (a n : Nat) : (s.bump a n).aisles = s.aisles := rfl
@[simp] theorem State.bump_subs (s : State) (a n : Nat) : (s.bump a n).subs = s.subs := rfl
@[simp] theorem State.bump_ses (s : State) (a n : Nat) : (s.bump a n).ses = s.ses := rfl
@[simp] theorem State.bump_rings (s : State) (a n : Nat) : (s.bump a n).rings = s.rings := rfl
@[simp] theorem State.bump_stl (s : State) (a n : Nat) : (s.bump a n).stl = s.stl := rfl
@[simp] theorem State.bump_hostRds (s : State) (a n : Nat) : (s.bump a n).hostRds = s.hostRds := rfl
@[simp] theorem State.bump_bar2 (s : State) (a n : Nat) : (s.bump a n).bar2 = s.bar2 := rfl
@[simp] theorem State.bump_hit (s : State) (a n : Nat) : (s.bump a n).hit = s.hit := rfl
@[simp] theorem State.bump_prt (s : State) (a n : Nat) : (s.bump a n).prt = s.prt := rfl
@[simp] theorem State.bump_mgt (s : State) (a n : Nat) : (s.bump a n).mgt = s.mgt := rfl
@[simp] theorem State.bump_sec (s : State) (a n : Nat) : (s.bump a n).sec = s.sec := rfl
@[simp] theorem State.bump_fuses (s : State) (a n : Nat) : (s.bump a n).fuses = s.fuses := rfl
@[simp] theorem State.bump_flash (s : State) (a n : Nat) : (s.bump a n).flash = s.flash := rfl
@[simp] theorem State.bump_rst (s : State) (a n : Nat) : (s.bump a n).rst = s.rst := rfl
@[simp] theorem State.bump_wgh (s : State) (a n : Nat) : (s.bump a n).wgh = s.wgh := rfl
@[simp] theorem State.bump_partn (s : State) (a n : Nat) : (s.bump a n).partn = s.partn := rfl
@[simp] theorem State.bump_partnOn (s : State) (a n : Nat) : (s.bump a n).partnOn = s.partnOn := rfl

/-! setReg64 -/

@[simp] theorem State.setReg64_pending (s : State) (a v : Nat) : (s.setReg64 a v).pending = s.pending := rfl
@[simp] theorem State.setReg64_sent (s : State) (a v : Nat) : (s.setReg64 a v).sent = s.sent := rfl
@[simp] theorem State.setReg64_free (s : State) (a v : Nat) : (s.setReg64 a v).free = s.free := rfl
@[simp] theorem State.setReg64_time (s : State) (a v : Nat) : (s.setReg64 a v).time = s.time := rfl
@[simp] theorem State.setReg64_hw (s : State) (a v : Nat) : (s.setReg64 a v).hw = s.hw := rfl
@[simp] theorem State.setReg64_mem (s : State) (a v : Nat) : (s.setReg64 a v).mem = s.mem := rfl
@[simp] theorem State.setReg64_chk (s : State) (a v : Nat) : (s.setReg64 a v).chk = s.chk := rfl
@[simp] theorem State.setReg64_sram (s : State) (a v : Nat) : (s.setReg64 a v).sram = s.sram := rfl
@[simp] theorem State.setReg64_marks (s : State) (a v : Nat) : (s.setReg64 a v).marks = s.marks := rfl
@[simp] theorem State.setReg64_sramP (s : State) (a v : Nat) : (s.setReg64 a v).sramP = s.sramP := rfl
@[simp] theorem State.setReg64_chn (s : State) (a v : Nat) : (s.setReg64 a v).chn = s.chn := rfl
@[simp] theorem State.setReg64_tw (s : State) (a v : Nat) : (s.setReg64 a v).tw = s.tw := rfl
@[simp] theorem State.setReg64_cores (s : State) (a v : Nat) : (s.setReg64 a v).cores = s.cores := rfl
@[simp] theorem State.setReg64_aisles (s : State) (a v : Nat) : (s.setReg64 a v).aisles = s.aisles := rfl
@[simp] theorem State.setReg64_subs (s : State) (a v : Nat) : (s.setReg64 a v).subs = s.subs := rfl
@[simp] theorem State.setReg64_ses (s : State) (a v : Nat) : (s.setReg64 a v).ses = s.ses := rfl
@[simp] theorem State.setReg64_rings (s : State) (a v : Nat) : (s.setReg64 a v).rings = s.rings := rfl
@[simp] theorem State.setReg64_stl (s : State) (a v : Nat) : (s.setReg64 a v).stl = s.stl := rfl
@[simp] theorem State.setReg64_hostRds (s : State) (a v : Nat) : (s.setReg64 a v).hostRds = s.hostRds := rfl
@[simp] theorem State.setReg64_bar2 (s : State) (a v : Nat) : (s.setReg64 a v).bar2 = s.bar2 := rfl
@[simp] theorem State.setReg64_hit (s : State) (a v : Nat) : (s.setReg64 a v).hit = s.hit := rfl
@[simp] theorem State.setReg64_prt (s : State) (a v : Nat) : (s.setReg64 a v).prt = s.prt := rfl
@[simp] theorem State.setReg64_mgt (s : State) (a v : Nat) : (s.setReg64 a v).mgt = s.mgt := rfl
@[simp] theorem State.setReg64_sec (s : State) (a v : Nat) : (s.setReg64 a v).sec = s.sec := rfl
@[simp] theorem State.setReg64_fuses (s : State) (a v : Nat) : (s.setReg64 a v).fuses = s.fuses := rfl
@[simp] theorem State.setReg64_flash (s : State) (a v : Nat) : (s.setReg64 a v).flash = s.flash := rfl
@[simp] theorem State.setReg64_rst (s : State) (a v : Nat) : (s.setReg64 a v).rst = s.rst := rfl
@[simp] theorem State.setReg64_wgh (s : State) (a v : Nat) : (s.setReg64 a v).wgh = s.wgh := rfl
@[simp] theorem State.setReg64_partn (s : State) (a v : Nat) : (s.setReg64 a v).partn = s.partn := rfl
@[simp] theorem State.setReg64_partnOn (s : State) (a v : Nat) : (s.setReg64 a v).partnOn = s.partnOn := rfl

/-! setCopy -/

@[simp] theorem State.setCopy_pending (s : State) (n k : Nat) (w : Word) : (s.setCopy n k w).pending = s.pending := rfl
@[simp] theorem State.setCopy_sent (s : State) (n k : Nat) (w : Word) : (s.setCopy n k w).sent = s.sent := rfl
@[simp] theorem State.setCopy_free (s : State) (n k : Nat) (w : Word) : (s.setCopy n k w).free = s.free := rfl
@[simp] theorem State.setCopy_time (s : State) (n k : Nat) (w : Word) : (s.setCopy n k w).time = s.time := rfl
@[simp] theorem State.setCopy_hw (s : State) (n k : Nat) (w : Word) : (s.setCopy n k w).hw = s.hw := rfl
@[simp] theorem State.setCopy_mem (s : State) (n k : Nat) (w : Word) : (s.setCopy n k w).mem = s.mem := rfl
@[simp] theorem State.setCopy_chk (s : State) (n k : Nat) (w : Word) : (s.setCopy n k w).chk = s.chk := rfl
@[simp] theorem State.setCopy_sram (s : State) (n k : Nat) (w : Word) : (s.setCopy n k w).sram = s.sram := rfl
@[simp] theorem State.setCopy_marks (s : State) (n k : Nat) (w : Word) : (s.setCopy n k w).marks = s.marks := rfl
@[simp] theorem State.setCopy_sramP (s : State) (n k : Nat) (w : Word) : (s.setCopy n k w).sramP = s.sramP := rfl
@[simp] theorem State.setCopy_chn (s : State) (n k : Nat) (w : Word) : (s.setCopy n k w).chn = s.chn := rfl
@[simp] theorem State.setCopy_tw (s : State) (n k : Nat) (w : Word) : (s.setCopy n k w).tw = s.tw := rfl
@[simp] theorem State.setCopy_cores (s : State) (n k : Nat) (w : Word) : (s.setCopy n k w).cores = s.cores := rfl
@[simp] theorem State.setCopy_aisles (s : State) (n k : Nat) (w : Word) : (s.setCopy n k w).aisles = s.aisles := rfl
@[simp] theorem State.setCopy_subs (s : State) (n k : Nat) (w : Word) : (s.setCopy n k w).subs = s.subs := rfl
@[simp] theorem State.setCopy_ses (s : State) (n k : Nat) (w : Word) : (s.setCopy n k w).ses = s.ses := rfl
@[simp] theorem State.setCopy_rings (s : State) (n k : Nat) (w : Word) : (s.setCopy n k w).rings = s.rings := rfl
@[simp] theorem State.setCopy_stl (s : State) (n k : Nat) (w : Word) : (s.setCopy n k w).stl = s.stl := rfl
@[simp] theorem State.setCopy_hostRds (s : State) (n k : Nat) (w : Word) : (s.setCopy n k w).hostRds = s.hostRds := rfl
@[simp] theorem State.setCopy_bar2 (s : State) (n k : Nat) (w : Word) : (s.setCopy n k w).bar2 = s.bar2 := rfl
@[simp] theorem State.setCopy_hit (s : State) (n k : Nat) (w : Word) : (s.setCopy n k w).hit = s.hit := rfl
@[simp] theorem State.setCopy_prt (s : State) (n k : Nat) (w : Word) : (s.setCopy n k w).prt = s.prt := rfl
@[simp] theorem State.setCopy_mgt (s : State) (n k : Nat) (w : Word) : (s.setCopy n k w).mgt = s.mgt := rfl
@[simp] theorem State.setCopy_sec (s : State) (n k : Nat) (w : Word) : (s.setCopy n k w).sec = s.sec := rfl
@[simp] theorem State.setCopy_fuses (s : State) (n k : Nat) (w : Word) : (s.setCopy n k w).fuses = s.fuses := rfl
@[simp] theorem State.setCopy_flash (s : State) (n k : Nat) (w : Word) : (s.setCopy n k w).flash = s.flash := rfl
@[simp] theorem State.setCopy_rst (s : State) (n k : Nat) (w : Word) : (s.setCopy n k w).rst = s.rst := rfl
@[simp] theorem State.setCopy_wgh (s : State) (n k : Nat) (w : Word) : (s.setCopy n k w).wgh = s.wgh := rfl
@[simp] theorem State.setCopy_partn (s : State) (n k : Nat) (w : Word) : (s.setCopy n k w).partn = s.partn := rfl
@[simp] theorem State.setCopy_partnOn (s : State) (n k : Nat) (w : Word) : (s.setCopy n k w).partnOn = s.partnOn := rfl

/-! setTxn -/

@[simp] theorem State.setTxn_pending (s : State) (n : Nat) (x : Txn) : (s.setTxn n x).pending = s.pending := rfl
@[simp] theorem State.setTxn_sent (s : State) (n : Nat) (x : Txn) : (s.setTxn n x).sent = s.sent := rfl
@[simp] theorem State.setTxn_free (s : State) (n : Nat) (x : Txn) : (s.setTxn n x).free = s.free := rfl
@[simp] theorem State.setTxn_time (s : State) (n : Nat) (x : Txn) : (s.setTxn n x).time = s.time := rfl
@[simp] theorem State.setTxn_hw (s : State) (n : Nat) (x : Txn) : (s.setTxn n x).hw = s.hw := rfl
@[simp] theorem State.setTxn_mem (s : State) (n : Nat) (x : Txn) : (s.setTxn n x).mem = s.mem := rfl
@[simp] theorem State.setTxn_chk (s : State) (n : Nat) (x : Txn) : (s.setTxn n x).chk = s.chk := rfl
@[simp] theorem State.setTxn_sram (s : State) (n : Nat) (x : Txn) : (s.setTxn n x).sram = s.sram := rfl
@[simp] theorem State.setTxn_marks (s : State) (n : Nat) (x : Txn) : (s.setTxn n x).marks = s.marks := rfl
@[simp] theorem State.setTxn_sramP (s : State) (n : Nat) (x : Txn) : (s.setTxn n x).sramP = s.sramP := rfl
@[simp] theorem State.setTxn_chn (s : State) (n : Nat) (x : Txn) : (s.setTxn n x).chn = s.chn := rfl
@[simp] theorem State.setTxn_tw (s : State) (n : Nat) (x : Txn) : (s.setTxn n x).tw = s.tw := rfl
@[simp] theorem State.setTxn_cores (s : State) (n : Nat) (x : Txn) : (s.setTxn n x).cores = s.cores := rfl
@[simp] theorem State.setTxn_aisles (s : State) (n : Nat) (x : Txn) : (s.setTxn n x).aisles = s.aisles := rfl
@[simp] theorem State.setTxn_subs (s : State) (n : Nat) (x : Txn) : (s.setTxn n x).subs = s.subs := rfl
@[simp] theorem State.setTxn_ses (s : State) (n : Nat) (x : Txn) : (s.setTxn n x).ses = s.ses := rfl
@[simp] theorem State.setTxn_rings (s : State) (n : Nat) (x : Txn) : (s.setTxn n x).rings = s.rings := rfl
@[simp] theorem State.setTxn_stl (s : State) (n : Nat) (x : Txn) : (s.setTxn n x).stl = s.stl := rfl
@[simp] theorem State.setTxn_hostRds (s : State) (n : Nat) (x : Txn) : (s.setTxn n x).hostRds = s.hostRds := rfl
@[simp] theorem State.setTxn_bar2 (s : State) (n : Nat) (x : Txn) : (s.setTxn n x).bar2 = s.bar2 := rfl
@[simp] theorem State.setTxn_hit (s : State) (n : Nat) (x : Txn) : (s.setTxn n x).hit = s.hit := rfl
@[simp] theorem State.setTxn_prt (s : State) (n : Nat) (x : Txn) : (s.setTxn n x).prt = s.prt := rfl
@[simp] theorem State.setTxn_mgt (s : State) (n : Nat) (x : Txn) : (s.setTxn n x).mgt = s.mgt := rfl
@[simp] theorem State.setTxn_sec (s : State) (n : Nat) (x : Txn) : (s.setTxn n x).sec = s.sec := rfl
@[simp] theorem State.setTxn_fuses (s : State) (n : Nat) (x : Txn) : (s.setTxn n x).fuses = s.fuses := rfl
@[simp] theorem State.setTxn_flash (s : State) (n : Nat) (x : Txn) : (s.setTxn n x).flash = s.flash := rfl
@[simp] theorem State.setTxn_rst (s : State) (n : Nat) (x : Txn) : (s.setTxn n x).rst = s.rst := rfl
@[simp] theorem State.setTxn_wgh (s : State) (n : Nat) (x : Txn) : (s.setTxn n x).wgh = s.wgh := rfl
@[simp] theorem State.setTxn_partn (s : State) (n : Nat) (x : Txn) : (s.setTxn n x).partn = s.partn := rfl
@[simp] theorem State.setTxn_partnOn (s : State) (n : Nat) (x : Txn) : (s.setTxn n x).partnOn = s.partnOn := rfl

/-! setGrp -/

@[simp] theorem State.setGrp_pending (s : State) (g : Nat) (x : Grp) : (s.setGrp g x).pending = s.pending := rfl
@[simp] theorem State.setGrp_sent (s : State) (g : Nat) (x : Grp) : (s.setGrp g x).sent = s.sent := rfl
@[simp] theorem State.setGrp_free (s : State) (g : Nat) (x : Grp) : (s.setGrp g x).free = s.free := rfl
@[simp] theorem State.setGrp_time (s : State) (g : Nat) (x : Grp) : (s.setGrp g x).time = s.time := rfl
@[simp] theorem State.setGrp_hw (s : State) (g : Nat) (x : Grp) : (s.setGrp g x).hw = s.hw := rfl
@[simp] theorem State.setGrp_mem (s : State) (g : Nat) (x : Grp) : (s.setGrp g x).mem = s.mem := rfl
@[simp] theorem State.setGrp_chk (s : State) (g : Nat) (x : Grp) : (s.setGrp g x).chk = s.chk := rfl
@[simp] theorem State.setGrp_sram (s : State) (g : Nat) (x : Grp) : (s.setGrp g x).sram = s.sram := rfl
@[simp] theorem State.setGrp_marks (s : State) (g : Nat) (x : Grp) : (s.setGrp g x).marks = s.marks := rfl
@[simp] theorem State.setGrp_sramP (s : State) (g : Nat) (x : Grp) : (s.setGrp g x).sramP = s.sramP := rfl
@[simp] theorem State.setGrp_chn (s : State) (g : Nat) (x : Grp) : (s.setGrp g x).chn = s.chn := rfl
@[simp] theorem State.setGrp_tw (s : State) (g : Nat) (x : Grp) : (s.setGrp g x).tw = s.tw := rfl
@[simp] theorem State.setGrp_cores (s : State) (g : Nat) (x : Grp) : (s.setGrp g x).cores = s.cores := rfl
@[simp] theorem State.setGrp_aisles (s : State) (g : Nat) (x : Grp) : (s.setGrp g x).aisles = s.aisles := rfl
@[simp] theorem State.setGrp_subs (s : State) (g : Nat) (x : Grp) : (s.setGrp g x).subs = s.subs := rfl
@[simp] theorem State.setGrp_ses (s : State) (g : Nat) (x : Grp) : (s.setGrp g x).ses = s.ses := rfl
@[simp] theorem State.setGrp_rings (s : State) (g : Nat) (x : Grp) : (s.setGrp g x).rings = s.rings := rfl
@[simp] theorem State.setGrp_stl (s : State) (g : Nat) (x : Grp) : (s.setGrp g x).stl = s.stl := rfl
@[simp] theorem State.setGrp_hostRds (s : State) (g : Nat) (x : Grp) : (s.setGrp g x).hostRds = s.hostRds := rfl
@[simp] theorem State.setGrp_bar2 (s : State) (g : Nat) (x : Grp) : (s.setGrp g x).bar2 = s.bar2 := rfl
@[simp] theorem State.setGrp_hit (s : State) (g : Nat) (x : Grp) : (s.setGrp g x).hit = s.hit := rfl
@[simp] theorem State.setGrp_prt (s : State) (g : Nat) (x : Grp) : (s.setGrp g x).prt = s.prt := rfl
@[simp] theorem State.setGrp_mgt (s : State) (g : Nat) (x : Grp) : (s.setGrp g x).mgt = s.mgt := rfl
@[simp] theorem State.setGrp_sec (s : State) (g : Nat) (x : Grp) : (s.setGrp g x).sec = s.sec := rfl
@[simp] theorem State.setGrp_fuses (s : State) (g : Nat) (x : Grp) : (s.setGrp g x).fuses = s.fuses := rfl
@[simp] theorem State.setGrp_flash (s : State) (g : Nat) (x : Grp) : (s.setGrp g x).flash = s.flash := rfl
@[simp] theorem State.setGrp_rst (s : State) (g : Nat) (x : Grp) : (s.setGrp g x).rst = s.rst := rfl
@[simp] theorem State.setGrp_wgh (s : State) (g : Nat) (x : Grp) : (s.setGrp g x).wgh = s.wgh := rfl
@[simp] theorem State.setGrp_partn (s : State) (g : Nat) (x : Grp) : (s.setGrp g x).partn = s.partn := rfl
@[simp] theorem State.setGrp_partnOn (s : State) (g : Nat) (x : Grp) : (s.setGrp g x).partnOn = s.partnOn := rfl

/-! setHeld -/

@[simp] theorem State.setHeld_pending (s : State) (a : Nat) (v : Option Word) : (s.setHeld a v).pending = s.pending := rfl
@[simp] theorem State.setHeld_sent (s : State) (a : Nat) (v : Option Word) : (s.setHeld a v).sent = s.sent := rfl
@[simp] theorem State.setHeld_free (s : State) (a : Nat) (v : Option Word) : (s.setHeld a v).free = s.free := rfl
@[simp] theorem State.setHeld_time (s : State) (a : Nat) (v : Option Word) : (s.setHeld a v).time = s.time := rfl
@[simp] theorem State.setHeld_hw (s : State) (a : Nat) (v : Option Word) : (s.setHeld a v).hw = s.hw := rfl
@[simp] theorem State.setHeld_mem (s : State) (a : Nat) (v : Option Word) : (s.setHeld a v).mem = s.mem := rfl
@[simp] theorem State.setHeld_chk (s : State) (a : Nat) (v : Option Word) : (s.setHeld a v).chk = s.chk := rfl
@[simp] theorem State.setHeld_sram (s : State) (a : Nat) (v : Option Word) : (s.setHeld a v).sram = s.sram := rfl
@[simp] theorem State.setHeld_marks (s : State) (a : Nat) (v : Option Word) : (s.setHeld a v).marks = s.marks := rfl
@[simp] theorem State.setHeld_sramP (s : State) (a : Nat) (v : Option Word) : (s.setHeld a v).sramP = s.sramP := rfl
@[simp] theorem State.setHeld_chn (s : State) (a : Nat) (v : Option Word) : (s.setHeld a v).chn = s.chn := rfl
@[simp] theorem State.setHeld_tw (s : State) (a : Nat) (v : Option Word) : (s.setHeld a v).tw = s.tw := rfl
@[simp] theorem State.setHeld_cores (s : State) (a : Nat) (v : Option Word) : (s.setHeld a v).cores = s.cores := rfl
@[simp] theorem State.setHeld_aisles (s : State) (a : Nat) (v : Option Word) : (s.setHeld a v).aisles = s.aisles := rfl
@[simp] theorem State.setHeld_subs (s : State) (a : Nat) (v : Option Word) : (s.setHeld a v).subs = s.subs := rfl
@[simp] theorem State.setHeld_ses (s : State) (a : Nat) (v : Option Word) : (s.setHeld a v).ses = s.ses := rfl
@[simp] theorem State.setHeld_rings (s : State) (a : Nat) (v : Option Word) : (s.setHeld a v).rings = s.rings := rfl
@[simp] theorem State.setHeld_stl (s : State) (a : Nat) (v : Option Word) : (s.setHeld a v).stl = s.stl := rfl
@[simp] theorem State.setHeld_hostRds (s : State) (a : Nat) (v : Option Word) : (s.setHeld a v).hostRds = s.hostRds := rfl
@[simp] theorem State.setHeld_bar2 (s : State) (a : Nat) (v : Option Word) : (s.setHeld a v).bar2 = s.bar2 := rfl
@[simp] theorem State.setHeld_hit (s : State) (a : Nat) (v : Option Word) : (s.setHeld a v).hit = s.hit := rfl
@[simp] theorem State.setHeld_prt (s : State) (a : Nat) (v : Option Word) : (s.setHeld a v).prt = s.prt := rfl
@[simp] theorem State.setHeld_mgt (s : State) (a : Nat) (v : Option Word) : (s.setHeld a v).mgt = s.mgt := rfl
@[simp] theorem State.setHeld_sec (s : State) (a : Nat) (v : Option Word) : (s.setHeld a v).sec = s.sec := rfl
@[simp] theorem State.setHeld_fuses (s : State) (a : Nat) (v : Option Word) : (s.setHeld a v).fuses = s.fuses := rfl
@[simp] theorem State.setHeld_flash (s : State) (a : Nat) (v : Option Word) : (s.setHeld a v).flash = s.flash := rfl
@[simp] theorem State.setHeld_rst (s : State) (a : Nat) (v : Option Word) : (s.setHeld a v).rst = s.rst := rfl
@[simp] theorem State.setHeld_wgh (s : State) (a : Nat) (v : Option Word) : (s.setHeld a v).wgh = s.wgh := rfl
@[simp] theorem State.setHeld_partn (s : State) (a : Nat) (v : Option Word) : (s.setHeld a v).partn = s.partn := rfl
@[simp] theorem State.setHeld_partnOn (s : State) (a : Nat) (v : Option Word) : (s.setHeld a v).partnOn = s.partnOn := rfl

/-! modRst -/

@[simp] theorem State.modRst_pending (s : State) (f : Rst → Rst) : (s.modRst f).pending = s.pending := rfl
@[simp] theorem State.modRst_sent (s : State) (f : Rst → Rst) : (s.modRst f).sent = s.sent := rfl
@[simp] theorem State.modRst_free (s : State) (f : Rst → Rst) : (s.modRst f).free = s.free := rfl
@[simp] theorem State.modRst_time (s : State) (f : Rst → Rst) : (s.modRst f).time = s.time := rfl
@[simp] theorem State.modRst_rf (s : State) (f : Rst → Rst) : (s.modRst f).rf = s.rf := rfl
@[simp] theorem State.modRst_hw (s : State) (f : Rst → Rst) : (s.modRst f).hw = s.hw := rfl
@[simp] theorem State.modRst_mem (s : State) (f : Rst → Rst) : (s.modRst f).mem = s.mem := rfl
@[simp] theorem State.modRst_chk (s : State) (f : Rst → Rst) : (s.modRst f).chk = s.chk := rfl
@[simp] theorem State.modRst_sram (s : State) (f : Rst → Rst) : (s.modRst f).sram = s.sram := rfl
@[simp] theorem State.modRst_marks (s : State) (f : Rst → Rst) : (s.modRst f).marks = s.marks := rfl
@[simp] theorem State.modRst_sramP (s : State) (f : Rst → Rst) : (s.modRst f).sramP = s.sramP := rfl
@[simp] theorem State.modRst_chn (s : State) (f : Rst → Rst) : (s.modRst f).chn = s.chn := rfl
@[simp] theorem State.modRst_tw (s : State) (f : Rst → Rst) : (s.modRst f).tw = s.tw := rfl
@[simp] theorem State.modRst_cores (s : State) (f : Rst → Rst) : (s.modRst f).cores = s.cores := rfl
@[simp] theorem State.modRst_aisles (s : State) (f : Rst → Rst) : (s.modRst f).aisles = s.aisles := rfl
@[simp] theorem State.modRst_subs (s : State) (f : Rst → Rst) : (s.modRst f).subs = s.subs := rfl
@[simp] theorem State.modRst_ses (s : State) (f : Rst → Rst) : (s.modRst f).ses = s.ses := rfl
@[simp] theorem State.modRst_rings (s : State) (f : Rst → Rst) : (s.modRst f).rings = s.rings := rfl
@[simp] theorem State.modRst_stl (s : State) (f : Rst → Rst) : (s.modRst f).stl = s.stl := rfl
@[simp] theorem State.modRst_hostRds (s : State) (f : Rst → Rst) : (s.modRst f).hostRds = s.hostRds := rfl
@[simp] theorem State.modRst_bar2 (s : State) (f : Rst → Rst) : (s.modRst f).bar2 = s.bar2 := rfl
@[simp] theorem State.modRst_hit (s : State) (f : Rst → Rst) : (s.modRst f).hit = s.hit := rfl
@[simp] theorem State.modRst_prt (s : State) (f : Rst → Rst) : (s.modRst f).prt = s.prt := rfl
@[simp] theorem State.modRst_mgt (s : State) (f : Rst → Rst) : (s.modRst f).mgt = s.mgt := rfl
@[simp] theorem State.modRst_sec (s : State) (f : Rst → Rst) : (s.modRst f).sec = s.sec := rfl
@[simp] theorem State.modRst_fuses (s : State) (f : Rst → Rst) : (s.modRst f).fuses = s.fuses := rfl
@[simp] theorem State.modRst_flash (s : State) (f : Rst → Rst) : (s.modRst f).flash = s.flash := rfl
@[simp] theorem State.modRst_wgh (s : State) (f : Rst → Rst) : (s.modRst f).wgh = s.wgh := rfl
@[simp] theorem State.modRst_partn (s : State) (f : Rst → Rst) : (s.modRst f).partn = s.partn := rfl
@[simp] theorem State.modRst_partnOn (s : State) (f : Rst → Rst) : (s.modRst f).partnOn = s.partnOn := rfl

/-! modMgt -/

@[simp] theorem State.modMgt_pending (s : State) (f : Mgt → Mgt) : (s.modMgt f).pending = s.pending := rfl
@[simp] theorem State.modMgt_sent (s : State) (f : Mgt → Mgt) : (s.modMgt f).sent = s.sent := rfl
@[simp] theorem State.modMgt_free (s : State) (f : Mgt → Mgt) : (s.modMgt f).free = s.free := rfl
@[simp] theorem State.modMgt_time (s : State) (f : Mgt → Mgt) : (s.modMgt f).time = s.time := rfl
@[simp] theorem State.modMgt_rf (s : State) (f : Mgt → Mgt) : (s.modMgt f).rf = s.rf := rfl
@[simp] theorem State.modMgt_hw (s : State) (f : Mgt → Mgt) : (s.modMgt f).hw = s.hw := rfl
@[simp] theorem State.modMgt_mem (s : State) (f : Mgt → Mgt) : (s.modMgt f).mem = s.mem := rfl
@[simp] theorem State.modMgt_chk (s : State) (f : Mgt → Mgt) : (s.modMgt f).chk = s.chk := rfl
@[simp] theorem State.modMgt_sram (s : State) (f : Mgt → Mgt) : (s.modMgt f).sram = s.sram := rfl
@[simp] theorem State.modMgt_marks (s : State) (f : Mgt → Mgt) : (s.modMgt f).marks = s.marks := rfl
@[simp] theorem State.modMgt_sramP (s : State) (f : Mgt → Mgt) : (s.modMgt f).sramP = s.sramP := rfl
@[simp] theorem State.modMgt_chn (s : State) (f : Mgt → Mgt) : (s.modMgt f).chn = s.chn := rfl
@[simp] theorem State.modMgt_tw (s : State) (f : Mgt → Mgt) : (s.modMgt f).tw = s.tw := rfl
@[simp] theorem State.modMgt_cores (s : State) (f : Mgt → Mgt) : (s.modMgt f).cores = s.cores := rfl
@[simp] theorem State.modMgt_aisles (s : State) (f : Mgt → Mgt) : (s.modMgt f).aisles = s.aisles := rfl
@[simp] theorem State.modMgt_subs (s : State) (f : Mgt → Mgt) : (s.modMgt f).subs = s.subs := rfl
@[simp] theorem State.modMgt_ses (s : State) (f : Mgt → Mgt) : (s.modMgt f).ses = s.ses := rfl
@[simp] theorem State.modMgt_rings (s : State) (f : Mgt → Mgt) : (s.modMgt f).rings = s.rings := rfl
@[simp] theorem State.modMgt_stl (s : State) (f : Mgt → Mgt) : (s.modMgt f).stl = s.stl := rfl
@[simp] theorem State.modMgt_hostRds (s : State) (f : Mgt → Mgt) : (s.modMgt f).hostRds = s.hostRds := rfl
@[simp] theorem State.modMgt_bar2 (s : State) (f : Mgt → Mgt) : (s.modMgt f).bar2 = s.bar2 := rfl
@[simp] theorem State.modMgt_hit (s : State) (f : Mgt → Mgt) : (s.modMgt f).hit = s.hit := rfl
@[simp] theorem State.modMgt_prt (s : State) (f : Mgt → Mgt) : (s.modMgt f).prt = s.prt := rfl
@[simp] theorem State.modMgt_sec (s : State) (f : Mgt → Mgt) : (s.modMgt f).sec = s.sec := rfl
@[simp] theorem State.modMgt_fuses (s : State) (f : Mgt → Mgt) : (s.modMgt f).fuses = s.fuses := rfl
@[simp] theorem State.modMgt_flash (s : State) (f : Mgt → Mgt) : (s.modMgt f).flash = s.flash := rfl
@[simp] theorem State.modMgt_rst (s : State) (f : Mgt → Mgt) : (s.modMgt f).rst = s.rst := rfl
@[simp] theorem State.modMgt_wgh (s : State) (f : Mgt → Mgt) : (s.modMgt f).wgh = s.wgh := rfl
@[simp] theorem State.modMgt_partn (s : State) (f : Mgt → Mgt) : (s.modMgt f).partn = s.partn := rfl
@[simp] theorem State.modMgt_partnOn (s : State) (f : Mgt → Mgt) : (s.modMgt f).partnOn = s.partnOn := rfl

/-! modFw -/

@[simp] theorem State.modFw_pending (s : State) (f : FwUpd → FwUpd) : (s.modFw f).pending = s.pending := rfl
@[simp] theorem State.modFw_sent (s : State) (f : FwUpd → FwUpd) : (s.modFw f).sent = s.sent := rfl
@[simp] theorem State.modFw_free (s : State) (f : FwUpd → FwUpd) : (s.modFw f).free = s.free := rfl
@[simp] theorem State.modFw_time (s : State) (f : FwUpd → FwUpd) : (s.modFw f).time = s.time := rfl
@[simp] theorem State.modFw_rf (s : State) (f : FwUpd → FwUpd) : (s.modFw f).rf = s.rf := rfl
@[simp] theorem State.modFw_hw (s : State) (f : FwUpd → FwUpd) : (s.modFw f).hw = s.hw := rfl
@[simp] theorem State.modFw_mem (s : State) (f : FwUpd → FwUpd) : (s.modFw f).mem = s.mem := rfl
@[simp] theorem State.modFw_chk (s : State) (f : FwUpd → FwUpd) : (s.modFw f).chk = s.chk := rfl
@[simp] theorem State.modFw_sram (s : State) (f : FwUpd → FwUpd) : (s.modFw f).sram = s.sram := rfl
@[simp] theorem State.modFw_marks (s : State) (f : FwUpd → FwUpd) : (s.modFw f).marks = s.marks := rfl
@[simp] theorem State.modFw_sramP (s : State) (f : FwUpd → FwUpd) : (s.modFw f).sramP = s.sramP := rfl
@[simp] theorem State.modFw_chn (s : State) (f : FwUpd → FwUpd) : (s.modFw f).chn = s.chn := rfl
@[simp] theorem State.modFw_tw (s : State) (f : FwUpd → FwUpd) : (s.modFw f).tw = s.tw := rfl
@[simp] theorem State.modFw_cores (s : State) (f : FwUpd → FwUpd) : (s.modFw f).cores = s.cores := rfl
@[simp] theorem State.modFw_aisles (s : State) (f : FwUpd → FwUpd) : (s.modFw f).aisles = s.aisles := rfl
@[simp] theorem State.modFw_subs (s : State) (f : FwUpd → FwUpd) : (s.modFw f).subs = s.subs := rfl
@[simp] theorem State.modFw_ses (s : State) (f : FwUpd → FwUpd) : (s.modFw f).ses = s.ses := rfl
@[simp] theorem State.modFw_rings (s : State) (f : FwUpd → FwUpd) : (s.modFw f).rings = s.rings := rfl
@[simp] theorem State.modFw_stl (s : State) (f : FwUpd → FwUpd) : (s.modFw f).stl = s.stl := rfl
@[simp] theorem State.modFw_hostRds (s : State) (f : FwUpd → FwUpd) : (s.modFw f).hostRds = s.hostRds := rfl
@[simp] theorem State.modFw_bar2 (s : State) (f : FwUpd → FwUpd) : (s.modFw f).bar2 = s.bar2 := rfl
@[simp] theorem State.modFw_hit (s : State) (f : FwUpd → FwUpd) : (s.modFw f).hit = s.hit := rfl
@[simp] theorem State.modFw_prt (s : State) (f : FwUpd → FwUpd) : (s.modFw f).prt = s.prt := rfl
@[simp] theorem State.modFw_sec (s : State) (f : FwUpd → FwUpd) : (s.modFw f).sec = s.sec := rfl
@[simp] theorem State.modFw_fuses (s : State) (f : FwUpd → FwUpd) : (s.modFw f).fuses = s.fuses := rfl
@[simp] theorem State.modFw_flash (s : State) (f : FwUpd → FwUpd) : (s.modFw f).flash = s.flash := rfl
@[simp] theorem State.modFw_rst (s : State) (f : FwUpd → FwUpd) : (s.modFw f).rst = s.rst := rfl
@[simp] theorem State.modFw_wgh (s : State) (f : FwUpd → FwUpd) : (s.modFw f).wgh = s.wgh := rfl
@[simp] theorem State.modFw_partn (s : State) (f : FwUpd → FwUpd) : (s.modFw f).partn = s.partn := rfl
@[simp] theorem State.modFw_partnOn (s : State) (f : FwUpd → FwUpd) : (s.modFw f).partnOn = s.partnOn := rfl

/-! logErr -/

@[simp] theorem State.logErr_pending (s : State) (p : Pg) (code sev a info : Nat) : (s.logErr p code sev a info).pending = s.pending := rfl
@[simp] theorem State.logErr_sent (s : State) (p : Pg) (code sev a info : Nat) : (s.logErr p code sev a info).sent = s.sent := rfl
@[simp] theorem State.logErr_free (s : State) (p : Pg) (code sev a info : Nat) : (s.logErr p code sev a info).free = s.free := rfl
@[simp] theorem State.logErr_time (s : State) (p : Pg) (code sev a info : Nat) : (s.logErr p code sev a info).time = s.time := rfl
@[simp] theorem State.logErr_hw (s : State) (p : Pg) (code sev a info : Nat) : (s.logErr p code sev a info).hw = s.hw := rfl
@[simp] theorem State.logErr_mem (s : State) (p : Pg) (code sev a info : Nat) : (s.logErr p code sev a info).mem = s.mem := rfl
@[simp] theorem State.logErr_chk (s : State) (p : Pg) (code sev a info : Nat) : (s.logErr p code sev a info).chk = s.chk := rfl
@[simp] theorem State.logErr_sram (s : State) (p : Pg) (code sev a info : Nat) : (s.logErr p code sev a info).sram = s.sram := rfl
@[simp] theorem State.logErr_marks (s : State) (p : Pg) (code sev a info : Nat) : (s.logErr p code sev a info).marks = s.marks := rfl
@[simp] theorem State.logErr_sramP (s : State) (p : Pg) (code sev a info : Nat) : (s.logErr p code sev a info).sramP = s.sramP := rfl
@[simp] theorem State.logErr_chn (s : State) (p : Pg) (code sev a info : Nat) : (s.logErr p code sev a info).chn = s.chn := rfl
@[simp] theorem State.logErr_tw (s : State) (p : Pg) (code sev a info : Nat) : (s.logErr p code sev a info).tw = s.tw := rfl
@[simp] theorem State.logErr_cores (s : State) (p : Pg) (code sev a info : Nat) : (s.logErr p code sev a info).cores = s.cores := rfl
@[simp] theorem State.logErr_aisles (s : State) (p : Pg) (code sev a info : Nat) : (s.logErr p code sev a info).aisles = s.aisles := rfl
@[simp] theorem State.logErr_subs (s : State) (p : Pg) (code sev a info : Nat) : (s.logErr p code sev a info).subs = s.subs := rfl
@[simp] theorem State.logErr_ses (s : State) (p : Pg) (code sev a info : Nat) : (s.logErr p code sev a info).ses = s.ses := rfl
@[simp] theorem State.logErr_rings (s : State) (p : Pg) (code sev a info : Nat) : (s.logErr p code sev a info).rings = s.rings := rfl
@[simp] theorem State.logErr_stl (s : State) (p : Pg) (code sev a info : Nat) : (s.logErr p code sev a info).stl = s.stl := rfl
@[simp] theorem State.logErr_hostRds (s : State) (p : Pg) (code sev a info : Nat) : (s.logErr p code sev a info).hostRds = s.hostRds := rfl
@[simp] theorem State.logErr_bar2 (s : State) (p : Pg) (code sev a info : Nat) : (s.logErr p code sev a info).bar2 = s.bar2 := rfl
@[simp] theorem State.logErr_hit (s : State) (p : Pg) (code sev a info : Nat) : (s.logErr p code sev a info).hit = s.hit := rfl
@[simp] theorem State.logErr_prt (s : State) (p : Pg) (code sev a info : Nat) : (s.logErr p code sev a info).prt = s.prt := rfl
@[simp] theorem State.logErr_mgt (s : State) (p : Pg) (code sev a info : Nat) : (s.logErr p code sev a info).mgt = s.mgt := rfl
@[simp] theorem State.logErr_sec (s : State) (p : Pg) (code sev a info : Nat) : (s.logErr p code sev a info).sec = s.sec := rfl
@[simp] theorem State.logErr_fuses (s : State) (p : Pg) (code sev a info : Nat) : (s.logErr p code sev a info).fuses = s.fuses := rfl
@[simp] theorem State.logErr_flash (s : State) (p : Pg) (code sev a info : Nat) : (s.logErr p code sev a info).flash = s.flash := rfl
@[simp] theorem State.logErr_rst (s : State) (p : Pg) (code sev a info : Nat) : (s.logErr p code sev a info).rst = s.rst := rfl
@[simp] theorem State.logErr_wgh (s : State) (p : Pg) (code sev a info : Nat) : (s.logErr p code sev a info).wgh = s.wgh := rfl
@[simp] theorem State.logErr_partn (s : State) (p : Pg) (code sev a info : Nat) : (s.logErr p code sev a info).partn = s.partn := rfl
@[simp] theorem State.logErr_partnOn (s : State) (p : Pg) (code sev a info : Nat) : (s.logErr p code sev a info).partnOn = s.partnOn := rfl

/-! record -/

@[simp] theorem State.record_pending (s : State) (p : Pg) (code sev : Nat) (ctx : Option Nat) (a info : Nat) (live : Bool) : (s.record p code sev ctx a info live).pending = s.pending := rfl
@[simp] theorem State.record_sent (s : State) (p : Pg) (code sev : Nat) (ctx : Option Nat) (a info : Nat) (live : Bool) : (s.record p code sev ctx a info live).sent = s.sent := rfl
@[simp] theorem State.record_free (s : State) (p : Pg) (code sev : Nat) (ctx : Option Nat) (a info : Nat) (live : Bool) : (s.record p code sev ctx a info live).free = s.free := rfl
@[simp] theorem State.record_time (s : State) (p : Pg) (code sev : Nat) (ctx : Option Nat) (a info : Nat) (live : Bool) : (s.record p code sev ctx a info live).time = s.time := rfl
@[simp] theorem State.record_hw (s : State) (p : Pg) (code sev : Nat) (ctx : Option Nat) (a info : Nat) (live : Bool) : (s.record p code sev ctx a info live).hw = s.hw := rfl
@[simp] theorem State.record_mem (s : State) (p : Pg) (code sev : Nat) (ctx : Option Nat) (a info : Nat) (live : Bool) : (s.record p code sev ctx a info live).mem = s.mem := rfl
@[simp] theorem State.record_chk (s : State) (p : Pg) (code sev : Nat) (ctx : Option Nat) (a info : Nat) (live : Bool) : (s.record p code sev ctx a info live).chk = s.chk := rfl
@[simp] theorem State.record_sram (s : State) (p : Pg) (code sev : Nat) (ctx : Option Nat) (a info : Nat) (live : Bool) : (s.record p code sev ctx a info live).sram = s.sram := rfl
@[simp] theorem State.record_marks (s : State) (p : Pg) (code sev : Nat) (ctx : Option Nat) (a info : Nat) (live : Bool) : (s.record p code sev ctx a info live).marks = s.marks := rfl
@[simp] theorem State.record_sramP (s : State) (p : Pg) (code sev : Nat) (ctx : Option Nat) (a info : Nat) (live : Bool) : (s.record p code sev ctx a info live).sramP = s.sramP := rfl
@[simp] theorem State.record_chn (s : State) (p : Pg) (code sev : Nat) (ctx : Option Nat) (a info : Nat) (live : Bool) : (s.record p code sev ctx a info live).chn = s.chn := rfl
@[simp] theorem State.record_tw (s : State) (p : Pg) (code sev : Nat) (ctx : Option Nat) (a info : Nat) (live : Bool) : (s.record p code sev ctx a info live).tw = s.tw := rfl
@[simp] theorem State.record_cores (s : State) (p : Pg) (code sev : Nat) (ctx : Option Nat) (a info : Nat) (live : Bool) : (s.record p code sev ctx a info live).cores = s.cores := rfl
@[simp] theorem State.record_aisles (s : State) (p : Pg) (code sev : Nat) (ctx : Option Nat) (a info : Nat) (live : Bool) : (s.record p code sev ctx a info live).aisles = s.aisles := rfl
@[simp] theorem State.record_subs (s : State) (p : Pg) (code sev : Nat) (ctx : Option Nat) (a info : Nat) (live : Bool) : (s.record p code sev ctx a info live).subs = s.subs := rfl
@[simp] theorem State.record_ses (s : State) (p : Pg) (code sev : Nat) (ctx : Option Nat) (a info : Nat) (live : Bool) : (s.record p code sev ctx a info live).ses = s.ses := rfl
@[simp] theorem State.record_rings (s : State) (p : Pg) (code sev : Nat) (ctx : Option Nat) (a info : Nat) (live : Bool) : (s.record p code sev ctx a info live).rings = s.rings := rfl
@[simp] theorem State.record_stl (s : State) (p : Pg) (code sev : Nat) (ctx : Option Nat) (a info : Nat) (live : Bool) : (s.record p code sev ctx a info live).stl = s.stl := rfl
@[simp] theorem State.record_hostRds (s : State) (p : Pg) (code sev : Nat) (ctx : Option Nat) (a info : Nat) (live : Bool) : (s.record p code sev ctx a info live).hostRds = s.hostRds := rfl
@[simp] theorem State.record_bar2 (s : State) (p : Pg) (code sev : Nat) (ctx : Option Nat) (a info : Nat) (live : Bool) : (s.record p code sev ctx a info live).bar2 = s.bar2 := rfl
@[simp] theorem State.record_hit (s : State) (p : Pg) (code sev : Nat) (ctx : Option Nat) (a info : Nat) (live : Bool) : (s.record p code sev ctx a info live).hit = s.hit := rfl
@[simp] theorem State.record_prt (s : State) (p : Pg) (code sev : Nat) (ctx : Option Nat) (a info : Nat) (live : Bool) : (s.record p code sev ctx a info live).prt = s.prt := rfl
@[simp] theorem State.record_mgt (s : State) (p : Pg) (code sev : Nat) (ctx : Option Nat) (a info : Nat) (live : Bool) : (s.record p code sev ctx a info live).mgt = s.mgt := rfl
@[simp] theorem State.record_sec (s : State) (p : Pg) (code sev : Nat) (ctx : Option Nat) (a info : Nat) (live : Bool) : (s.record p code sev ctx a info live).sec = s.sec := rfl
@[simp] theorem State.record_fuses (s : State) (p : Pg) (code sev : Nat) (ctx : Option Nat) (a info : Nat) (live : Bool) : (s.record p code sev ctx a info live).fuses = s.fuses := rfl
@[simp] theorem State.record_flash (s : State) (p : Pg) (code sev : Nat) (ctx : Option Nat) (a info : Nat) (live : Bool) : (s.record p code sev ctx a info live).flash = s.flash := rfl
@[simp] theorem State.record_rst (s : State) (p : Pg) (code sev : Nat) (ctx : Option Nat) (a info : Nat) (live : Bool) : (s.record p code sev ctx a info live).rst = s.rst := rfl
@[simp] theorem State.record_wgh (s : State) (p : Pg) (code sev : Nat) (ctx : Option Nat) (a info : Nat) (live : Bool) : (s.record p code sev ctx a info live).wgh = s.wgh := rfl
@[simp] theorem State.record_partn (s : State) (p : Pg) (code sev : Nat) (ctx : Option Nat) (a info : Nat) (live : Bool) : (s.record p code sev ctx a info live).partn = s.partn := rfl
@[simp] theorem State.record_partnOn (s : State) (p : Pg) (code sev : Nat) (ctx : Option Nat) (a info : Nat) (live : Bool) : (s.record p code sev ctx a info live).partnOn = s.partnOn := rfl

/-! clearRing -/

@[simp] theorem State.clearRing_pending (s : State) (p : Pg) : (s.clearRing p).pending = s.pending := rfl
@[simp] theorem State.clearRing_sent (s : State) (p : Pg) : (s.clearRing p).sent = s.sent := rfl
@[simp] theorem State.clearRing_free (s : State) (p : Pg) : (s.clearRing p).free = s.free := rfl
@[simp] theorem State.clearRing_time (s : State) (p : Pg) : (s.clearRing p).time = s.time := rfl
@[simp] theorem State.clearRing_hw (s : State) (p : Pg) : (s.clearRing p).hw = s.hw := rfl
@[simp] theorem State.clearRing_mem (s : State) (p : Pg) : (s.clearRing p).mem = s.mem := rfl
@[simp] theorem State.clearRing_chk (s : State) (p : Pg) : (s.clearRing p).chk = s.chk := rfl
@[simp] theorem State.clearRing_sram (s : State) (p : Pg) : (s.clearRing p).sram = s.sram := rfl
@[simp] theorem State.clearRing_marks (s : State) (p : Pg) : (s.clearRing p).marks = s.marks := rfl
@[simp] theorem State.clearRing_sramP (s : State) (p : Pg) : (s.clearRing p).sramP = s.sramP := rfl
@[simp] theorem State.clearRing_chn (s : State) (p : Pg) : (s.clearRing p).chn = s.chn := rfl
@[simp] theorem State.clearRing_tw (s : State) (p : Pg) : (s.clearRing p).tw = s.tw := rfl
@[simp] theorem State.clearRing_cores (s : State) (p : Pg) : (s.clearRing p).cores = s.cores := rfl
@[simp] theorem State.clearRing_aisles (s : State) (p : Pg) : (s.clearRing p).aisles = s.aisles := rfl
@[simp] theorem State.clearRing_subs (s : State) (p : Pg) : (s.clearRing p).subs = s.subs := rfl
@[simp] theorem State.clearRing_ses (s : State) (p : Pg) : (s.clearRing p).ses = s.ses := rfl
@[simp] theorem State.clearRing_rings (s : State) (p : Pg) : (s.clearRing p).rings = s.rings := rfl
@[simp] theorem State.clearRing_stl (s : State) (p : Pg) : (s.clearRing p).stl = s.stl := rfl
@[simp] theorem State.clearRing_hostRds (s : State) (p : Pg) : (s.clearRing p).hostRds = s.hostRds := rfl
@[simp] theorem State.clearRing_bar2 (s : State) (p : Pg) : (s.clearRing p).bar2 = s.bar2 := rfl
@[simp] theorem State.clearRing_hit (s : State) (p : Pg) : (s.clearRing p).hit = s.hit := rfl
@[simp] theorem State.clearRing_prt (s : State) (p : Pg) : (s.clearRing p).prt = s.prt := rfl
@[simp] theorem State.clearRing_mgt (s : State) (p : Pg) : (s.clearRing p).mgt = s.mgt := rfl
@[simp] theorem State.clearRing_sec (s : State) (p : Pg) : (s.clearRing p).sec = s.sec := rfl
@[simp] theorem State.clearRing_fuses (s : State) (p : Pg) : (s.clearRing p).fuses = s.fuses := rfl
@[simp] theorem State.clearRing_flash (s : State) (p : Pg) : (s.clearRing p).flash = s.flash := rfl
@[simp] theorem State.clearRing_rst (s : State) (p : Pg) : (s.clearRing p).rst = s.rst := rfl
@[simp] theorem State.clearRing_wgh (s : State) (p : Pg) : (s.clearRing p).wgh = s.wgh := rfl
@[simp] theorem State.clearRing_partn (s : State) (p : Pg) : (s.clearRing p).partn = s.partn := rfl
@[simp] theorem State.clearRing_partnOn (s : State) (p : Pg) : (s.clearRing p).partnOn = s.partnOn := rfl

/-! schedule -/

@[simp] theorem State.schedule_pending (s : State) (t c : Nat) : (s.schedule t c).pending = s.pending := rfl
@[simp] theorem State.schedule_sent (s : State) (t c : Nat) : (s.schedule t c).sent = s.sent := rfl
@[simp] theorem State.schedule_free (s : State) (t c : Nat) : (s.schedule t c).free = s.free := rfl
@[simp] theorem State.schedule_time (s : State) (t c : Nat) : (s.schedule t c).time = s.time := rfl
@[simp] theorem State.schedule_rf (s : State) (t c : Nat) : (s.schedule t c).rf = s.rf := rfl
@[simp] theorem State.schedule_hw (s : State) (t c : Nat) : (s.schedule t c).hw = s.hw := rfl
@[simp] theorem State.schedule_mem (s : State) (t c : Nat) : (s.schedule t c).mem = s.mem := rfl
@[simp] theorem State.schedule_chk (s : State) (t c : Nat) : (s.schedule t c).chk = s.chk := rfl
@[simp] theorem State.schedule_sram (s : State) (t c : Nat) : (s.schedule t c).sram = s.sram := rfl
@[simp] theorem State.schedule_marks (s : State) (t c : Nat) : (s.schedule t c).marks = s.marks := rfl
@[simp] theorem State.schedule_sramP (s : State) (t c : Nat) : (s.schedule t c).sramP = s.sramP := rfl
@[simp] theorem State.schedule_tw (s : State) (t c : Nat) : (s.schedule t c).tw = s.tw := rfl
@[simp] theorem State.schedule_cores (s : State) (t c : Nat) : (s.schedule t c).cores = s.cores := rfl
@[simp] theorem State.schedule_aisles (s : State) (t c : Nat) : (s.schedule t c).aisles = s.aisles := rfl
@[simp] theorem State.schedule_subs (s : State) (t c : Nat) : (s.schedule t c).subs = s.subs := rfl
@[simp] theorem State.schedule_ses (s : State) (t c : Nat) : (s.schedule t c).ses = s.ses := rfl
@[simp] theorem State.schedule_rings (s : State) (t c : Nat) : (s.schedule t c).rings = s.rings := rfl
@[simp] theorem State.schedule_stl (s : State) (t c : Nat) : (s.schedule t c).stl = s.stl := rfl
@[simp] theorem State.schedule_hostRds (s : State) (t c : Nat) : (s.schedule t c).hostRds = s.hostRds := rfl
@[simp] theorem State.schedule_bar2 (s : State) (t c : Nat) : (s.schedule t c).bar2 = s.bar2 := rfl
@[simp] theorem State.schedule_hit (s : State) (t c : Nat) : (s.schedule t c).hit = s.hit := rfl
@[simp] theorem State.schedule_prt (s : State) (t c : Nat) : (s.schedule t c).prt = s.prt := rfl
@[simp] theorem State.schedule_mgt (s : State) (t c : Nat) : (s.schedule t c).mgt = s.mgt := rfl
@[simp] theorem State.schedule_sec (s : State) (t c : Nat) : (s.schedule t c).sec = s.sec := rfl
@[simp] theorem State.schedule_fuses (s : State) (t c : Nat) : (s.schedule t c).fuses = s.fuses := rfl
@[simp] theorem State.schedule_flash (s : State) (t c : Nat) : (s.schedule t c).flash = s.flash := rfl
@[simp] theorem State.schedule_rst (s : State) (t c : Nat) : (s.schedule t c).rst = s.rst := rfl
@[simp] theorem State.schedule_wgh (s : State) (t c : Nat) : (s.schedule t c).wgh = s.wgh := rfl
@[simp] theorem State.schedule_partn (s : State) (t c : Nat) : (s.schedule t c).partn = s.partn := rfl
@[simp] theorem State.schedule_partnOn (s : State) (t c : Nat) : (s.schedule t c).partnOn = s.partnOn := rfl

/-! pushOwner -/

@[simp] theorem State.pushOwner_pending (s : State) (st p : Nat) : (s.pushOwner st p).pending = s.pending := rfl
@[simp] theorem State.pushOwner_sent (s : State) (st p : Nat) : (s.pushOwner st p).sent = s.sent := rfl
@[simp] theorem State.pushOwner_free (s : State) (st p : Nat) : (s.pushOwner st p).free = s.free := rfl
@[simp] theorem State.pushOwner_time (s : State) (st p : Nat) : (s.pushOwner st p).time = s.time := rfl
@[simp] theorem State.pushOwner_rf (s : State) (st p : Nat) : (s.pushOwner st p).rf = s.rf := rfl
@[simp] theorem State.pushOwner_hw (s : State) (st p : Nat) : (s.pushOwner st p).hw = s.hw := rfl
@[simp] theorem State.pushOwner_mem (s : State) (st p : Nat) : (s.pushOwner st p).mem = s.mem := rfl
@[simp] theorem State.pushOwner_chk (s : State) (st p : Nat) : (s.pushOwner st p).chk = s.chk := rfl
@[simp] theorem State.pushOwner_sram (s : State) (st p : Nat) : (s.pushOwner st p).sram = s.sram := rfl
@[simp] theorem State.pushOwner_marks (s : State) (st p : Nat) : (s.pushOwner st p).marks = s.marks := rfl
@[simp] theorem State.pushOwner_sramP (s : State) (st p : Nat) : (s.pushOwner st p).sramP = s.sramP := rfl
@[simp] theorem State.pushOwner_chn (s : State) (st p : Nat) : (s.pushOwner st p).chn = s.chn := rfl
@[simp] theorem State.pushOwner_tw (s : State) (st p : Nat) : (s.pushOwner st p).tw = s.tw := rfl
@[simp] theorem State.pushOwner_cores (s : State) (st p : Nat) : (s.pushOwner st p).cores = s.cores := rfl
@[simp] theorem State.pushOwner_aisles (s : State) (st p : Nat) : (s.pushOwner st p).aisles = s.aisles := rfl
@[simp] theorem State.pushOwner_subs (s : State) (st p : Nat) : (s.pushOwner st p).subs = s.subs := rfl
@[simp] theorem State.pushOwner_ses (s : State) (st p : Nat) : (s.pushOwner st p).ses = s.ses := rfl
@[simp] theorem State.pushOwner_rings (s : State) (st p : Nat) : (s.pushOwner st p).rings = s.rings := rfl
@[simp] theorem State.pushOwner_hostRds (s : State) (st p : Nat) : (s.pushOwner st p).hostRds = s.hostRds := rfl
@[simp] theorem State.pushOwner_bar2 (s : State) (st p : Nat) : (s.pushOwner st p).bar2 = s.bar2 := rfl
@[simp] theorem State.pushOwner_hit (s : State) (st p : Nat) : (s.pushOwner st p).hit = s.hit := rfl
@[simp] theorem State.pushOwner_prt (s : State) (st p : Nat) : (s.pushOwner st p).prt = s.prt := rfl
@[simp] theorem State.pushOwner_mgt (s : State) (st p : Nat) : (s.pushOwner st p).mgt = s.mgt := rfl
@[simp] theorem State.pushOwner_sec (s : State) (st p : Nat) : (s.pushOwner st p).sec = s.sec := rfl
@[simp] theorem State.pushOwner_fuses (s : State) (st p : Nat) : (s.pushOwner st p).fuses = s.fuses := rfl
@[simp] theorem State.pushOwner_flash (s : State) (st p : Nat) : (s.pushOwner st p).flash = s.flash := rfl
@[simp] theorem State.pushOwner_rst (s : State) (st p : Nat) : (s.pushOwner st p).rst = s.rst := rfl
@[simp] theorem State.pushOwner_wgh (s : State) (st p : Nat) : (s.pushOwner st p).wgh = s.wgh := rfl
@[simp] theorem State.pushOwner_partn (s : State) (st p : Nat) : (s.pushOwner st p).partn = s.partn := rfl
@[simp] theorem State.pushOwner_partnOn (s : State) (st p : Nat) : (s.pushOwner st p).partnOn = s.partnOn := rfl

end Sys2Proof.Machine
end

