-- ==== Sys2Proof/Laws/Keeps.lean ====
section
/-! SUPPORT. What no shared operation over registers and memory does: it breaks no canonical form of memory, blows no fuse
and leaves the queue of waiting commands. One lemma per operation, composed by `Keeps.trans`. -/

namespace Sys2Proof.Machine

open Sys2Proof.Safety

/-- From s to t the canonical form of memory is kept, and no fuse and no waiting command is touched. -/
def Keeps (s t : State) : Prop := (MemInv s → MemInv t) ∧ t.fuses = s.fuses ∧ t.pending = s.pending

theorem Keeps.refl (s : State) : Keeps s s := ⟨id, rfl, rfl⟩

theorem Keeps.trans {s t u : State} (h : Keeps s t) (g : Keeps t u) : Keeps s u :=
  ⟨g.1 ∘ h.1, g.2.1.trans h.2.1, g.2.2.trans h.2.2⟩

/-- A change of no memory, no fuse and no waiting command. -/
theorem Keeps.of_same {s t : State} (hm : t.mem = s.mem) (hc : t.chk = s.chk) (hs : t.sram = s.sram)
    (hf : t.fuses = s.fuses) (hp : t.pending = s.pending) : Keeps s t :=
  ⟨fun h => by unfold MemInv at *; rw [hm, hc, hs]; exact h, hf, hp⟩

theorem Keeps.memInv {s t : State} (h : Keeps s t) (hs : MemInv s) : MemInv t := h.1 hs

theorem Keeps.fusesKept {s t : State} (h : Keeps s t) : FusesKept s t := by
  unfold FusesKept State.arbCtr
  rw [h.2.1]
  exact ⟨fun _ => Nat.le_refl _, BitVec.and_self⟩

theorem Keeps.ite {s : State} {p : Prop} [Decidable p] {a b : State} (ha : Keeps s a) (hb : Keeps s b) :
    Keeps s (if p then a else b) := by
  split <;> assumption

/-- A fold keeps what each of its steps keeps. -/
theorem Keeps.foldl {β : Type} (l : List β) (f : State → β → State) (h : ∀ s x, Keeps s (f s x)) (s : State) :
    Keeps s (l.foldl f s) := by
  induction l generalizing s with
  | nil => exact Keeps.refl s
  | cons x l ih => exact (h s x).trans (ih (f s x))

theorem Keeps.forN (n : Nat) (f : State → Nat → State) (h : ∀ s i, Keeps s (f s i)) (s : State) :
    Keeps s (forN n s f) := Keeps.foldl _ f h s

/-! ### Registers, errors and interrupts -/

theorem keeps_setReg (s : State) (a : Nat) (w : Word) : Keeps s (s.setReg a w) := .of_same rfl rfl rfl rfl rfl
theorem keeps_setFld (s : State) (a hi lo v : Nat) : Keeps s (s.setFld a hi lo v) := .of_same rfl rfl rfl rfl rfl
theorem keeps_setBit (s : State) (a i : Nat) (b : Bool) : Keeps s (s.setBit a i b) := .of_same rfl rfl rfl rfl rfl
theorem keeps_bump (s : State) (a n : Nat) : Keeps s (s.bump a n) := .of_same rfl rfl rfl rfl rfl
theorem keeps_setReg64 (s : State) (a v : Nat) : Keeps s (s.setReg64 a v) := .of_same rfl rfl rfl rfl rfl
theorem keeps_setCopy (s : State) (k i : Nat) (w : Word) : Keeps s (s.setCopy k i w) := .of_same rfl rfl rfl rfl rfl
theorem keeps_emit (s : State) (o : Out) : Keeps s (s.emit o) := .of_same rfl rfl rfl rfl rfl
theorem keeps_draw (s : State) (n : Nat) : Keeps s (s.draw n).2 := .of_same rfl rfl rfl rfl rfl
theorem keeps_record (s : State) (pg : Pg) (code sev : Nat) (ctx : Option Nat) (addr info : Nat) (live : Bool) :
    Keeps s (s.record pg code sev ctx addr info live) := .of_same rfl rfl rfl rfl rfl

theorem keeps_raiseVec (s : State) (p v : Nat) : Keeps s (s.raiseVec p v) := by
  unfold State.raiseVec
  exact .ite (keeps_emit _ _) (.of_same rfl rfl rfl rfl rfl)

theorem keeps_pageIrq (s : State) (pg : Pg) : Keeps s (s.pageIrq pg) := by
  unfold State.pageIrq
  split
  · exact keeps_raiseVec _ _ _
  · split
    · exact .ite (keeps_raiseVec _ _ _) (.refl _)
    · exact .forN _ _ (fun s p => .ite (keeps_raiseVec _ _ _) (.refl _)) _

theorem keeps_flagErr (s : State) (pg : Pg) (bit qual sev : Nat) (ctx : Option Nat) (addr info : Nat) :
    Keeps s (s.flagErr pg bit qual sev ctx addr info) := by
  unfold State.flagErr
  exact ((keeps_record s pg _ sev ctx addr info _).trans (keeps_setBit _ _ _ _)).trans (.ite (keeps_pageIrq _ _) (.refl _))

theorem keeps_flagC (s : State) (p : Pg) (bit : Nat) : Keeps s (s.flagC p bit) := keeps_flagErr ..

theorem keeps_denyWrite (s : State) (src : Src) (addr : Nat) : Keeps s (s.denyWrite src addr) := by
  unfold State.denyWrite
  split
  · exact keeps_flagErr ..
  · exact (keeps_flagErr ..).trans (keeps_bump ..)

/-! ### Sub-states -/

theorem keeps_setChan (s : State) (t c : Nat) (x : Chn) : Keeps s (s.setChan t c x) := .of_same rfl rfl rfl rfl rfl
theorem keeps_modChan (s : State) (t c : Nat) (f : Chn → Chn) : Keeps s (s.modChan t c f) := .of_same rfl rfl rfl rfl rfl
theorem keeps_modTower (s : State) (t : Nat) (f : Tw → Tw) : Keeps s (s.modTower t f) := .of_same rfl rfl rfl rfl rfl
theorem keeps_modBench (s : State) (t : Nat) (f : Bench → Bench) : Keeps s (s.modBench t f) := .of_same rfl rfl rfl rfl rfl
theorem keeps_modStall (s : State) (i : Nat) (f : Stl → Stl) : Keeps s (s.modStall i f) := .of_same rfl rfl rfl rfl rfl
theorem keeps_modPort (s : State) (p : Nat) (f : Prt → Prt) : Keeps s (s.modPort p f) := .of_same rfl rfl rfl rfl rfl
theorem keeps_modRing (s : State) (k : Nat) (f : RingSt → RingSt) : Keeps s (s.modRing k f) := .of_same rfl rfl rfl rfl rfl
theorem keeps_modCore (s : State) (k : Nat) (f : CoreSt → CoreSt) : Keeps s (s.modCore k f) := .of_same rfl rfl rfl rfl rfl
theorem keeps_modAisle (s : State) (k : Nat) (f : AisleSt → AisleSt) : Keeps s (s.modAisle k f) := .of_same rfl rfl rfl rfl rfl

/-! ### The arrays -/

theorem keeps_setRawUnit (s : State) (k : Nat) (cw : List Byte) : Keeps s (s.setRawUnit k cw) :=
  ⟨fun h => ⟨cellsSet_wf _ _ h.1, cellsSet_wf _ _ h.2.1, h.2.2⟩, rfl, rfl⟩

theorem keeps_putUnit (s : State) (k : Nat) (d : List Byte) (p : Bool) : Keeps s (s.putUnit k d p) := keeps_setRawUnit ..

theorem keeps_repairCond (s : State) (t c : Nat) : Keeps s (s.repairCond t c) := by
  have lost (s : State) : Keeps s (((s.setFld (memR t c 0x98) 3 0 5).flagErr (.mem t c) 21 0 0 none 0 c).modTower t
      (fun x => { x with oosDue := true })) := ((keeps_setFld ..).trans (keeps_flagErr ..)).trans (keeps_modTower ..)
  unfold State.repairCond
  refine .ite (.refl s) ?_
  split
  · exact .ite (.refl s) (lost s)
  · exact .ite ((keeps_setFld ..).trans (keeps_modTower ..)) (lost s)

theorem keeps_countCe (s : State) (t c n : Nat) : Keeps s (s.countCe t c n) := by
  unfold State.countCe
  refine .ite (.refl s) ((keeps_bump ..).trans (.ite ?_ (keeps_modChan ..)))
  exact ((keeps_modChan ..).trans (keeps_flagErr ..)).trans (.ite (keeps_repairCond ..) (.refl _))

theorem keeps_eccRead (s : State) (t c b row unit da : Nat) (errs : Errs) :
    Keeps s (s.eccRead t c b row unit da errs).2.2 := by
  unfold State.eccRead
  dsimp only
  split
  · exact .refl s
  · exact (keeps_setRawUnit ..).trans (keeps_countCe ..)
  · exact (keeps_bump ..).trans (keeps_flagErr ..)
  · exact ((keeps_putUnit ..).trans (keeps_bump ..)).trans (keeps_flagErr ..)

theorem keeps_cancelMir (s : State) (da : Nat) : Keeps s (s.cancelMir da) := by
  unfold State.cancelMir
  exact .ite (keeps_modTower ..) (.refl s)

theorem keeps_putUnits (s : State) (cs : List Nat) (key : Nat → Nat) (d : List Byte) (p : Bool) :
    Keeps s (cs.foldl (fun s c => s.putUnit (key c) d p) s) := .foldl cs _ (fun _ _ => keeps_putUnit ..) s

theorem keeps_arrayWrite (s : State) (da : Nat) (data : List (Nat × Byte)) (p : Bool) : Keeps s (s.arrayWrite da data p) := by
  unfold State.arrayWrite
  dsimp only
  generalize s.loc da = l
  generalize s.phys l.t l.ch = c
  have hb := (keeps_bump s (memR l.t c 0xB0) 1).trans (keeps_eccRead _ l.t c l.b l.row l.unit (da / 32 * 32) [])
  generalize (s.bump (memR l.t c 0xB0) 1).eccRead l.t c l.b l.row l.unit (da / 32 * 32) [] = r at hb
  split
  · exact keeps_putUnits s _ (fun c => unitKey l.t c l.b l.row l.unit) _ _
  · split
    · exact (hb.trans (keeps_flagErr ..)).trans (keeps_putUnits _ _ (fun c => unitKey l.t c l.b l.row l.unit) _ _)
    · exact hb.trans (keeps_putUnits _ _ (fun c => unitKey l.t c l.b l.row l.unit) _ _)

theorem keeps_lineToArray (s : State) (line : Nat) (data : List (Nat × Byte)) (poison : List Nat) :
    Keeps s (s.lineToArray line data poison) :=
  .forN 8 _ (fun s _ => .ite (.refl s) (keeps_arrayWrite ..)) s

theorem keeps_nonfin (s : State) (st n : Nat) : Keeps s (s.nonfin st n) := .ite (.refl s) (keeps_bump ..)

theorem keeps_atomBack (s : State) (e : AtomE) : Keeps s (s.atomBack e) := by
  unfold State.atomBack
  dsimp only
  generalize s.loc e.da = l
  generalize s.phys l.t l.ch = c
  have hb := keeps_eccRead s l.t c l.b l.row l.unit e.da []
  generalize s.eccRead l.t c l.b l.row l.unit e.da [] = r at hb
  split
  · exact hb
  · generalize e.adds.foldl _ _ = x
    refine (hb.trans (keeps_putUnits r.2.2 (r.2.2.wrChans l.t l.ch) (fun c => unitKey l.t c l.b l.row l.unit) x.1 false)).trans ?_
    refine Keeps.trans (Keeps.trans (.ite (.refl _) (keeps_bump ..)) (keeps_nonfin ..)) (.ite (.refl _) (keeps_flagErr ..))

/-! ### Commands of a channel -/

theorem keeps_passTo (s : State) (t c n : Nat) : Keeps s (s.passTo t c n) := by
  unfold State.passTo
  exact .ite (.refl s) (.ite (keeps_setChan ..) ((keeps_setChan ..).trans (keeps_bump ..)))

theorem keeps_command (s : State) (t c n : Nat) (f : Chn → Chn) : Keeps s (s.command t c n f) :=
  ((keeps_passTo ..).trans (keeps_modChan ..)).trans (keeps_passTo ..)

theorem keeps_preBank (s : State) (t c b : Nat) : Keeps s (s.preBank t c b) := keeps_command ..
theorem keeps_actBank (s : State) (t c b row : Nat) : Keeps s (s.actBank t c b row) := keeps_command ..
theorem keeps_colBank (s : State) (t c b : Nat) (wr : Bool) : Keeps s (s.colBank t c b wr) := keeps_command ..

theorem keeps_refreshBank (s : State) (t c b : Nat) : Keeps s (s.refreshBank t c b) := by
  unfold State.refreshBank
  dsimp only
  refine Keeps.trans ?_ (keeps_command _ t c _ _)
  exact .ite (keeps_preBank ..) (.refl s)

theorem keeps_openRow (s : State) (t c b row : Nat) : Keeps s (s.openRow t c b row) := by
  unfold State.openRow
  extract_lets u
  refine Keeps.trans (show Keeps s u from .ite (keeps_refreshBank s t c b) (.refl s)) ?_
  split
  · exact .ite (.refl _) ((keeps_preBank ..).trans (keeps_actBank ..))
  · exact keeps_actBank ..

theorem keeps_touch (s : State) (t c b row : Nat) (wr : Bool) : Keeps s (s.touch t c b row wr) :=
  .ite (.of_same rfl rfl rfl rfl rfl) ((keeps_openRow ..).trans (keeps_colBank ..))

/-! ### Queues of a channel -/

theorem keeps_touchCopy (s : State) (l : Loc) : Keeps s (s.touchCopy l) := .foldl _ _ (fun _ _ => keeps_touch ..) s

theorem keeps_perform (s : State) (t c : Nat) (r : Req) : Keeps s (s.perform t c r) := by
  unfold State.perform
  split
  · exact (keeps_lineToArray ..).trans (keeps_modChan ..)
  · dsimp only
    refine Keeps.trans ?_ (keeps_modChan ..)
    split
    · exact keeps_atomBack ..
    · exact .refl s
  · exact keeps_modChan ..

theorem keeps_serve (s : State) (t c : Nat) (r : Req) : Keeps s (s.serve t c r) := by
  unfold State.serve
  extract_lets l u v w
  have hu : Keeps s u := .ite (keeps_touch ..) (.refl s)
  have hv : Keeps s v := hu.trans (.ite ((keeps_touch ..).trans (keeps_touchCopy ..)) (.refl u))
  have hw : Keeps s w := hv.trans (.ite (keeps_preBank ..) (.refl v))
  exact hw.trans (keeps_perform ..)

theorem keeps_settle (s : State) (da : Nat) : Keeps s (s.settle da) := by
  unfold State.settle
  dsimp only
  exact (Keeps.ite (keeps_modChan ..) (.refl s)).trans (.foldl _ _ (fun _ _ => keeps_serve ..) _)

theorem keeps_drainChan (s : State) (t c : Nat) : Keeps s (s.drainChan t c) :=
  (keeps_modChan ..).trans (.foldl _ _ (fun _ _ => keeps_serve ..) _)

theorem keeps_drainTower (s : State) (t : Nat) : Keeps s (s.drainTower t) := .forN 33 _ (fun _ _ => keeps_drainChan ..) s

theorem keeps_unitRead (s : State) (da : Nat) (errs : Errs) : Keeps s (s.unitRead da errs).2.2 :=
  ((keeps_settle s da).trans (keeps_touch ..)).trans (keeps_eccRead ..)

theorem keeps_lineWrite (s : State) (line : Nat) (data : List (Nat × Byte)) (poison : List Nat) :
    Keeps s (s.lineWrite line data poison) :=
  (Keeps.foldl _ _ (fun _ _ => keeps_cancelMir ..) s).trans (keeps_setChan ..)

theorem keeps_atomAdd (s : State) (da : Nat) (af : AddFmt) (v : BitVec 256) (m : BitVec 16) : Keeps s (s.atomAdd da af v m) :=
  keeps_modChan ..

theorem keeps_queueRead (s : State) (kind : ReqKind) (da n tag : Nat) : Keeps s (s.queueRead kind da n tag) := keeps_modChan ..

/-! ### The crypt port and byte ranges -/

theorem keeps_keyDeny (s : State) (da : Nat) : Keeps s (s.keyDeny da) := (keeps_bump ..).trans (keeps_flagErr ..)

theorem keeps_cryptUnit (s : State) (who : Who) (e : KeyE) (key : BitVec 512) (da : Nat) (d : List (Nat × Byte)) (p : Bool) :
    Keeps s (s.cryptUnit who e key da d p).2.2 := by
  unfold State.cryptUnit
  dsimp only
  split
  · exact .refl s
  · have hr := (keeps_bump s (secR 0x144) 1).trans (keeps_unitRead _ da [])
    generalize (s.bump (secR 0x144) 1).unitRead da [] = r at hr
    split <;> exact hr

/-- A loop that carries two values beside the state keeps what each round keeps. -/
theorem keeps_forN3 {α β : Type} (n : Nat) (a : α × β × State) (f : α × β × State → Nat → α × β × State)
    (hf : ∀ acc i, Keeps acc.2.2 (f acc i).2.2) : Keeps a.2.2 (Machine.forN n a f).2.2 := by
  unfold Machine.forN
  induction List.range n generalizing a with
  | nil => exact .refl _
  | cons x l ih => exact (hf a x).trans (ih (f a x))

theorem keeps_portLine (s : State) (who : Who) (line : Nat) (data : List (Nat × Byte)) (poison : List Nat) :
    Keeps s (s.portLine who line data poison) := by
  unfold State.portLine
  split
  · exact keeps_lineWrite ..
  · split
    · exact .refl s
    · dsimp only
      refine Keeps.trans (keeps_forN3 8 ([], [], s) _ (fun acc u => ?_)) (keeps_lineWrite ..)
      split
      · exact .refl _
      · exact keeps_cryptUnit ..

theorem keeps_readUnit (s : State) (da : Nat) : Keeps s (s.readUnit da).2.2 := by
  unfold State.readUnit
  dsimp only
  have hr := keeps_unitRead s (da / 32 * 32) []
  generalize s.unitRead (da / 32 * 32) [] = r at hr
  split
  · exact hr
  · split
    · exact hr
    · split <;> exact hr

theorem keeps_readUnits (k : Nat) (s : State) (da : Nat) : Keeps s (State.readUnits k s da).2 := by
  induction k generalizing s da with
  | zero => exact .refl s
  | succ k ih => exact (keeps_readUnit s da).trans (ih _ _)

theorem keeps_read0 (n : Nat) (s : State) (da : Nat) : Keeps s (State.read0 n s da).2 := keeps_readUnits ..

theorem keeps_write0 (s : State) (who : Who) (da : Nat) (bs : List PB) : Keeps s (s.write0 who da bs) :=
  .foldl _ _ (fun _ _ => keeps_portLine ..) s

theorem keeps_sram (s : State) (a : Nat) (bs : List Byte) (m p : List Nat) :
    Keeps s { s with sram := cellsSet s.sram a bs, marks := m, sramP := p } :=
  ⟨fun h => ⟨h.1, h.2.1, cellsSet_wf _ _ h.2.2⟩, rfl, rfl⟩

theorem keeps_sramBytes (s : State) (u : Nat) (d : List (Nat × PB)) :
    Keeps s { s with sram := d.foldl (fun m x => cellSet m (u * 32 + x.1) x.2.1) s.sram } := by
  have put (m : List Host.Cell) (h : Memory.wf m) : Memory.wf (d.foldl (fun m x => cellSet m (u * 32 + x.1) x.2.1) m) := by
    induction d generalizing m with
    | nil => exact h
    | cons x d ih => exact ih _ (cellSet_wf _ _ h)
  exact ⟨fun h => ⟨h.1, h.2.1, put _ h.2.2⟩, rfl, rfl⟩

theorem keeps_sramUnit (s : State) (u : Nat) (d : List (Nat × PB)) : Keeps s (s.sramUnit u d) := by
  unfold State.sramUnit
  generalize List.replicate 32 (0 : Byte) = z
  extract_lets v p w
  have hv : Keeps s v := .ite (.refl s) (keeps_sram ..)
  have hw : Keeps s w := hv.trans (keeps_sramBytes v u d)
  clear_value w
  split
  · exact hw.trans (.of_same rfl rfl rfl rfl rfl)
  · split
    · exact hw.trans (.of_same rfl rfl rfl rfl rfl)
    · exact hw

theorem keeps_write1 (s : State) (da : Nat) (bs : List PB) : Keeps s (s.write1 da bs) :=
  .foldl _ _ (fun _ _ => keeps_sramUnit ..) s

theorem keeps_load (s : State) (who : Who) (da n : Nat) : Keeps s (s.load who da n).2.2 := by
  unfold State.load
  split
  · exact .refl s
  · split
    · exact .refl s
    · split
      · exact keeps_keyDeny ..
      · split
        · exact .refl s
        · exact keeps_read0 ..

theorem keeps_store (s : State) (who : Who) (sub : Option Nat) (da : Nat) (bs : List PB) :
    Keeps s (s.store who sub da bs).2 := by
  unfold State.store
  split
  · exact .refl s
  · split
    · split
      · exact keeps_flagErr ..
      · exact keeps_write1 ..
    · split
      · exact keeps_keyDeny ..
      · split
        · exact .refl s
        · exact keeps_write0 ..

theorem keeps_readWords (s : State) (da n : Nat) : Keeps s (s.readWords da n).2.2 := keeps_read0 ..
theorem keeps_writeWords (s : State) (da : Nat) (ws : List Word) : Keeps s (s.writeWords da ws) := keeps_write0 ..

/-- An event that waits leaves the state as it was; one that does not has only what it did. -/
theorem Keeps.unlessHit {s r : State} (h : Keeps s r) : Keeps s (s.unlessHit r) :=
  .ite (.refl s) (h.trans (.of_same rfl rfl rfl rfl rfl))

theorem Keeps.orWait {s : State} {f : State → State} (h : ∀ u, Keeps u (f u)) : Keeps s (s.orWait f) :=
  .unlessHit ((Keeps.of_same rfl rfl rfl rfl rfl).trans (h { s with hit := false }))

end Sys2Proof.Machine
end

