-- ==== Sys2Proof/Laws/Pages.lean ====
section
/-! SUPPORT. The page map of R43 run backwards: which page and offset a BAR0 address of each kind names. -/

namespace Sys2Proof.Machine

theorem devR_div {o : Nat} (h : o < 4096) : devR o / 4096 = 0 := by unfold devR; omega
@[simp] theorem devR_mod {o : Nat} (h : o < 4096) : devR o % 4096 = o := by unfold devR; omega
theorem pageNo_devR {o : Nat} (h : o < 4096) : pageNo (devR o / 4096) = some .dev := by rw [devR_div h]; rfl

theorem stlR_div {i o : Nat} (h : o < 4096) : stlR i o / 4096 = 0x10 + i := by simp only [stlR, Pg.base]; omega
theorem stlR_mod {i o : Nat} (h : o < 4096) : stlR i o % 4096 = o := by simp only [stlR, Pg.base]; omega
theorem pageNo_stlR {i o : Nat} (hi : i < 4) (h : o < 4096) : pageNo (stlR i o / 4096) = some (.stl i) := by
  rw [stlR_div h]; unfold pageNo
  repeat rw [if_neg (by omega)]
  rw [if_pos (by omega)]; congr 2; omega

/-- A tower page: local page l of tower t. -/
theorem pageNo_tower {t l : Nat} (ht : t < 32) (hl : l < 0x100) : pageNo (0x1000 + t * 0x100 + l) =
    (if l = 0 then some (.twr t) else if l = 1 then some (.thm t) else if l = 2 then some (.bsq t)
     else if l = 3 then some (.pkr t) else if l < 8 then some (.hwp t (l - 4))
     else if l < 0x10 then none else if l < 0x31 then some (.mem t (l - 0x10))
     else if l < 0x40 then none else if l < 0x54 then some (.ais t (l - 0x40)) else none) := by
  unfold pageNo
  repeat rw [if_neg (by omega)]
  rw [if_pos (by omega)]
  have h1 : (0x1000 + t * 0x100 + l - 0x1000) / 0x100 = t := by omega
  have h2 : (0x1000 + t * 0x100 + l - 0x1000) % 0x100 = l := by omega
  simp only [h1, h2]

theorem twrR_div {t o : Nat} (h : o < 4096) : twrR t o / 4096 = 0x1000 + t * 0x100 + 0 := by simp only [twrR, Pg.base]; omega
theorem twrR_mod {t o : Nat} (h : o < 4096) : twrR t o % 4096 = o := by simp only [twrR, Pg.base]; omega
theorem pageNo_twrR {t o : Nat} (ht : t < 32) (h : o < 4096) : pageNo (twrR t o / 4096) = some (.twr t) := by
  rw [twrR_div h, pageNo_tower ht (by omega)]; simp

theorem thmR_div {t o : Nat} (h : o < 4096) : thmR t o / 4096 = 0x1000 + t * 0x100 + 1 := by simp only [thmR, Pg.base]; omega
theorem thmR_mod {t o : Nat} (h : o < 4096) : thmR t o % 4096 = o := by simp only [thmR, Pg.base]; omega
theorem pageNo_thmR {t o : Nat} (ht : t < 32) (h : o < 4096) : pageNo (thmR t o / 4096) = some (.thm t) := by
  rw [thmR_div h, pageNo_tower ht (by omega)]; simp

theorem bsqR_div {t o : Nat} (h : o < 4096) : bsqR t o / 4096 = 0x1000 + t * 0x100 + 2 := by simp only [bsqR, Pg.base]; omega
theorem bsqR_mod {t o : Nat} (h : o < 4096) : bsqR t o % 4096 = o := by simp only [bsqR, Pg.base]; omega
theorem pageNo_bsqR {t o : Nat} (ht : t < 32) (h : o < 4096) : pageNo (bsqR t o / 4096) = some (.bsq t) := by
  rw [bsqR_div h, pageNo_tower ht (by omega)]; simp

theorem pkrR_div {t o : Nat} (h : o < 4096) : pkrR t o / 4096 = 0x1000 + t * 0x100 + 3 := by simp only [pkrR, Pg.base]; omega
theorem pkrR_mod {t o : Nat} (h : o < 4096) : pkrR t o % 4096 = o := by simp only [pkrR, Pg.base]; omega
theorem pageNo_pkrR {t o : Nat} (ht : t < 32) (h : o < 4096) : pageNo (pkrR t o / 4096) = some (.pkr t) := by
  rw [pkrR_div h, pageNo_tower ht (by omega)]; simp

theorem memR_div {t c o : Nat} (h : o < 4096) : memR t c o / 4096 = 0x1000 + t * 0x100 + (0x10 + c) := by
  simp only [memR, Pg.base]; omega
theorem memR_mod {t c o : Nat} (h : o < 4096) : memR t c o % 4096 = o := by simp only [memR, Pg.base]; omega
theorem pageNo_memR {t c o : Nat} (ht : t < 32) (hc : c < 33) (h : o < 4096) : pageNo (memR t c o / 4096) = some (.mem t c) := by
  rw [memR_div h, pageNo_tower ht (by omega)]
  repeat rw [if_neg (by omega)]
  rw [if_pos (by omega)]
  congr 2; omega

theorem aisR_div {t a o : Nat} (h : o < 4096) : aisR t a o / 4096 = 0x1000 + t * 0x100 + (0x40 + a) := by
  simp only [aisR, Pg.base]; omega
theorem aisR_mod {t a o : Nat} (h : o < 4096) : aisR t a o % 4096 = o := by simp only [aisR, Pg.base]; omega
theorem pageNo_aisR {t a o : Nat} (ht : t < 32) (ha : a < 20) (h : o < 4096) : pageNo (aisR t a o / 4096) = some (.ais t a) := by
  rw [aisR_div h, pageNo_tower ht (by omega)]
  repeat rw [if_neg (by omega)]
  rw [if_pos (by omega)]
  congr 2; omega

theorem prtR_div {p o : Nat} (h : o < 4096) : prtR p o / 4096 = 0x3010 + p := by simp only [prtR, Pg.base]; omega
theorem prtR_mod {p o : Nat} (h : o < 4096) : prtR p o % 4096 = o := by simp only [prtR, Pg.base]; omega
theorem pageNo_prtR {p o : Nat} (hp : p < 4) (h : o < 4096) : pageNo (prtR p o / 4096) = some (.prt p) := by
  rw [prtR_div h]
  have : p = 0 ∨ p = 1 ∨ p = 2 ∨ p = 3 := by omega
  rcases this with rfl | rfl | rfl | rfl <;> rfl

theorem wghR_mod {o : Nat} (h : o < 4096) : wghR o % 4096 = o := by unfold wghR; omega
theorem pageNo_wghR {o : Nat} (h : o < 4096) : pageNo (wghR o / 4096) = some .wgh := by
  have : wghR o / 4096 = 0x3002 := by unfold wghR; omega
  rw [this]; rfl
theorem rscR_mod {o : Nat} (h : o < 4096) : rscR o % 4096 = o := by unfold rscR; omega
theorem pageNo_rscR {o : Nat} (h : o < 4096) : pageNo (rscR o / 4096) = some .rsc := by
  have : rscR o / 4096 = 0x3003 := by unfold rscR; omega
  rw [this]; rfl
theorem secR_mod {o : Nat} (h : o < 4096) : secR o % 4096 = o := by unfold secR; omega
theorem pageNo_secR {o : Nat} (h : o < 4096) : pageNo (secR o / 4096) = some .sec := by
  have : secR o / 4096 = 0x3004 := by unfold secR; omega
  rw [this]; rfl
theorem mgtR_mod {o : Nat} (h : o < 4096) : mgtR o % 4096 = o := by unfold mgtR; omega
theorem pageNo_mgtR {o : Nat} (h : o < 4096) : pageNo (mgtR o / 4096) = some .mgt := by
  have : mgtR o / 4096 = 0x3005 := by unfold mgtR; omega
  rw [this]; rfl
theorem flsR_mod {o : Nat} (h : o < 4096) : flsR o % 4096 = o := by unfold flsR; omega
theorem pageNo_flsR {o : Nat} (h : o < 4096) : pageNo (flsR o / 4096) = some .fls := by
  have : flsR o / 4096 = 0x3006 := by unfold flsR; omega
  rw [this]; rfl

end Sys2Proof.Machine
end

