-- ==== Sys2Proof/Laws/Waits.lean ====
section
/-! SUPPORT. An event that waits as a whole, and the rows of the engine and bench queues that are such events: what each can
do, said once. -/

namespace Sys2Proof.Machine

open Sys2Proof.Safety

/-- An event whose accesses were all taken has its effect; the mark is as it was. -/
theorem State.unlessHit_clear {s r : State} (h : r.hit = false) : s.unlessHit r = { r with hit := s.hit } := by
  simp [State.unlessHit, h]

/-- An event that met a channel or a bank that takes no request leaves the state as it was. -/
theorem State.unlessHit_hit {s r : State} (h : r.hit = true) : s.unlessHit r = s := by
  simp [State.unlessHit, h]

theorem State.orWait_clear {s : State} {f : State → State} (h : (f { s with hit := false }).hit = false) :
    s.orWait f = { f { s with hit := false } with hit := s.hit } := State.unlessHit_clear h

theorem State.orWait_hit {s : State} {f : State → State} (h : (f { s with hit := false }).hit = true) :
    s.orWait f = s := State.unlessHit_hit h

/-- A command that waits as a whole has its effect, or leaves the state as it was. -/
theorem ends_of_orWait {s : State} {cmd : Instr} {f : State → State} (h : exec cmd s = .next (s.orWait f)) :
    ((f { s with hit := false }).hit = false → exec cmd s = .next { f { s with hit := false } with hit := s.hit }) ∧
    ((f { s with hit := false }).hit = true → exec cmd s = .next s) :=
  ⟨fun c => by rw [h, State.orWait_clear c], fun c => by rw [h, State.orWait_hit c]⟩

/-- A row of an engine queue is the row of its own code, or of a code that its family does not know. -/
def ownRow (legal : List Nat) (op code : Nat) : Prop := legal.contains op = true → op = code

/-- R112: a bench queue goes on where no RUN is in progress and no other submission's program is open. -/
theorem bench_free {b : Bench} {n : Nat} :
    (b.run.isSome || (b.open_ && b.slot != n)) = false ↔ b.run = none ∧ (b.open_ = false ∨ b.slot = n) := by
  cases b.run <;> cases b.open_ <;> simp

/-- A descriptor that begins has its effect, and what it leaves due then takes effect. -/
theorem rowAt_run {s u : State} {k fam op code bit : Nat} {legal : List Nat} {d : Desc} {ok : State → Bool} {body : State → State}
    (ho : ownRow legal op code) (h : rowBegin s k fam (fun s => legal.contains op && ok s) d = some u) :
    State.rowAt { s with hit := false } k fam op code legal bit d ok body = (body u).settleIdle := by
  unfold State.rowAt
  rw [if_neg (by simpa [ownRow] using ho)]
  unfold rowBegin at h
  by_cases hk : k / 8 < 10240
  · simp only [hk, true_or, if_true] at h ⊢
    revert h
    cases State.head _ k fam _ d <;> simp
    rintro rfl; rfl
  · simp only [hk, false_or, if_false] at h ⊢
    split at h
    · rename_i hb
      simp only [bench_free.mpr hb, Bool.false_eq_true, if_false]
      revert h
      cases State.head _ k fam _ d <;> simp
      rintro rfl; rfl
    · simp at h

/-- A descriptor of a core queue that its family's checks refuse fails its submission with the family's bit. -/
theorem rowAt_bad {s v : State} {k fam op code bit : Nat} {legal : List Nat} {d : Desc} {ok : State → Bool} {body : State → State}
    (ho : ownRow legal op code) (hk : k / 8 < 10240) (h : s.head k fam (fun s => legal.contains op && ok s) d = .bad v) :
    s.rowAt k fam op code legal bit d ok body = (v.failDesc k bit 1 d).settleIdle := by
  unfold State.rowAt
  rw [if_neg (by simpa [ownRow] using ho)]
  simp only [hk, if_true, h]

/-- A descriptor of a core queue of another family or version fails its submission with MVSY_REFUSED. -/
theorem rowAt_refuse {s v : State} {k fam op code bit : Nat} {legal : List Nat} {d : Desc} {ok : State → Bool} {body : State → State}
    (ho : ownRow legal op code) (hk : k / 8 < 10240) (h : s.head k fam (fun s => legal.contains op && ok s) d = .refuse v) :
    s.rowAt k fam op code legal bit d ok body = (v.failDesc k 19 1 d).settleIdle := by
  unfold State.rowAt
  rw [if_neg (by simpa [ownRow] using ho)]
  simp only [hk, if_true, h]

/-- A descriptor that waits leaves what its head left. -/
theorem rowAt_wait {s v : State} {k fam op code bit : Nat} {legal : List Nat} {d : Desc} {ok : State → Bool} {body : State → State}
    (ho : ownRow legal op code) (hk : k / 8 < 10240) (h : s.head k fam (fun s => legal.contains op && ok s) d = .wait v) :
    s.rowAt k fam op code legal bit d ok body = v := by
  unfold State.rowAt
  rw [if_neg (by simpa [ownRow] using ho)]
  simp only [hk, if_true, h]

/-- A descriptor that names another row of its family changes nothing. -/
theorem rowAt_other {s : State} {k fam op code bit : Nat} {legal : List Nat} {d : Desc} {ok : State → Bool} {body : State → State}
    (hl : legal.contains op = true) (hn : op ≠ code) : s.rowAt k fam op code legal bit d ok body = s := by
  unfold State.rowAt
  rw [if_pos (by rw [hl]; simp [hn])]

/-- A BN descriptor of its row that begins has its effect. -/
theorem bnTake_run {s u : State} {t kind : Nat} {d : Desc} {body : State → State} (hk : dfld d 1 25 24 = kind) (h3 : kind ≠ 3)
    (h : bnBegin s t d = some u) : State.bnTake { s with hit := false } t kind d body = body u := by
  subst hk
  unfold bnBegin at h
  unfold State.bnTake
  simp only at h
  simp only [bne_self_eq_false, Bool.and_false, Bool.false_eq_true, if_false]
  split at h
  · rename_i hb
    simp only [bench_free.mpr hb, Bool.false_eq_true, if_false]
    revert h
    generalize State.head _ (bnKey t) 3 _ d = r
    cases r with
    | run v =>
      simp only
      intro h
      split at h
      · rename_i hc
        simp only [Option.some.injEq] at h
        simp only [hc.1, Bool.false_eq_true, if_false]
        rw [if_neg (Nat.not_lt.mpr hc.2), h]
      · simp at h
    | _ => simp
  · simp at h

/-- The queues of cores come before the bench queues. -/
theorem qKey_lt {q : QueueId} (h : q.k ≠ .bn) : qKey q / 8 < 10240 := by
  have ht := q.core.t.isLt
  have ha := q.core.a.isLt
  have hc := q.core.c.isLt
  have hk : kIdx q.k < 8 := by cases q.k <;> decide
  have e : qKey q = coreKey q.core.t.val q.core.a.val q.core.c.val * 8 + kIdx q.k := by
    unfold qKey
    cases hq : q.k <;> simp_all
  rw [e]
  unfold coreKey
  omega

theorem qKey_bn {q : QueueId} (h : q.k = .bn) : qKey q = bnKey q.core.t.val := by
  unfold qKey bnKey
  rw [h]

/-- What is left of an event: v, with the mark as it was, or nothing where v holds the mark. -/
theorem orWait_cases {s v : State} {f : State → State} (h : f { s with hit := false } = v) :
    (v.hit = false → s.orWait f = { v with hit := s.hit }) ∧ (v.hit = true → s.orWait f = s) :=
  ⟨fun c => by subst h; exact State.orWait_clear c, fun c => by subst h; exact State.orWait_hit c⟩

/-- A descriptor of an engine row that begins, its checks ok passed: its effect and what that leaves due, or it waits. -/
theorem engineRow_run {s u v : State} {k fam op code bit : Nat} {legal : List Nat} {d : Desc} {ok : State → Bool}
    {body : State → State} (ho : op = code) (hl : legal.contains code = true) (h : rowBegin s k fam ok d = some u)
    (hv : (body u).settleIdle = v) :
    (v.hit = false → s.engineRow k fam op code legal bit d ok body = { v with hit := s.hit }) ∧
    (v.hit = true → s.engineRow k fam op code legal bit d ok body = s) := by
  subst ho
  unfold State.engineRow
  exact orWait_cases ((rowAt_run (fun _ => rfl) (by simpa only [hl, Bool.true_and] using h)).trans hv)

/-- A descriptor that its family's checks refuse as it reaches the head of a core queue. -/
theorem engineRow_bad {s w v : State} {k fam op code bit : Nat} {legal : List Nat} {d : Desc} {ok : State → Bool}
    {body : State → State} (ho : op = code) (hl : legal.contains code = true) (hk : k / 8 < 10240)
    (h : ({ s with hit := false } : State).head k fam ok d = .bad w) (hv : (w.failDesc k bit 1 d).settleIdle = v) :
    (v.hit = false → s.engineRow k fam op code legal bit d ok body = { v with hit := s.hit }) ∧
    (v.hit = true → s.engineRow k fam op code legal bit d ok body = s) := by
  subst ho
  unfold State.engineRow
  exact orWait_cases ((rowAt_bad (fun _ => rfl) hk (by simpa only [hl, Bool.true_and] using h)).trans hv)

/-- A VX descriptor that begins while no tile of it is in use. -/
theorem vxRow_run {s u v : State} {q : CoreId} {code : Nat} {d : Desc} {body : VxC → State → State}
    (ho : dfld d 1 31 26 = code) (hc : code < 0x1E) (h : rowBegin s (qKey ⟨q, .vx⟩) 2 (fun v => v.vxOk ⟨qKey ⟨q, .vx⟩, q, d⟩) d = some u)
    (hb : u.tilesBusy (qKey ⟨q, .vx⟩) d = false) (hv : (body ⟨qKey ⟨q, .vx⟩, q, d⟩ u).settleIdle = v) :
    (v.hit = false → s.vxRow q code d body = { v with hit := s.hit }) ∧ (v.hit = true → s.vxRow q code d body = s) :=
  engineRow_run ho (by simpa using hc) h (by rw [if_neg (by rw [hb]; exact Bool.false_ne_true), hv])

/-- An MV descriptor that begins and obeys R281. -/
theorem mvRow_run {s u v : State} {q : CoreId} {code : Nat} {d : Desc} {body : MvC → State → State} (ho : dfld d 1 31 28 = code)
    (hc : code ∈ [1, 2, 3, 4, 5, 6, 8]) (h : rowBegin s (qKey ⟨q, .mv⟩) 4 (fun _ => (⟨qKey ⟨q, .mv⟩, q, d⟩ : MvC).ok) d = some u)
    (hv : (body ⟨qKey ⟨q, .mv⟩, q, d⟩ u).settleIdle = v) :
    (v.hit = false → s.mvRow q code d body = { v with hit := s.hit }) ∧ (v.hit = true → s.mvRow q code d body = s) :=
  engineRow_run ho (by simpa using hc) h hv

/-- An SY descriptor that begins. -/
theorem syRow_run {s u v : State} {q : QueueId} {code : Nat} {d : Desc} {body : State → State} (ho : dfld d 1 31 28 = code)
    (hc : code ∈ [1, 2, 3, 4]) (h : rowBegin s (qKey q) 5 (fun _ => !syBad code d) d = some u) (hv : (body u).settleIdle = v) :
    (v.hit = false → s.syRow q code d body = { v with hit := s.hit }) ∧ (v.hit = true → s.syRow q code d body = s) :=
  engineRow_run ho (by simpa using hc) h hv

/-- A BN descriptor that begins: what it leaves due takes effect in every case. -/
theorem bnRow_run {s u v : State} {t kind : Nat} {d : Desc} {body : State → State} (hk : dfld d 1 25 24 = kind) (h3 : kind ≠ 3)
    (h : bnBegin s t d = some u) (hv : body u = v) :
    (v.hit = false → s.bnRow t kind d body = ({ v with hit := s.hit } : State).settleIdle) ∧
    (v.hit = true → s.bnRow t kind d body = s.settleIdle) := by
  have e := orWait_cases (s := s) (f := fun s => s.bnTake t kind d body) ((bnTake_run hk h3 h).trans hv)
  exact ⟨fun c => by unfold State.bnRow; rw [e.1 c], fun c => by unfold State.bnRow; rw [e.2 c]⟩

end Sys2Proof.Machine
end

