-- ==== Sys2Proof/Laws/Writes.lean ====
section
/-! SUPPORT. What a register write does, said once: a write that reaches its page acts and then takes effect by class;
a write that is refused leaves only its record. -/

namespace Sys2Proof.Machine

open Sys2Proof.Safety

/-- What reaching its page says of a write. -/
theorem reaches_iff {s : State} {src : Src} {addr : Nat} {val : Word} {pg : Pg} {r : RegDef}
    (hp : pageNo (addr / 4096) = some pg) (hr : pg.kind.regAt (addr % 4096) = some r) :
    reaches s src addr val = ((s.receive src addr).1 && (s.released pg && s.mayWrite src pg (addr % 4096) val &&
      !s.reservedWrite pg (addr % 4096) r val)) := by
  simp only [reaches, hp, hr]

/-- A source whose write is received leaves no trace in its interface. -/
theorem receive_snd {s : State} {src : Src} {addr : Nat} (h : (s.receive src addr).1 = true) : (s.receive src addr).2 = s := by
  unfold State.receive at *
  split at h <;> try rfl
  split at h <;> simp_all

/-- A write that reaches its page acts and then takes effect; its companion fields first where it requests an action
that takes them. -/
theorem regCmd_of_reaches {s : State} {src : Src} {addr : Nat} {val : Word} {pg : Pg}
    (h : reaches s src addr val = true) (hp : pageNo (addr / 4096) = some pg) :
    s.regCmd src addr val = (if takesCompanion pg (addr % 4096) val || addr % 4096 == 0x10 then (s.writeRW src pg addr val).act src pg (addr % 4096) val
      else (s.act src pg (addr % 4096) val).writeRW src pg addr val).settleIdle := by
  unfold reaches at h
  rw [hp] at h
  have h1 : (s.receive src addr).1 = true := by simp only [Bool.and_eq_true] at h; exact h.1
  cases hr : pg.kind.regAt (addr % 4096) with
  | none => simp [hr] at h
  | some r =>
    simp only [hr, Bool.and_eq_true, Bool.not_eq_true'] at h
    obtain ⟨-, ⟨ha, hb⟩, hc⟩ := h
    unfold State.regCmd
    have h2 := receive_snd h1
    generalize hq : s.receive src addr = q at h1 h2
    obtain ⟨b, s'⟩ := q
    subst h1 h2
    simp only [if_true]
    unfold State.writeReg
    simp only [hp, hr, ha, hb, hc, Bool.not_true, Bool.false_eq_true, if_false]

/-- A register without RW bits holds nothing of a write. -/
theorem writeRW_none {s : State} {src : Src} {pg : Pg} {addr : Nat} {val : Word} (h : rwBits addr (fun _ => true) = 0) :
    s.writeRW src pg addr val = s := by
  unfold State.writeRW
  simp [h]

/-- The RW bits of a register are those of its definition in its page's table. -/
theorem rwBits_eq {addr : Nat} {pg : Pg} {r : RegDef} {f : Cls → Bool} (hp : pageNo (addr / 4096) = some pg)
    (hr : pg.kind.regAt (addr % 4096) = some r) (ho : addr % 4096 ≠ 0x1C) : rwBits addr f = rwMask r f := by
  unfold rwBits
  simp only [hp, hr, if_neg ho]

end Sys2Proof.Machine
end

