-- ==== Sys2Proof/WellFormed.lean ====
section
/-! DEFINITION. Which commands are well formed: what the outside world can send at all. A type already bounds every
operand that has a fixed range; the checks here are those that relate operands. -/

namespace Sys2Proof

/-- A device transaction group is numbered 1 to 16 (R57). -/
def groupOk (g : BitVec 8) : Bool := decide (1 ≤ g.toNat) && decide (g.toNat ≤ 16)

/-- An image TYPE is 1 to 4 (R377). -/
def typeOk (t : Fin 8) : Bool := decide (1 ≤ t.val) && decide (t.val ≤ 4)

/-- A command is well formed. -/
def Instr.wf (i : Instr) : Bool :=
  match i with
  | .hawserPacket src dst _ _ => src != dst
  | .hawserAck src dst _ => src != dst
  | .regWrite _ _ size _ => decide (1 ≤ size) && decide (size ≤ 512)
  | .bar2Read _ _ off len => decide (off.toNat % 4096 + len ≤ 4096)
  | .bar2Write _ _ off data _ => decide (data.length ≤ 512) && decide (off.toNat % 4096 + data.length ≤ 4096)
  | .txnBegin _ _ g => decide (g.toNat ≤ 16)
  | .txgOpen _ g => groupOk g
  | .txgCommit _ g => groupOk g
  | .txgAbort _ g => groupOk g
  | .txgTimeout g => groupOk g
  | .txgRelease g => groupOk g
  | .memReadRequest da units _ => da.toNat % 32 == 0 && decide (0 < units.val) && decide (da.toNat % 256 + 32 * units.val ≤ 256)
  | .memWriteRequest da data _ => !data.isEmpty && decide (da.toNat % 256 + data.length ≤ 256)
  | .narrowRead da _ => da.toNat % 32 == 0
  | .atomicAdd da _ _ _ => da.toNat % 32 == 0
  | .partitionChange _ val => val.toNat % 4 != 3
  | .ownerSet _ _ port => decide (port.val < 4) || port.val == 7
  | .mctpPacket _ _ bytes _ => decide (5 ≤ bytes.length)
  | .arbCommit _ type => typeOk type
  | .memoryInitDone failed => failed.all (fun x => decide (x.1 < 32) && decide (x.2 < 33))
  | .imageReadDone _ type _ => typeOk type
  | .loadChunk _ len => decide (1 ≤ len.toNat) && decide (len.toNat ≤ 65536)
  | .timeLoRead r => decide (1 ≤ r.size) && decide (r.size ≤ 4096)
  | .linkDown .. | .winBaseWrite .. | .winCtlWrite .. | .acwHeldWrite .. | .acwCtlWrite ..
  | .memmapWrite .. | .txnCommit .. | .txnRollback .. | .ifverReqWrite .. | .swrstGo .. | .softwareDeviceReset
  | .stepBoundary .. | .channelCommandIssue .. | .readDataReturn .. | .mirrorReadReturn ..
  | .mirrorRepairReadback .. | .wcbTimeoutFlush .. | .atomicIdleWriteback .. | .refreshDue ..
  | .patrolScrubRead .. | .parityError .. | .forcedRetrainStart .. | .retrainSliceEnd .. | .retrainAttemptEnd ..
  | .trainReq .. | .deckTempReport .. | .repairStart .. | .repairAbort .. | .repairRowCopy .. | .tgGo ..
  | .tgStop .. | .tgRunDone .. | .memEnWrite .. | .bnRun .. | .bnSetload .. | .bnBload .. | .bnRunComplete ..
  | .unitNop .. | .unitMac .. | .unitMul .. | .unitFma .. | .unitAdd .. | .unitSub .. | .unitMax .. | .unitMin ..
  | .unitCmpgt .. | .unitCmpge .. | .unitCmpeq .. | .unitSel .. | .unitExp2 .. | .unitLog2 .. | .unitHsum ..
  | .unitHmax .. | .unitRsum .. | .unitRmax .. | .unitMov .. | .unitSt .. | .unitClr .. | .unitOut ..
  | .kvIsolateWrite .. | .scrubProgramIssue .. | .scrubComplete .. | .mxCommand .. | .vxNop .. | .vxAdd ..
  | .vxSub .. | .vxMul .. | .vxFma .. | .vxMax .. | .vxMin .. | .vxSel .. | .vxCmpgt .. | .vxCmpge ..
  | .vxCmpeq .. | .vxMand .. | .vxMor .. | .vxMnot .. | .vxExp2 .. | .vxLog2 .. | .vxRsqrt .. | .vxRcp ..
  | .vxCvt .. | .vxLdt .. | .vxStt .. | .vxAcc .. | .vxScl .. | .vxRsum .. | .vxRmax .. | .vxRargmax ..
  | .vxTopk .. | .vxSample .. | .vxMerge .. | .vxQnt .. | .mvCopy .. | .mvConvert .. | .mvFill .. | .mvAtomic ..
  | .mvHostrd .. | .mvHostwr .. | .pack .. | .syFence .. | .syWait .. | .syPost .. | .syStamp ..
  | .stDescriptor .. | .waitTimeout .. | .word0WaitTimeout .. | .descriptorComplete .. | .sliceExpiry ..
  | .ringCtlWrite .. | .stepIntake .. | .idleSampleTimer .. | .hostReadCompletion .. | .cplTimeout ..
  | .openSession .. | .submit .. | .append .. | .draft .. | .cancel .. | .close .. | .expertList ..
  | .stepAdmission .. | .stepAllocate .. | .stepLayers .. | .layerCheck .. | .stepVerify .. | .stepCommit ..
  | .stepEmit .. | .stepFree .. | .resultHoldRetry .. | .msixModeration .. | .msixVectorUnmask ..
  | .admissionTimeout .. | .lcParkExpiry .. | .parkMaxExpiry .. | .stepRecordRefresh .. | .histogramStep ..
  | .tabLoad .. | .claim .. | .release .. | .reconfGo .. | .reconfiguration .. | .contextOpen ..
  | .contextClose .. | .stallResetDone .. | .brstWrite .. | .brstDone .. | .perst .. | .hotReset ..
  | .portLinkDown .. | .flr .. | .isolationComplete .. | .flrComplete .. | .linkUp .. | .configRequest ..
  | .unsupportedRequest .. | .assemblyTimeout .. | .setdasa .. | .entdaa .. | .rstdaa | .hdrEntry
  | .i3cParityError | .busTimeout | .setEndpointId .. | .mctpControl .. | .registerAccessRead ..
  | .registerAccessWrite .. | .responseAttempt .. | .backoffExpiry .. | .pldmBase .. | .getSensorReading ..
  | .setNumericEffecterValue .. | .setEventReceiver .. | .pldmFirmwareUpdate .. | .getVersion ..
  | .getCapabilities .. | .negotiateAlgorithms .. | .getDigests .. | .getCertificate .. | .challenge ..
  | .getMeasurements .. | .keyExchange .. | .finish .. | .heartbeat .. | .keyUpdate .. | .endSession ..
  | .chunkSend .. | .chunkGet .. | .securedMessage .. | .revoke .. | .newkey .. | .importKey .. | .kimportWrite ..
  | .drbgReseed | .entropyFail | .tapUnlock | .powerOn | .resetNAssert | .resetNFilterExpiry | .resetNRelease ..
  | .pwrGoodLow | .refclkStop | .refclkLossTimeout | .watchdogExpiry | .tallymanHeartbeat .. | .startTimeout
  | .startConfirm | .criticalStateError .. | .fatalError .. | .fatalHandlingEnd | .domainReleaseEvent ..
  | .bootRecordRead | .loadBegin .. | .loadChunkDone | .loadEnd .. | .loadAbort .. | .loadOwnerTimeout
  | .bootRetry .. | .slotSwap .. | .recordWriteDone .. | .errSelWrite .. | .sevHistoryFlush | .integResume ..
  | .integrityCheckDone .. | .gateMemoryError .. | .epochStart | .demandReport .. | .grantCompute | .grantRise ..
  | .issueThrottle .. | .baseTempRead .. | .gateTempRead .. | .moduleWWrite .. | .pwrEnRise | .softStartDone ..
  | .pwrEnFall | .pwrEnHoldoffExpiry | .vmainUndervoltage | .vmainOvervoltage | .supplyFaultClear | .vsbLoss
  | .perstDeassert .. | .hdrExit | .refclkReturn | .pwrGoodRelease .. | .reconfigurationDone .. => true

end Sys2Proof
end

