-- ==== Sys2Proof/Tests/Slice0.lean ====
section
/-! SUPPORT. The model's own tests: the ill-formed commands that WellFormed refuses, examples of the spec, and for
each statement with hypotheses a state and operands that meet them. -/

-- one theorem after another: the kernel's evaluations need their memory one at a time
set_option Elab.async false

open Sys2Proof Sys2Proof.Machine Sys2Proof.Safety

namespace Sys2Proof.Tests

/-! ### States -/

/-- Every domain is released and the record has been read; PHASE is BOOT. -/
def up : State := { State.reset with rst := { Rst.reset with ev := 10, modGood := true, booted := true } }

/-- A port whose link is up and whose version is accepted. -/
def portUp (s : State) (p : Nat) : State :=
  ((s.setReg (prtR p 0x500) 0x60100003#32).modPort p (fun x => { x with perst := false })).setCopy p 1 0x10010001#32

/-- PHASE is READY and port 0 is up. -/
def live : State := portUp (up.setFld (devR 0x98) 3 0 1) 0

/-- Stall 0 is configured, of one stall, and port 0 owns it. -/
def served : State := (live.setSstate 0 2).setOwner 0 0

def bus : Src := .mgmt 0x08 0x09 true
def host : Src := .port 0 0x100
def dsc (l : List Nat) : Desc := descOf (l.map (fun n => BitVec.ofNat 32 n))

/-- The state a command answers. -/
def after (s : State) (c : Instr) : State :=
  match Sys2Proof.Machine.exec c s with
  | .next t => t
  | _ => s

/-- The state in which a descriptor at the head of its queue begins. -/
def begun (s : State) (k fam : Nat) (d : Desc) : State :=
  (rowBegin s k fam (fun _ => true) d).getD s

/-- What the head of a queue does to a descriptor whose family's checks answer ok. -/
def headOf (s : State) (k fam : Nat) (ok : Bool) (d : Desc) : Head := ({ s with hit := false } : State).head k fam (fun _ => ok) d
def begins (s : State) (k fam : Nat) (d : Desc) : Bool := (rowBegin s k fam (fun _ => true) d).isSome
def bads (h : Head) : Bool := match h with | .bad _ => true | _ => false
def waits (h : Head) : Bool := match h with | .wait _ => true | _ => false
def refuses (h : Head) : Bool := match h with | .refuse _ => true | _ => false

/-! ### Ill-formed commands -/

theorem test_illformed_hawser : (Instr.hawserPacket 3 3 0 0).wf = false ∧ (Instr.hawserAck 3 3 1).wf = false := by decide
theorem test_illformed_regWrite : (Instr.regWrite bus 0x1C 0 0).wf = false ∧ (Instr.regWrite bus 0x1C 513 0).wf = false ∧
    (Instr.timeLoRead ⟨host, 0xA0, 0⟩).wf = false ∧ (Instr.timeLoRead ⟨host, 0xA0, 4097⟩).wf = false ∧
    (Instr.regWrite bus 0x1E 4 0).wf = true ∧ (Instr.timeLoRead ⟨host, 0xA1, 2⟩).wf = true := by decide
theorem test_illformed_bar2 : (Instr.bar2Read 0 0 0xFFF 2).wf = false ∧ (Instr.bar2Read 0 0 0 0).wf = true ∧
    (Instr.bar2Write 0 0 0 [] false).wf = true ∧ (Instr.bar2Write 0 0 0 (List.replicate 513 0) false).wf = false ∧
    (Instr.bar2Write 0 0 0xFFF [1, 2] false).wf = false := by decide +kernel
theorem test_illformed_groups : (Instr.txnBegin bus 0 17).wf = false ∧ (Instr.txgOpen bus 0).wf = false ∧
    (Instr.txgCommit bus 17).wf = false ∧ (Instr.txgAbort bus 0).wf = false ∧ (Instr.txgTimeout 17).wf = false ∧
    (Instr.txgRelease 0).wf = false ∧ (Instr.txgOpen bus 16).wf = true := by decide
theorem test_illformed_memory : (Instr.memReadRequest 1 1 0).wf = false ∧ (Instr.memReadRequest 0 0 0).wf = false ∧
    (Instr.memReadRequest 224 2 0).wf = false ∧ (Instr.memWriteRequest 0 [] false).wf = false ∧
    (Instr.narrowRead 31 0).wf = false ∧ (Instr.atomicAdd 16 .fp32 0 0).wf = false := by decide
theorem test_illformed_values : (Instr.partitionChange bus 3).wf = false ∧ (Instr.ownerSet bus 0 4).wf = false ∧
    (Instr.ownerSet bus 0 7).wf = true ∧ (Instr.arbCommit bus 0).wf = false ∧ (Instr.imageReadDone 0 5 true).wf = false ∧
    (Instr.loadChunk bus 0).wf = false ∧ (Instr.loadChunk bus 65537).wf = false ∧
    (Instr.memoryInitDone [(32, 0)]).wf = false ∧ (Instr.mctpPacket .bus 0 [1, 2, 3, 4] true).wf = false := by decide

/-! ### The spec's own examples -/

/-- 03_register_pages.md: the MEM pages of channel 12 and of spare channel 32 of tower 5. -/
theorem test_page_addresses : memR 5 12 0 = 0x0151C000 ∧ memR 5 32 0 = 0x01530000 ∧ pageNo 0x151C = some (.mem 5 12) := by decide +kernel

/-- 02_address_space.md: DA 0x00A1_2345_6780 under GRAN 256 B and BENCH_GIB 97; 05_stethar_units.md: column 256 of its row. -/
theorem test_map_interleaved : mapDa 97 256 0xA123456780 = ⟨5, 12, 8, 1165, 896⟩ ∧
    (⟨5, 12, 8, 1165, 896⟩ : Loc).unit = 28 ∧ (⟨5, 12, 8, 1165, 896⟩ : Loc).seg = 7 ∧
    unmapDa 97 256 ⟨5, 12, 8, 1165, 896⟩ = 0xA123456780 ∧ unmapDa 97 256 ⟨5, 12, 8, 1165, 256⟩ = 0xA123452500 ∧
    unmapDa 97 256 ⟨5, 12, 8, 1165, 1792⟩ = 0xA12345E300 := by decide +kernel

/-- 02_address_space.md: byte 0x2A80 of frame 300,001. -/
theorem test_map_bench : mapDa 97 256 (0xAA09F08000 + 0x2A80) = ⟨5, 1, 53, 10279, 640⟩ ∧
    unmapDa 97 256 ⟨5, 1, 53, 10279, 640⟩ = 0xAA09F0AA80 := by decide +kernel

/-- 16 entries on 16 distinct channels. -/
def sixteen : List SetE := (List.range 16).map (fun c => ⟨c, 3, 0xFFFF⟩)

/-- 05_stethar_units.md: four MACs of a segment unit times BCAST, then HSUM, 64 times: 1,342 ns at ACT_WIN 8, 1,142 ns at 16. -/
theorem test_run_time : nCh sixteen = 1 ∧
    tCmd 8 sixteen (dsc ([0x01300000, 0x0010003F, 0, 0, 0, 0, 0, 1] ++ [0, 1, 2, 3].map (fun u => 0x08018000 + u * 4096) ++ [0x71000800])) = 1342 ∧
    tCmd 16 sixteen (dsc ([0x01300000, 0x0010003F, 0, 0, 0, 0, 0, 1] ++ [0, 1, 2, 3].map (fun u => 0x08018000 + u * 4096) ++ [0x71000800])) = 1142 := by
  decide +kernel

/-- 07_number_formats.md: 127 × 2⁻³ suffices for 13.125 and not for 17.25; at e = −3 the value 15.9375 clips; at e = −2
3.3125 is code 13. -/
theorem test_quantisation : needExp 5 ⟨105, -3⟩ = -3 ∧ needExp 5 ⟨69, -2⟩ = -2 ∧
    qClips 5 (fvScale (.fin false 255 (-4)) (-3)) = true ∧ qClips 5 (fvScale (.fin false 254 (-4)) (-3)) = false ∧
    (convTo .int8 (fvScale (.fin false 53 (-4)) (-2)) false).code = 13 := by decide +kernel

/-- 18_power_thermal.md: 154.5 W among 16 towers that each want 11.845 W more: 9.625 W each, the rest of 0.125 W to the
lower towers. -/
theorem test_water_fill :
    let out := fill 33 1545000000 ((List.range 16).map (fun t => (t, 118450000, 1, 0)))
    out.1 = 0 ∧ (out.2.getD 15 (0, 0, 0, 0)).2.2.2 = 96250000 ∧ (out.2.getD 0 (0, 0, 0, 0)).2.2.2 = 97500000 := by decide +kernel

/-- 16_clocks_reset_boot.md: the CRC that the record names, on the nine digits of its usual check. -/
theorem test_crc32c : crc32c [0x31, 0x32, 0x33, 0x34, 0x35, 0x36, 0x37, 0x38, 0x39] = 0xE3069283 := by decide +kernel

/-! ### The machine -/

theorem test_no_words : decodeTableWord 32 5 = none ∧ (State.reset.withFetchWord 32 5) = State.reset := by decide +kernel
theorem witness_StepRunsFront : State.reset.pending = [] := rfl
theorem witness_StepKeepsMemoryForm : MemInv up ∧ ∃ t, Sys2Proof.Machine.step up = .next t := ⟨by unfold MemInv; decide, _, rfl⟩
theorem witness_StepKeepsFuses : ∃ t, Sys2Proof.Machine.step up = .next t := ⟨_, rfl⟩
theorem witness_StepTakesOneCommand : { up with pending := [Instr.refclkStop, .hdrExit] }.pending = .refclkStop :: [.hdrExit] ∧
    ∃ t, Sys2Proof.Machine.step { up with pending := [.refclkStop, .hdrExit] } = .next t := ⟨rfl, _, rfl⟩

/-! ### Register writes: a state and operands for each clause of each statement -/

theorem witness_RegisterWriteWidths : pageNo (0x1C / 4096) = some .dev ∧ takes up bus 0x1C 0xFF = true ∧
    (0x98 % 8 = 0) ∧ live.portMode 0 = .normal := by decide +kernel

/-- The register of an address. -/
def regOf (pg : Pg) (o : Nat) : RegDef := (pg.kind.regAt o).getD ⟨0, 0, 0, []⟩

theorem witness_RefusedWrites_source : up.released .dev = true ∧ (Pg.dev.kind.regAt 0x90).isSome = true ∧
    (up.receive bus 0x90).1 = true ∧ up.mayWrite bus .dev 0x90 0 = false ∧
    live.released .rsc = true ∧ (Pg.rsc.kind.regAt 0x88).isSome = true ∧ (live.receive host (rscR 0x88)).1 = true ∧
    live.mayWrite host .rsc 0x88 0 = false ∧ up.portMode 0 = .refuses := by decide +kernel

theorem witness_RefusedWrites_reserved : up.released (.twr 31) = true ∧ up.mayWrite bus (.twr 31) 0x80 0x7#32 = true ∧
    (Pg.twr 31).kind.regAt 0x80 = some (regOf (.twr 31) 0x80) ∧ up.reservedWrite (.twr 31) 0x80 (regOf (.twr 31) 0x80) 0x7#32 = true ∧
    up.mayWrite bus .dev 0x20 0x40110000#32 = true ∧ Pg.dev.kind.regAt 0x20 = some (regOf .dev 0x20) ∧
    up.reservedWrite .dev 0x20 (regOf .dev 0x20) 0x40110000#32 = true := by decide +kernel

theorem witness_TimeRead : (live.receive host 0xA0).1 = true ∧ (up.receive bus 0xA0).1 = true ∧ (live.receive host 0x1C).1 = true ∧
    (live.receive host 0xA2).1 = true ∧ 0xA0 % 8 = 0 ∧ 0x1C % 4 = 0 ∧ 0x18 % 8 = 0 ∧ (live.receive host 0x18).1 = true ∧
    up.portMode 0 = .refuses := by decide +kernel

theorem witness_WindowWrites : takes live host (prtR 0 (0x84 + 8 * 7)) 5 = true ∧ takes live host (prtR 0 (0x80 + 8 * 7)) 3 = true := by
  decide +kernel

theorem witness_AccessWindowWrites : takes up bus (prtR 3 (0x104 + 16 * 15)) 5 = true ∧ takes up bus (prtR 3 (0x108 + 16 * 15)) 9 = true ∧
    takes live host (prtR 1 0x100) 0 = true ∧ live.acwAccepts host 1 0 0 = false ∧
    takes served host (prtR 1 0x100) 3 = true ∧ served.acwAccepts host 1 0 3 = true := by decide +kernel

theorem witness_TowerMapWrites : takes up bus (twrR 31 0x80) 0x0102#32 = true ∧ up.runs (.twr 31) = false ∧
    takes (up.setSstate 0 2) bus (twrR 31 0x80) 0x0102#32 = true ∧ (up.setSstate 0 2).runs (.twr 31) = true ∧
    takes up bus (twrR 0 0xA0) 0x00400001 = true ∧ up.anyAlloc 0 = false ∧ (up.reg (twrR 0 0xA0)).getLsbD 0 = false ∧
    (up.setFrm 0 5 (mkFrm 1 0 false 2)).anyAlloc 0 = true ∧ takes (up.setFrm 0 5 (mkFrm 1 0 false 2)) bus (twrR 0 0xA0) 0x00400003 = true ∧
    takes (up.setSstate 0 2) bus (twrR 0 0xA0) 0x00400003 = true := by decide +kernel

theorem witness_PageTransactions_begin : pageNo 0 = some .dev ∧ reaches up bus 0x20 (BitVec.ofNat 32 (2 ^ 30)) = true ∧
    (up.txn 0).open_ = false ∧ reaches (up.setGrp 16 ⟨1, 4, [], none, 0⟩) bus 0x20 (BitVec.ofNat 32 (2 ^ 30 + 16 * 2 ^ 16)) = true ∧
    (up.setGrp 16 ⟨1, 4, [], none, 0⟩).grp 16 = ⟨1, 4, [], none, 0⟩ ∧ srcNum bus = 4 ∧
    ((up.setTxn 0 ⟨1, some bus, 0, []⟩).txn 0).open_ = true := by decide +kernel

theorem witness_PageTransactions_end :
    let s := up.setTxn 0 ⟨1, some bus, 0, []⟩
    let r := (up.setSstate 0 2).setTxn (twrR 0 0 / 4096) ⟨1, some bus, 0, []⟩
    reaches s bus 0x20 0x80000000#32 = true ∧ (s.txn 0).st = 1 ∧ (s.txn 0).by bus = true ∧ Pg.dev.always = true ∧
    pageNo (twrR 0 0 / 4096) = some (.twr 0) ∧ reaches r bus (twrR 0 0 + 0x20) 0x80000000#32 = true ∧ (r.txn (twrR 0 0 / 4096)).by bus = true ∧
    r.runs (.twr 0) = true ∧ (Pg.twr 0).always = false ∧ (up.txn 0).st = 0 ∧ reaches up bus 0x20 0x80000000#32 = true ∧
    reaches s bus 0x20 0xC0000000#32 = true ∧ reaches up bus 0x20 0xC0000000#32 = true := by decide +kernel

theorem witness_TransactionGroups :
    let g (st : Nat) := up.setGrp 1 ⟨st, 4, [0], some 0, 0⟩
    let late (s : State) : State := { s with time := 1000000000 }
    reaches up bus 0xB0 (BitVec.ofNat 32 (2 ^ 30 + 1)) = true ∧ (up.grp 1).st = 0 ∧
    reaches (g 2) bus 0xB0 (BitVec.ofNat 32 (2 ^ 30 + 1)) = true ∧ ((g 2).grp 1).st = 2 ∧
    reaches (g 1) bus 0xB0 (BitVec.ofNat 32 (2 ^ 31 + 1)) = true ∧ ((g 1).grp 1).owner = srcNum bus ∧ (g 1).waitsReconf 0 = false ∧
    reaches up bus 0xB0 (BitVec.ofNat 32 (2 ^ 31 + 1)) = true ∧ reaches (g 2) bus 0xB0 (BitVec.ofNat 32 (3 * 2 ^ 30 + 1)) = true ∧
    reaches up bus 0xB0 (BitVec.ofNat 32 (3 * 2 ^ 30 + 1)) = true ∧ ((g 2).grp 1).since = some 0 ∧ 0 + 10000000 ≤ (late (g 2)).time ∧
    ((late (g 3)).grp 1).endAt + 1000000000 ≤ (late (g 3)).time ∧ (up.grp 1).since = none := by decide +kernel

theorem witness_VersionNegotiation : takes live host 0x90 0x10010000#32 = true ∧ live.portHasCtx 0 = false ∧
    (0x10010000#32).extractLsb' 28 4 = 1#4 ∧ (0x10010000#32).extractLsb' 16 8 = 1#8 ∧
    (let s := ((live.setSstate 0 2).setReg (stlR 0 0x400) 0xA0000000#32).setFld (stlR 0 0x404) 31 28 1
     takes s host 0x90 0x10010000#32 = true ∧ s.portHasCtx 0 = true ∧ s.accepted 0 = true) := by decide +kernel

theorem witness_DevWrites : reaches up bus 0xC0 1#32 = true ∧ takes up bus 0xD0 2#32 = true ∧ up.partn = none ∧ up.nstall = 0 ∧
    takes up bus 0x100 (0x03010000#32) = true := by decide +kernel

theorem witness_ChannelCommands :
    let a := memR 0 0
    let rep (old : Nat) := up.modTower 0 (fun x => { x with repair := some ⟨5, old, 0, [], 0, false, 0⟩ })
    let spare := up.setFld (memR 0 32 0x14) 31 28 5
    reaches up bus (a 0x94) 0x80000000#32 = true ∧ reaches up bus (a 0x98) 0x40000000#32 = true ∧ up.logical 0 0 < 32 ∧
    up.spareFree 0 = true ∧ (rep 5).spareFree 0 = false ∧ reaches (rep 5) bus (a 0x98) 0x40000000#32 = true ∧
    reaches up bus (memR 0 32 0x98) 0x40000000#32 = true ∧ 32 ≤ up.logical 0 32 ∧
    reaches (rep 0) bus (a 0x98) 0x80000000#32 = true ∧ reaches up bus (a 0x98) 0x80000000#32 = true ∧
    reaches spare bus (memR 0 32 0x100) 0x80000000#32 = true ∧ spare.fld (memR 0 32 0x14) 31 28 = 5 ∧
    (spare.reg (memR 0 32 0x100)).getLsbD 0 = false ∧
    reaches up bus (a 0x100) 0x80000000#32 = true ∧ reaches up bus (a 0x100) ((0 ||| 0x40000000#32) &&& 0x7FFFFFFF#32) = true ∧
    up.fld (a 0x14) 31 28 = 0 ∧ takes up bus (a 0x10) 1#32 = true ∧ takes up bus (a 0x10) 0#32 = true := by decide +kernel

theorem witness_TableAndRingWrites :
    let on := up.setReg (prtR 3 0x2C0) 0x88804000#32
    reaches up bus (pkrR 31 0x94) (BitVec.ofNat 32 (2 ^ 31 + 255)) = true ∧
    takes up bus (prtR 3 0x2C0) 0x08804000#32 = true ∧ up.ringEn 15 = false ∧ takes up bus (prtR 3 0x2C0) 0x88804000#32 = true ∧
    on.ringEn 15 = true ∧ takes on bus (prtR 3 0x2C0) 0x08804000#32 = true ∧
    on.reg (prtR 3 0x2C0) &&& 0x3FF00000#32 = 0x08804000#32 &&& 0x3FF00000#32 := by decide +kernel

theorem witness_StallOwnership :
    reaches live host (prtR 0 0x400) (BitVec.ofNat 32 (2 ^ 31)) = true ∧ 0 < live.stalls ∧ live.pendingOwner 0 = 7 ∧
    reaches served host (prtR 0 0x400) (BitVec.ofNat 32 (2 ^ 31)) = true ∧ served.pendingOwner 0 = 0 ∧
    reaches live host (prtR 0 0x400) (BitVec.ofNat 32 (2 ^ 31 + 3)) = true ∧ live.stalls ≤ 3 ∧
    reaches served host (prtR 0 0x400) (BitVec.ofNat 32 (2 ^ 30)) = true ∧ reaches live host (prtR 0 0x400) (BitVec.ofNat 32 (2 ^ 30)) = true ∧
    reaches up bus (stlR 0 0x80) (BitVec.ofNat 32 (2 ^ 31 + 3)) = true ∧ reaches up bus (stlR 3 0x80) (BitVec.ofNat 32 (2 ^ 31 + 7)) = true := by
  decide +kernel

/-- Stall 0 serves a step in part 2. -/
def inst (s : State) : State := (s.setSstate 0 2).modStall 0 (fun x => { x with part := 2 })

theorem witness_StallCommands :
    let opened := ((inst live).setReg (stlR 0 0x400) 0xA0000101#32).setFld (stlR 0 0x404) 31 28 1
    let w := 0x200001FF#32 ||| 0x80000000#32
    reaches up bus (stlR 0 0x84) (BitVec.ofNat 32 (2 ^ 31 + 2 ^ 30)) = true ∧ 0 < up.stalls ∧
    takes (inst live) bus (stlR 0 0x400) w = true ∧ (inst live).ctxState 0 0 = 0 ∧ (inst live).mayOpen 0 (w &&& 0xE0F0FFFF#32) = true ∧
    (inst live).shareSum 0 + ((0x200001FF#32).extractLsb' 8 8).toNat ≤ 256 ∧
    takes opened bus (stlR 0 0x400) (opened.reg (stlR 0 0x400) &&& 0x7FFFFFFF#32) = true ∧
    opened.reg (stlR 0 0x400) &&& 0x1F0F0000#32 = 0 ∧ opened.ctxState 0 0 = 1 ∧
    reaches (inst up) bus (stlR 0 0x280) 0x80000000#32 = true := by decide +kernel

theorem witness_StallCommands_quota :
    let full := (((inst live).setReg (stlR 0 0x400) 0xA000FF00#32).setFld (stlR 0 0x404) 31 28 1)
    let w := 0x2000FF01#32 ||| 0x80000000#32
    takes full bus (stlR 0 0x408) w = true ∧ full.ctxState 0 1 = 0 ∧ full.mayOpen 0 (w &&& 0xE0F0FFFF#32) = true ∧
    256 < full.shareSum 0 + ((0x2000FF01#32).extractLsb' 8 8).toNat := by decide +kernel

theorem witness_StallCommands_refused : takes (inst up) bus (stlR 0 0x400) 0xA00001FF#32 = true ∧ (inst up).ctxState 0 0 = 0 ∧
    (inst up).mayOpen 0 (0xA00001FF#32 &&& 0xE0F0FFFF#32) = false := by decide +kernel

theorem witness_BlockResets :
    let m := memR 0 0 0x10
    let a := m / 4096
    let resetting : State := { up with rf := { up.rf with brst := [pkrR 0 0 / 4096] } }
    pageNo (pkrR 0 0 / 4096) = some (.pkr 0) ∧ reaches up bus (pkrR 0 0x10) ((up.reg (pkrR 0 0x10) &&& 1#32) ||| 2#32) = true ∧
    smem up.rf.brst (pkrR 0 0 / 4096) = false ∧ up.brstAccepted (.pkr 0) = true ∧
    reaches resetting bus (pkrR 0 0x10) ((up.reg (pkrR 0 0x10) &&& 1#32) ||| 2#32) = true ∧ smem resetting.rf.brst (pkrR 0 0 / 4096) = true ∧
    reaches (up.setSstate 0 2) bus (pkrR 0 0x10) ((up.reg (pkrR 0 0x10) &&& 1#32) ||| 2#32) = true ∧
    pageNo a = some (.mem 0 0) := by decide +kernel

theorem witness_BlockResets_refused : reaches up bus 0x10 ((up.reg 0x10 &&& 1#32) ||| 2#32) = true ∧ up.brstAccepted .dev = false := by
  decide +kernel

theorem witness_BlockResets_channel :
    let spare := up.setFld (memR 0 32 0x14) 31 28 5
    takes spare bus (memR 0 32 0x10) ((spare.reg (memR 0 32 0x10) &&& 1#32) ||| 2#32) = true ∧
    smem spare.rf.brst (memR 0 32 0 / 4096) = false ∧ spare.brstAccepted (.mem 0 32) = true ∧
    pageNo (memR 0 32 0 / 4096) = some (.mem 0 32) := by decide +kernel

def img (type svn key : Nat) : Img := ⟨type, svn, key, []⟩
def withImg (s : State) (l : List Img) : State := s.modRst (fun x => { x with images := l })

theorem witness_SecurityCommands :
    let s := withImg up [img 1 5 0, img 2 100 1]
    let f : State := { s with fuses := { s.fuses with arb := [(1, 64)], revoked := 0b0111 } }
    reaches s bus (secR 0x120) (BitVec.ofNat 32 (2 ^ 31 + 2)) = true ∧ s.running 2 = some (img 2 100 1) ∧ s.arbCtr 2 < min 64 100 ∧
    reaches f bus (secR 0x120) (BitVec.ofNat 32 (2 ^ 31 + 1)) = true ∧ f.running 1 = some (img 1 5 0) ∧ min 64 5 ≤ f.arbCtr 1 ∧
    reaches s bus (secR 0x124) (BitVec.ofNat 32 (2 ^ 31 + 3 * 2 ^ 8)) = true ∧ s.fuses.revoked ||| (1#4 <<< 3) ≠ 0xF#4 ∧
    (img 1 5 0).key ≠ 3 ∧ f.fuses.revoked ||| (1#4 <<< 3) = 0xF#4 ∧ reaches f bus (secR 0x124) (BitVec.ofNat 32 (2 ^ 31 + 3 * 2 ^ 8)) = true ∧
    reaches s bus (secR (0x8C + 16 * 3)) 0x80000000#32 = true ∧ reaches s bus (secR 0x8C) 0x40000000#32 = true ∧
    reaches s bus (secR (0xC0 + 4 * 15)) 7#32 = true := by decide +kernel

theorem witness_BoardCommands :
    let ld (o st : Nat) := (up.setFld (flsR 0x94) 31 30 o).setFld (flsR 0x94) 3 0 st
    let rec_ := up.setFld (devR 0x98) 3 0 2
    loadOwner bus = 2 ∧ reaches up bus (flsR 0x90) 0x10000000#32 = true ∧ up.fld (flsR 0x94) 31 30 = 0 ∧ up.loadState ≠ 2 ∧
    reaches (ld 2 1) bus (flsR 0x90) (BitVec.ofNat 32 (2 ^ 29 + 65536)) = true ∧ (ld 2 1).fld (flsR 0x94) 31 30 = 2 ∧ (ld 2 1).loadState = 1 ∧
    reaches (ld 2 1) bus (flsR 0x90) 0x30000000#32 = true ∧ reaches (ld 2 1) bus (flsR 0x90) 0x40000000#32 = true ∧
    (ld 1 1).fld (flsR 0x94) 31 30 = 1 ∧ reaches (ld 1 1) bus (flsR 0x90) 0x10000000#32 = true ∧
    reaches rec_ bus (rscR 0x84) 0x80000000#32 = true ∧ rec_.phase = 2 ∧ reaches up bus (flsR 0x88) 0x80000000#32 = true ∧
    takes up bus (wghR 0x80) 3600 = true ∧ up.floorsFit 4 0 3600 = true := by decide +kernel

theorem witness_BoardCommands_floor : takes up bus (wghR 0x80) 2400 = true ∧ up.floorsFit 4 0 2400 = false := by decide +kernel

/-! ### Hawser, BAR2 and channels -/

def hwS (f : Hwp → Hwp) : State := { up with hw := f up.hw }

theorem witness_HawserPackets :
    let h := hwS (fun h => { h with unacked := [(pairKey 0 9, [4])], hold := [(pairKey 0 9, [8, 9])] })
    up.hw.hold.find? (fun h => h.1 == pairKey 0 9) = none ∧ (up.routeOf 0 9).isSome = true ∧
    h.hw.hold.find? (fun h => h.1 == pairKey 0 9) = some (pairKey 0 9, [8, 9]) ∧ (mget [] h.hw.unacked (pairKey 0 9)).drop 1 = [] ∧
    up.hw.down = [] ∧ up.hw.rowFirst = [] := by decide +kernel

theorem witness_HawserLinkDown :
    let un := hwS (fun h => { h with unacked := [(pairKey 0 9, [4, 5])] })
    let down := hwS (fun h => { h with down := [0 * 4 + dirNum .e] })
    behind (0 * 4 + dirNum .e) ≠ none ∧ un.linkIsDown (0 * 4 + dirNum .e) = false ∧ (un.routeOf 0 9).isSome = true ∧
    behind (0 * 4 + dirNum .n) = none ∧ down.linkIsDown (0 * 4 + dirNum .e) = true := by decide +kernel

/-- Window 0 of port 0 maps the memory of tower 0 for reads and writes. -/
def win (s : State) : State := (s.setReg (prtR 0 0x80) 3).setReg (prtR 0 0x84) 0
def keyed (s : State) (k : KeyE) : State := s.modStall 0 (fun x => { x with keys := [k] })
def restricted : State := portUp (up.setFld (devR 0x98) 3 0 2) 0

/-- Every channel of tower 0 that holds device address 0x20 is in a retrain. -/
def training (s : State) : State := s.modChan 0 (s.phys 0 (s.loc 0x20).ch) (fun x => { x with attempt := 1 })

theorem witness_Bar2Read :
    let k := keyed (win served) ⟨0, 1, 2, 0, false, false⟩
    let behind : State := { win served with bar2 := [⟨0, 0x100, 0x40, 4, none⟩] }
    up.portMode 0 = .refuses ∧ restricted.portMode 0 = .restricted ∧ live.portMode 0 = .normal ∧ (live.reg (prtR 0 0x80)).getLsbD 0 = false ∧
    ((win served).reg (prtR 0 0x80)).getLsbD 0 = true ∧ (win served).daCheck 0 0x20 4 false = none ∧
    (win served).bar2Key 0 0x20 4 false = true ∧ (win live).daCheck 0 0x20 4 false ≠ none ∧ k.daCheck 0 0x20 4 false = none ∧
    k.bar2Key 0 0x20 4 false = false ∧ (∃ x ∈ behind.bar2, x.port = 0) ∧ behind.daCheck 0 0x20 4 false = none := by decide +kernel

theorem witness_Bar2Read_hit :
    let s := training (win served)
    (State.read0 4 { win served with hit := false } 0x20).2.hit = false ∧ (State.read0 4 { s with hit := false } 0x20).2.hit = true ∧
    s.daCheck 0 0x20 4 false = none ∧ s.bar2Key 0 0x20 4 false = true ∧ s.portMode 0 = .normal := by decide +kernel

theorem witness_Bar2Write :
    let k := keyed (win served) ⟨0, 1, 2, 0, false, false⟩
    let u (s : State) := ({ s with hit := false } : State).write0 (.bar2 0) 0x20 [(1, false), (2, false)]
    up.portMode 0 = .refuses ∧ restricted.portMode 0 = .restricted ∧ live.portMode 0 = .normal ∧ (live.reg (prtR 0 0x80)).getLsbD 0 = false ∧
    ((served.setReg (prtR 0 0x80) 1).reg (prtR 0 0x80)).getLsbD 1 = false ∧ (win served).daCheck 0 0x20 2 true = none ∧
    (win served).bar2Key 0 0x20 2 true = true ∧ (win live).daCheck 0 0x20 2 true ≠ none ∧ k.daCheck 0 0x20 2 true = none ∧
    k.bar2Key 0 0x20 2 true = false ∧ (u (win served)).hit = false ∧
    (({ win served with hit := false } : State).poisonUnits 0 0x20 2).hit = false := by decide +kernel

def chn (f : Chn → Chn) : State := up.modChan 0 0 f

theorem witness_ChannelCycle :
    let dead (n : Nat) : State := ((up.setFld (memR 0 0 0x14) 31 28 4).modTower 0 (fun x => { x with dstep := 1 })).modChan 0 0
      (fun x => { x with idle := n })
    let due := chn (fun x => ({ x with now := 1000 }).setBank 3 { x.bank 3 with due := true })
    let v := due.turned 0 0
    let y := v.chan 0 0
    (dead 5).chanWorks 0 0 = false ∧ ((dead 5).tower 0).dstep ≤ 7 ∧ ((dead 5).chan 0 0).idle + 1 < 1024 ∧
    ((dead 1023).chan 0 0).idle + 1 = 1024 ∧ ((dead 5).chan 0 0).now % 8 < ((dead 5).tower 0).dstep ∧
    due.chanWorks 0 0 = true ∧ y.refOrder.filter (fun b => v.refDue 0 0 b && !(y.bank b).bench) = [3] ∧ (y.bank 3).row = none ∧
    past y.now (y.bank 3).pre 14 = true ∧ past y.now (y.bank 3).ref 280 = true := by decide +kernel

def waitReq (k : ReqKind) : Req := ⟨k, 0, 32, [], false, 0, 5, 0, 0, false, none⟩

theorem witness_MemoryRequests :
    let after (s : State) : Chn := ((s.chan 0 (s.phys 0 (s.loc 0x20).ch)).flushLine (lineOf 0x20)).atomsDue (fun e => overlaps e.da 32 0x20 32)
    let w (k : ReqKind) := up.modChan 0 (up.phys 0 (up.loc 0x20).ch) (fun x => { x with wait := [waitReq k] })
    up.daLive 0x20 = true ∧ 0x20 % 32 = 0 ∧ 0x20 % 256 + 32 * 1 ≤ 256 ∧ (after up).wait = [] ∧ (after up).rq.length < 64 ∧
    (after up).nq.length < 32 ∧ (∃ r ∈ (after (w .read)).wait, r.kind = .read) ∧ (∃ r ∈ (after (w .narrow)).wait, r.kind = .narrow) ∧
    (w .read).daLive 0x20 = true ∧ (up.keyAt 0x20).isNone = true := by decide +kernel

def req (cw : List Byte) : Req := ⟨.read, 0, 32, cw.zipIdx.map (fun x => (x.2, x.1)), false, 0, 5, 0, 0, false, none⟩
def flight (cw : List Byte) : State := chn (fun x => { x with flight := [req cw] })
def zeros : List Byte := List.replicate 36 0

theorem witness_ReadReturns :
    let s := flight zeros
    let s1 : State := ({ s with hit := false } : State).modChan 0 0 (fun x => { x with flight := [] })
    let l := s1.loc 0
    (up.chan 0 0).flight = [] ∧ (s.chan 0 0).flight = [req zeros] ∧ (s.chan 0 0).attempt = 0 ∧ (req zeros).len = 32 ∧
    ((training up).chan 0 (up.phys 0 (up.loc 0x20).ch)).attempt ≠ 0 ∧
    (s1.keyAt 0).isNone = true ∧ (decodeUnit zeros).1 = .clean ∧ (decodeUnit (applyErrs zeros [(3, 7)])).1 = .corrected ∧
    (decodeUnit (applyErrs zeros [(3, 7), (9, 1)])).1 = .uncorrectable ∧ s1.rawUnit (unitKey 0 0 l.b l.row l.unit) = zeros ∧
    (decodeUnit (encodeUnit (List.replicate 32 0) true)).1 = .poisoned ∧ (s1.copyOf 0).isNone = true ∧
    ((s1.emit (.data 5 (zeros.drop 4) false)).integStops).hit = false := by decide +kernel

def mirS (m : MirRep) : State := up.modTower 0 (fun x => { x with mir := [m] })

theorem witness_MirrorRepair :
    let m (reading cancelled : Bool) : MirRep := ⟨0, 0x200000, 0, reading, cancelled⟩
    let e (s : State) : State := { s with hit := false }
    ((mirS (m true true)).tower 0).mir.find? (fun m => m.reading) = some (m true true) ∧
    ((mirS (m true false)).tower 0).mir.find? (fun m => m.reading) = some (m true false) ∧
    ((mirS (m true false)).tower (daTower 0x200000)).oos = false ∧
    (((mirS (m true false)).modTower 0 (fun x => { x with oos := true })).tower (daTower 0x200000)).oos = true ∧
    ((mirS (m false true)).tower 0).mir.find? (fun m => !m.reading) = some (m false true) ∧
    ((mirS (m false false)).tower 0).mir.find? (fun m => !m.reading) = some (m false false) ∧
    ((e (mirS (m true false))).unitRead 0x200000 []).2.1 = false ∧
    ((e (mirS (m true false))).unitRead 0x200000 [(3, 7), (9, 1)]).2.1 = true ∧
    (((e (mirS (m false false))).dropMir 0 0).unitRead 0 []).2.1 = false ∧
    (((e (mirS (m false false))).dropMir 0 0).unitRead 0 [(3, 7), (9, 1)]).2.1 = true ∧
    (up.tower 0).mir.find? (fun m => m.reading) = none ∧ (up.tower 0).mir.find? (fun m => !m.reading) = none := by decide +kernel

theorem witness_MirrorRepair_hit :
    let m : MirRep := ⟨0, 0x200000, 0, true, false⟩
    let r := ({ mirS m with hit := false } : State).unitRead 0x200000 []
    ((r.2.2.unitWrite 0 (r.2.2.recrypt 0x200000 0 r.1) false).modTower 0 (fun x => x)).hit = false ∧
    (({ training (mirS m) with hit := false } : State).unitWrite 0x20 [] false).hit = true := by decide +kernel

theorem witness_ChannelTimers :
    let w : Wcb := ⟨0, [(0, 1)], [], 0⟩
    let a (da at_ : Nat) : AtomE := ⟨da, .fp32, [(5, 1)], at_, 0, false, 0, false⟩
    let s (n : Nat) := chn (fun x => { x with now := n, wcb := [w], aq := [a 0 3, a 64 2] })
    let due := chn (fun x => { x with now := 2 ^ 30 })
    let held := due.modChan 0 0 (fun x => x.setBank 0 { x.bank 0 with bench := true })
    ((s 5000).chan 0 0).wcb = [w] ∧ w.at_ + 2000 ≤ ((s 5000).chan 0 0).now ∧ ((s 5).chan 0 0).now < w.at_ + 2000 ∧
    a 64 2 ∈ ((s 5000).chan 0 0).aq ∧ (∀ y ∈ ((s 5000).chan 0 0).aq, 2 ≤ y.at_) ∧
    (∀ y ∈ ((s 5000).chan 0 0).aq, y.at_ = 2 → y = a 64 2) ∧ (a 64 2).at_ + 1000 ≤ 5000 ∧ 5 < (a 64 2).at_ + 1000 ∧
    (({ s 5000 with hit := false } : State).settle 0).hit = false ∧
    (({ s 5000 with hit := false } : State).serveTo 0 0 (a 64 2).req).hit = false ∧
    ((due.chan 0 0).bank 0).ref + (((due.chan 0 0).bank 0).owed + 1) * due.trefi 0 0 ≤ (due.chan 0 0).now + 1 ∧
    ((due.chan 0 0).bank 0).bench = false ∧ ((held.chan 0 0).bank 0).bench = true ∧
    (chn (fun x => x) |>.chan 0 0).now + 1 < due.trefi 0 0 ∧ (up.chan 0 0).wcb = [] ∧ (up.chan 0 0).aq = [] := by decide +kernel

/-- The patrol scrubber of channel 0 may read: it is on and a period has passed. -/
def patrol : State := { up.setBit (memR 0 0 0x80) 9 true with time := 10 ^ 9 }
def patrolled : State := (({ patrol with hit := false } : State).modChan 0 0 (fun x => { x with patrolAt := patrol.time })).touch 0 0 0 5 false

theorem witness_ChannelTimers_patrol :
    patrol.chanWorks 0 0 = true ∧ patrol.bit (memR 0 0 0x80) 9 = true ∧ ((patrol.chan 0 0).bank 0).bench = false ∧
    (patrol.chan 0 0).patrolAt + patrol.patrolGap 0 0 ≤ patrol.time ∧ ((patrol.turned 0 0).normalCmd 0 0 false).isNone = true ∧
    (patrol.chan 0 0).now % 8 ≥ (patrol.tower 0).dstep ∧ (patrolled.physDa 0 0 0 5 7).isSome = true ∧
    (patrolled.eccRead 0 0 0 5 7 0 []).2.1 = false ∧ (patrolled.eccRead 0 0 0 5 7 0 [(3, 7), (9, 1)]).2.1 = true ∧
    (patrolled.eccRead 0 0 0 5 7 0 []).2.2.hit = false ∧ (up.setBit (memR 0 0 0x80) 9 false).bit (memR 0 0 0x80) 9 = false := by decide +kernel

theorem witness_ParityAndRetraining :
    let busy := chn (fun x => { x with retries := [0, 0, 0, 0, 0, 0, 0] })
    let forced (l : List Nat) := chn (fun x => { x with forced := true, forcedAt := l })
    let dead := up.setFld (memR 0 0 0x14) 31 28 4
    up.chanWorks 0 0 = true ∧ dead.chanWorks 0 0 = false ∧ (up.cycle 0 0).1.isNone = true ∧
    8 ≤ ((busy.time :: (busy.chan 0 0).retries).filter (fun r => decide (busy.time < r + 1000000))).length ∧
    ((up.time :: (up.chan 0 0).retries).filter (fun r => decide (up.time < r + 1000000))).length < 8 ∧
    ((forced []).chan 0 0).forced = true ∧ ((forced []).chan 0 0).attempt = 0 ∧ ((forced []).chan 0 0).engaged = false ∧
    (((forced []).time :: ((forced []).chan 0 0).forcedAt).filter (fun r => decide ((forced []).time < r + 10000000000))).length < 3 ∧
    (up.chan 0 0).forced = false ∧ ((chn (fun x => { x with attempt := 3 })).chan 0 0).attempt = 3 ∧
    ((chn (fun x => { x with attempt := 1 })).chan 0 0).attempt = 1 ∧ (up.chan 0 0).attempt = 0 := by decide +kernel

/-- A write of one unit waits in the queue of channel 0 with its row open, and a read is in flight. -/
def beat : State := chn (fun x => ({ x with
  now := 1000, dirW := true
  wq := [{ waitReq .write with data := (List.range 32).map (fun i => (i, 1)) }]
  flight := [req zeros] } : Chn).setBank (up.loc 0).b { x.bank (up.loc 0).b with row := some (up.loc 0).row })

theorem witness_ParityAndRetraining_beats :
    let k := (beat.cycle 0 0).1
    k.isSome = true ∧ (k.bind (fun k => (beat.cycle 0 0).2.writeBeat 0 0 k)).isSome = true ∧
    beatFails zeros [(3, 1)] 0 = true ∧ beatFails zeros [] 0 = false ∧ (beat.chan 0 0).flight = [req zeros] ∧
    (({ beat.modChan 0 0 (fun y => { y with flight := [] }) with hit := false } : State).readReturns 0 0 (req zeros) []).hit = false := by
  decide +kernel

/-! ### The bench, the queues and the engines -/

def runS (d : Desc) : State := up.modBench 0 (fun b =>
  { b with open_ := true, run := some d, rows := [⟨0, 3, 3⟩, ⟨5, 3, 3⟩], iter := 0 })
def fp32Run : Desc := dsc [0x01300000, 0, 0]

theorem witness_UnitOperations : (up.tower 0).bench.run = none ∧ ((runS fp32Run).tower 0).bench.run = some fp32Run ∧
    (⟨0, fp32Run, [], 0, 0⟩ : UCtx).isInt = false ∧
    (∀ op ∈ [0, 2, 3, 4, 5, 6, 7, 8, 9, 10, 11, 12, 13, 14, 15, 16, 17, 18, 19, 20, 21], uValid false (fset 0x00000020#32 31 27 op) = true) ∧
    uValid false (fset 0x00024000#32 31 27 1) = true ∧ uValid false (fset 0x003F0000#32 31 27 1) = false := by decide +kernel

theorem witness_UnitLaneResults :
    let c : UCtx := ⟨0, fp32Run, setBanks ((runS fp32Run).tower 0).bench.rows, 0, 0⟩
    ((runS fp32Run).tower 0).bench.run = some fp32Run ∧ (c.units.map (fun p => bkUnit p.1 p.2)).Nodup ∧ c.units ≠ [] ∧
    (∀ op ∈ [2, 4, 5, 6, 7, 18], uValid c.isInt (fset 0x00000020#32 31 27 op) = true ∧ uAsrc (fset 0x00000020#32 31 27 op) = 0 ∧
      uBsrc (fset 0x00000020#32 31 27 op) = 0 ∧ uMen (fset 0x00000020#32 31 27 op) = false) := by decide +kernel

/-- The state in which a bench descriptor begins on an open bench of the Tallyman's slot. -/
def bnUp : State := (up.modBench 0 (fun b => { b with open_ := true, slot := 64, sets := [(7, [⟨0, 3, 3⟩])] }))
def setloadD : Desc := dsc [0x01300000, 0x1D000000, 0, 0, 0, 0]
def bloadD (len : Nat) : Desc := dsc [0x01300000, 0x02000000, 3, 0, 0x40, 0, len]
def runD (set : Nat) : Desc := dsc [0x01300000, set * 2 ^ 26, 0, 0, 0, 0, 0, 0, 0x20210000]
/-- A set of two pairs of banks, as its list lies in memory at device address 0. -/
def setMem : State := bnUp.write0 .tally 0
  ((([2 * 65536 + 3, 0x00000003, 0x05000003] ++ List.replicate 29 0).flatMap (fun n => leBytes 4 n)).map (fun b => (b, false)))

theorem witness_BenchLoads_setload : (bnBegin setMem 0 setloadD).isSome = true ∧ dfld setloadD 1 25 24 = 1 ∧
    dfld setloadD 1 23 23 = 0 ∧ dfld setloadD 1 21 0 = 0 ∧ dzero setloadD 2 3 = true ∧ dzero setloadD 6 15 = true ∧
    (let u := (bnBegin setMem 0 setloadD).getD up
     let r := u.load ((u.bnActor 0).who false) 0 128
     u.bnMem 0 (d64 setloadD 4) 128 = true ∧ r.2.1 = .ok ∧ r.1.any (·.2) = false ∧ r.2.2.hit = false ∧
     (match parseSet (wordsOf 32 (r.1.map (·.1))) with | some es => decide (es.length ≤ r.2.2.maxBanks 0) | none => false) = true) := by
  decide +kernel

/-- A list of zeros is no set; and an address in the shelf of another aisle is none of a bench queue's. -/
theorem witness_BenchLoads_refused :
    (let u := (bnBegin bnUp 0 setloadD).getD up
     parseSet (wordsOf 32 ((u.load ((u.bnActor 0).who false) 0 128).1.map (·.1))) = none) ∧
    dfld (dsc [0x01300000, 0x1D000001]) 1 21 0 ≠ 0 ∧ (bnBegin bnUp 0 (dsc [0x01300000, 0x1D000001])).isSome = true := by decide +kernel

theorem witness_BenchLoads_bload : (bnBegin bnUp 0 (bloadD 64)).isSome = true ∧ dfld (bloadD 64) 1 25 24 = 2 ∧
    dfld (bloadD 64) 1 31 26 = 0 ∧ dfld (bloadD 64) 1 21 0 = 0 ∧ dfld (bloadD 64) 2 31 11 = 0 ∧ dzero (bloadD 64) 3 3 = true ∧
    dzero (bloadD 64) 7 15 = true ∧
    (let u := (bnBegin bnUp 0 (bloadD 64)).getD up
     u.bnMem 0 (d64 (bloadD 64) 4) 64 = true ∧ (u.load ((u.bnActor 0).who false) 0x40 64).2.1 = .ok ∧
     (u.load ((u.bnActor 0).who false) 0x40 64).2.2.hit = false) ∧
    (bnBegin bnUp 0 (bloadD 63)).isSome = true ∧ (dw (bloadD 63) 6).toNat % 32 ≠ 0 := by decide +kernel

theorem witness_BenchRuns :
    let few := bnUp.modTower 0 (fun x => { x with effBanks := 0 })
    let block := bnUp.modChan 0 (bnUp.bkChan 0 (⟨0, 3, 3⟩, 0)) (fun x => { x with attempt := 1 })
    let es : List SetE := [⟨0, 3, 3⟩]
    let u (s : State) (n : Nat) := (bnBegin s 0 (runD n)).getD up
    (bnBegin bnUp 0 (runD 7)).isSome = true ∧ dfld (runD 7) 1 25 24 = 0 ∧ runBad (runD 7) = false ∧
    mget [] ((u bnUp 7).tower 0).bench.sets 7 = es ∧ es.length ≤ (u bnUp 7).maxBanks 0 ∧
    tCmd ((u bnUp 7).actWin 0) es (runD 7) ≤ 1500 ∧ outSize es (runD 7) = 0 ∧ es.length ≤ ((u bnUp 7).tower 0).effBanks ∧
    ((u bnUp 7).tower 0).bench.wait = none ∧ (u bnUp 7).setBlocked 0 es = false ∧
    (bnBegin few 0 (runD 7)).isSome = true ∧ ((u few 7).tower 0).effBanks < es.length ∧
    (bnBegin block 0 (runD 7)).isSome = true ∧ (u block 7).setBlocked 0 es = true ∧
    (bnBegin bnUp 0 (runD 9)).isSome = true ∧ mget [] ((u bnUp 9).tower 0).bench.sets 9 = [] := by decide +kernel

theorem witness_BenchRuns_complete :
    let next := dsc [0x01300000, 7 * 2 ^ 26]
    let chained := ((runS fp32Run).modBench 0 (fun b => { b with slot := 64, sets := [(7, b.rows)] }))
    ((runS fp32Run).tower 0).bench.run = some fp32Run ∧ (runS fp32Run).chains 0 fp32Run = false ∧
    dbit fp32Run 1 23 = false ∧ (up.tower 0).bench.run = none ∧ (chained.tower 0).bench.run = some fp32Run ∧ dfld next 1 25 24 = 0 ∧
    (setBanks ((runS fp32Run).tower 0).bench.rows).any (fun k =>
      decide (4 ≤ (((runS fp32Run).chan 0 ((runS fp32Run).bkChan 0 k)).bank (bkB k)).owed)) = false := by decide +kernel

def q0 : QueueId := ⟨⟨0, 0, 0⟩, .vx⟩
def k0 : Nat := qKey q0
def c0 : CoreId := ⟨0, 0, 0⟩
def w0 (fam : Nat) : Nat := 0x01000000 + fam * 2 ^ 20
def fence : Desc := dsc [w0 5, 0x18000000]
def wait_ (n : Nat) : Desc := dsc [w0 5, 0x20060000 + n, 9]
def post : Desc := dsc [w0 5, 0x30060007]
def stamp : Desc := dsc [w0 5, 0x40000000, 0, 64, 0]
/-- The Tallyman serves queue 0, or a host list does. -/
def semS : State := (inst up).setSem 0 64 3 5
def expS : State := (({ inst up with subs := [(1, ⟨0, 65, 0, false, true, 0, 0, [(k0, { QSt.reset with st := 1, n := 1, descs := [dsc [w0 6]] })], 1, 0, none, 0, true⟩)] } : State).modAisle
  0 (fun a => { a with cur := some 1 })).qSet k0 { QSt.reset with st := 1, n := 1, descs := [dsc [w0 6]] }
def held_ (st : Nat) (go : Bool) (d : Desc) : State := (inst up).qSet k0 { QSt.reset with st := st, go := go, cur := some d }

theorem witness_QueueHeads : q0.k ≠ .bn ∧ dfld (wait_ 5) 1 31 28 = 2 ∧ dfld fence 1 31 28 = 1 ∧
    dfld (dsc [w0 5, 0x50000000]) 1 31 28 = 5 ∧
    bads (headOf (inst up) k0 5 false (dsc [w0 5, 0x50000000])) = true ∧
    refuses (headOf (inst up) k0 5 true (dsc [0x21500000, 0x10000000])) = true ∧
    waits (headOf (inst up) k0 5 true (dsc [0x01580000, 0x10060009])) = true ∧
    waits (headOf (inst up) k0 5 true (dsc [0x01580000, 0x20060009])) = true ∧
    ((runS fp32Run).tower 0).bench.run ≠ none := by decide +kernel

theorem witness_SyncCommands : begins semS k0 5 fence = true ∧ syBad 1 fence = false ∧ dfld fence 1 31 28 = 1 ∧
    begins semS k0 5 (wait_ 5) = true ∧ syBad 2 (wait_ 5) = false ∧
    5 ≤ (begun semS k0 5 (wait_ 5)).sem 0 ((begun semS k0 5 (wait_ 5)).actor k0).slot 3 ∧
    (begun semS k0 5 (wait_ 5)).semWaiters 0 64 3 = [] ∧ (begun semS k0 5 (wait_ 6)).sem 0 64 3 < 6 ∧
    begins semS k0 5 post = true ∧ syBad 3 post = false ∧ 0 ∈ (begun semS k0 5 post).towersOf 0 ∧
    begins semS k0 5 stamp = true ∧ syBad 4 stamp = false ∧ (begun semS k0 5 stamp).stallMem 0 64 8 = true ∧
    (begun semS k0 5 stamp).wayOk ((begun semS k0 5 stamp).actor k0) 64 8 = true := by decide +kernel

theorem witness_SyncCommands_st : begins semS k0 6 (dsc [w0 6, 0x10000000]) = true ∧
    ((begun semS k0 6 (dsc [w0 6, 0x10000000])).actor k0).expert = false ∧ dfld (dsc [w0 6]) 1 31 28 = 0 ∧
    (rowBegin semS k0 6 (fun v => !(v.actor k0).expert) (dsc [w0 6])).isSome = true ∧
    bads (({ expS with hit := false } : State).head k0 6 (fun v => !(v.actor k0).expert) (dsc [w0 6])) = true ∧
    (expS.actor k0).expert = true := by decide +kernel

theorem witness_QueueEvents :
    let sub (slot : Nat) : Sub := ⟨0, slot, 0, true, false, 0, 0, [], 1, 0, none, 0, true⟩
    let two (n : Nat) : State := { expS with time := n, subs := [(1, sub 65), (2, sub 66)] }
    let y := ((two 0).served 0).map (·.2)
    let hostwr : Desc := dsc [w0 4, 0x60000000]
    (two 0).waitersOf 0 ≠ [] ∧ y = some (sub 65) ∧
    ((two (10 ^ 9)).aisle 0).since + ((two 0).fld (stlR 0 0x88) 31 24 * 1000 - mget 0 ((two 0).aisle 0).charge 65) ≤ 10 ^ 9 ∧
    0 < ((two 0).aisle 0).since + ((two 0).fld (stlR 0 0x88) 31 24 * 1000 - mget 0 ((two 0).aisle 0).charge 65) ∧
    ((held_ 1 false fence).qGet k0).cur = some fence ∧ ((held_ 1 false fence).qGet k0).executing = true ∧
    (held_ 1 false fence).readsOut k0 = false ∧ ((held_ 2 true (wait_ 5)).qGet k0).st = 2 ∧ ((held_ 2 false (wait_ 5)).qGet k0).go = false ∧
    ((held_ 2 true (wait_ 5)).qGet k0).executing = false ∧ dfld hostwr 0 23 20 = 4 ∧ dfld hostwr 1 31 28 = 6 ∧
    ((inst up).qGet k0).cur = none ∧ (up.served 0).isSome = false ∧ up.waitersOf 0 = [] := by decide +kernel

/-- A FENCE in execution on the bench queue of tower 0. -/
def bnHeld : State := up.qSet (bnKey 0) { QSt.reset with st := 1, cur := some fence }

theorem witness_QueueEvents_bench : (bnHeld.qGet (bnKey 0)).executing = true ∧ bnHeld.readsOut (bnKey 0) = false ∧
    (bnHeld.tower 0).bench.run = none ∧ (bnHeld.tower 0).bench.wait = none ∧ (bnHeld.actor (bnKey 0)).sub = none ∧
    ((bnHeld.modBench 0 (fun b => { b with run := some fp32Run })).tower 0).bench.run ≠ none := by decide +kernel

/-- Format 0 is a plain INT8 tensor, format 1 an INT8 quantisation point. -/
def fmts (s : State) : State := (s.setFld (stlR 0 0x208) 15 0 2).modStall 0 (fun x => { x with
  fmts := [(0, ⟨[0x50000000#32, 0, 0, 0, 0, 0, 0, 0], [], false⟩), (1, ⟨[0x50800000#32, 0, 0, 0, 0, 0, 0, 0], [], false⟩)] })
def mxS : State := fmts (inst up)
def mx (w1 w2 w4 : Nat) : Desc := dsc [w0 1, w1, w2, 0, w4, 0, 0, 16384, 0, 0x400, 64]
def mxK : Nat := qKey ⟨c0, .mx⟩

theorem witness_MatrixCommand :
    let d := mx 0x00400003 0 0
    let may (s : State) : Option State := rowBegin s mxK 1 (fun v => v.mxMay c0 d) d
    let u := (may mxS).getD up
    let keyed : State := mxS.modStall 0 (fun x => { x with keys := [⟨0, 10, 1, 0, false, false⟩] })
    let busy := mxS.qSet (qKey ⟨c0, .vx⟩) { QSt.reset with st := 1, cur := some (dsc [w0 2, 0x04000003]) }
    (may mxS).isSome = true ∧ (u.mxFormats mxK c0 d).isSome = true ∧
    u.tilesBusy mxK d = false ∧ (u.keyBad ((u.actor mxK).who true) false 0 1024).isNone = true ∧
    bads (({ mxS with hit := false } : State).head mxK 1 (fun v => v.mxMay c0 (mx 3 9 0)) (mx 3 9 0)) = true ∧
    refuses (({ mxS with hit := false } : State).head mxK 1 (fun v => v.mxMay c0 d) (dput d 0 31 24 2)) = true ∧
    (may busy).isSome = true ∧ ((may busy).getD up).tilesBusy mxK d = true ∧ (may keyed).isSome = true ∧
    (((may keyed).getD up).keyBad ((((may keyed).getD up).actor mxK).who true) false 0 1024).isSome = true := by decide +kernel

def vxK : Nat := qKey ⟨c0, .vx⟩
/-- Tiles 1 and 2 of core 0 hold FP32. -/
def vxS : State := (fmts (inst up)).modCore 0 (fun x => (x.setFp 1 true).setFp 2 true)
def vx (op w1 w2 : Nat) (l : List Nat) : Desc := dsc ([w0 2, op * 2 ^ 26 + 16 + w1, w2] ++ l)
def vxDescs : List Desc :=
  [dsc [w0 2, 0, 0], vx 4 3 0x12100000 []] ++ [1, 2, 3, 5, 6, 7].map (fun o => vx o 3 0x12000000 []) ++
  [8, 9, 10, 11, 12].map (fun o => vx o 0x2000 0x12000000 []) ++ [vx 13 0x2000 0x10000000 []] ++
  [0xE, 0xF, 0x10, 0x11].map (fun o => vx o 3 0x10000000 []) ++
  [vx 0x12 3 0x10000300 [], vx 0x13 3 0 [0, 0, 0, 0x400], vx 0x14 0 0x10000000 [0, 0, 0, 0, 0, 0, 0x400, 256, 1024],
   vx 0x15 3 0x10000000 [0, 0, 0, 0x400, 0, 0, 0, 0, 0, 0, 0, 1], vx 0x16 3 0x10000000 [],
   vx 0x17 0 0x10000000 [0, 0, 0, 0, 0, 0, 0x400, 0, 64], vx 0x18 0 0x10000000 [0, 0, 0, 0, 0, 0, 0x400, 0, 64],
   vx 0x19 0 0x10000000 [0, 0, 0, 0, 0, 0, 0x400, 8, 16], vx 0x1A 0 0x10000000 [0, 0, 0, 0, 0, 0, 0x400, 8, 16],
   vx 0x1B 0 0x10000000 [0, 0, 0, 0, 0, 0, 0x400, 8, 16, 4096, 0x400],
   vx 0x1C 0 0 [0, 0, 0, 0, 0, 0, 0x400, 8, 16, 4096, 0x400, 1],
   vx 0x1D 0 0x10000000 [0, 0, 0, 0x400, 0, 0, 0x400, 64, 128, 4096, 0x400, 0x10000]]
def vxBegins (s : State) (d : Desc) : Bool :=
  match rowBegin s vxK 2 (fun v => v.vxOk ⟨vxK, c0, d⟩) d with
  | some u => !u.tilesBusy vxK d
  | none => false

theorem witness_VectorOperations_rows :
    (List.range 0x1E).all (fun o => (vxDescs.map (fun d => dfld d 1 31 26)).contains o) = true := by decide +kernel
theorem witness_VectorOperations : (vxDescs.take 16).all (vxBegins vxS) = true := by decide +kernel
theorem witness_VectorOperations_more : (vxDescs.drop 16).all (vxBegins vxS) = true := by decide +kernel

theorem witness_VectorOperations_refused :
    let d := vx 1 3 0x12000000 []
    let bad := vx 1 3 0x12000001 []
    let busy := vxS.qSet mxK { QSt.reset with st := 1, cur := some (mx 0x00400003 0 0) }
    bads (({ vxS with hit := false } : State).head vxK 2 (fun v => v.vxOk ⟨vxK, c0, bad⟩) bad) = true ∧ (⟨vxK, c0, bad⟩ : VxC).op = 1 ∧
    (match rowBegin busy vxK 2 (fun v => v.vxOk ⟨vxK, c0, d⟩) d with | some u => u.tilesBusy vxK d | none => false) = true := by decide +kernel

theorem witness_VectorElementResults : let c : VxC := ⟨vxK, c0, vx 1 3 0x12000000 []⟩
    c.nt = 1 ∧ c.men = false ∧ c.asrc = 0 ∧ c.bsrc = 0 ∧ c.op ≠ 4 ∧ c.rows = 2 ∧ c.td 0 = 3 := by decide +kernel

def mvK : Nat := qKey ⟨c0, .mv⟩
def mv (kind dhi len max : Nat) : Desc := dsc [w0 4, kind * 2 ^ 28, 0, 1024, 0x400, 64, 0, dhi, 64, len, max, 0x12345678]

theorem witness_MoverCommands : (∀ kind ∈ [1, 2, 3, 4, 5, 6], dfld (mv kind 0x400 64 4096) 1 31 28 = kind ∧
      (rowBegin (inst up) mvK 4 (fun _ => (⟨mvK, c0, mv kind 0x400 64 4096⟩ : MvC).ok) (mv kind 0x400 64 4096)).isSome = true) ∧
    begins (inst up) mvK 4 (mv 8 0x400 64 4096) = true ∧ dfld (mv 8 0x400 64 4096) 1 31 28 = 8 ∧
    bads (({ inst up with hit := false } : State).head mvK 4 (fun _ => (⟨mvK, c0, mv 1 0x400 0 0⟩ : MvC).ok) (mv 1 0x400 0 0)) = true ∧
    (let u := begun (inst up) mvK 4 (mv 3 0x400 64 4096)
     let c : MvC := ⟨mvK, c0, mv 3 0x400 64 4096⟩
     c.rows = 1 ∧ c.dmap = false ∧ c.len ≤ c.dstMax ∧ u.engineMem (u.actor mvK) c0 c.dst c.len = true ∧
     u.engineMem (u.actor mvK) c0 (3 * 2 ^ 42) 64 = false ∧ (⟨mvK, c0, mv 3 0x400 64 32⟩ : MvC).dstMax < 64) := by decide +kernel

/-! ### Ports, serving and steps -/

def trains : State := (up.modPort 0 (fun x => { x with perst := false })).setFld (mgtR 0x84) 7 4 6

theorem witness_PortEvents : live.linkUpNow 0 = true ∧ up.linkUpNow 0 = false ∧ (live.port 0).perst = false ∧ live.present 0 = true ∧
    4 ≤ live.rst.ev ∧ (up.port 0).perst = true ∧ ((live.modPort 0 (fun x => { x with isolating := true })).port 0).isolating = true ∧
    (live.port 0).isolating = false ∧ (live.modRst (fun x => { x with ev := 3 })).present 0 = true := by decide +kernel

theorem witness_PortRequests : trains.mayTrain 0 6 4 true = true ∧ trains.fld (mgtR 0x84) 7 4 = 6 ∧ trains.lanes = 4 ∧
    trains.mayTrain 0 5 4 true = true ∧ up.mayTrain 0 5 16 true = false ∧ live.linkUpNow 0 = true ∧ (live.port 0).perst = false ∧
    (portUp up 0).portReady 0 = false ∧ live.portReady 0 = true ∧ (live.port 0).flr = false ∧ (live.port 0).isolating = false ∧
    (0x8000#32).getLsbD 15 = true := by decide +kernel

theorem witness_PortRequests_wakes :
    let hot := live.setCfg 0 17 3
    let w := (hot.cfg 0 17 &&& ~~~cfgMask 17) ||| (0 &&& cfgMask 17)
    (hot.cfg 0 17).extractLsb' 0 2 = 3#2 ∧ w.extractLsb' 0 2 = 0#2 ∧ hot.portReady 0 = true ∧ hot.linkUpNow 0 = true ∧
    (live.cfg 0 17).extractLsb' 0 2 ≠ 3#2 := by decide +kernel

def rec0 (type : Nat) (rest : List Nat) : Desc := dsc ([type * 2 ^ 24 + 2 ^ 16, 1, 0x77, 0, 5] ++ rest)
def ses0 (sid : Nat) (be : Bool) : Ses :=
  newSes 0 ⟨0, 0, dsc [0x01010000, 1, 0x77, 0, sid, (if be then 2 ^ 31 else 0) + 100], 5, 0⟩ 0 9 sid
/-- Pair 0 of port 0 is on and serves context 1 of stall 0, which is open. -/
def rung (s : State) : State :=
  (((s.setReg (stlR 0 0x408) 0x80000001#32).setReg (stlR 0 0x40C) 0x10000000#32).setReg (rngR 0 0) 0x80000000#32)
def withSes (s : State) (l : List Ses) : State := { s with ses := l }
def stepNo (n : Nat) : State := withSes ((rung (inst live)).setReg (stlR 0 0xC0) (BitVec.ofNat 32 n)) [{ ses0 5 false with st := .idle }]

theorem witness_HostReadsAndRings :
    let rd : State := { live with hostRds := [⟨0, 7, 4, .toks 1 5 0, 0⟩] }
    let held : State := { (rung live).modRing 0 (fun x => { x with held := [rec0 0x11 []] }) with time := 10 ^ 12 }
    let idle := 1000 * held.fld (stlR 0 0x104) 31 16
    let unsig (n : Nat) : State := { live.modRing 0 (fun x => { x with unsig := 3 }) with time := n }
    (rd.findRead 0 7).isSome = true ∧ live.findRead 0 7 = none ∧ held.inStep (held.ringStall 0) = false ∧ (held.ring 0).held ≠ [] ∧
    held.ringStall 0 = 0 ∧ (held.stall 0).idleAt + idle ≤ held.time ∧ (held.ring 0).consAt + idle ≤ held.time ∧
    (live.ring 0).held = [] ∧ (live.ring 0).lost = 0 ∧ ((unsig 0).ring 0).unsig ≠ 0 ∧
    ((unsig (10 ^ 9)).ring 0).unsigAt + 1000 * (unsig (10 ^ 9)).fld (rngR 0 0x34) 31 16 ≤ (unsig (10 ^ 9)).time ∧
    (unsig 0).time < ((unsig 0).ring 0).unsigAt + 1000 * (unsig 0).fld (rngR 0 0x34) 31 16 ∧ (live.ring 0).unsig = 0 := by decide +kernel

theorem witness_HostReadsAndRings_vectors :
    let on := live.setCfg 0 20 0x80000000#32
    let pend : State := { on with rf := { on.rf with vecPend := [5], vecOpen := [5] } }
    live.portMode 0 = .normal ∧ up.portMode 0 ≠ .normal ∧ smem live.rf.vecPend 5 = false ∧ pend.portMode 0 = .normal ∧
    smem pend.rf.vecPend 5 = true ∧ pend.vecLive 0 5 = true ∧ live.vecLive 0 5 = false := by decide +kernel

theorem witness_HostReadsAndRings_steps :
    ((stepNo 5).ses.find? (fun (x : Ses) => x.home == 0 && x.ledg == 0 && (x.st == .idle || x.st == .parked))).isSome = true ∧
    2 ^ 30 ≤ ((stepNo (2 ^ 31)).reg (stlR 0 0xC0) - (ses0 5 false).cstep).toNat ∧
    ((stepNo 5).reg (stlR 0 0xC0) - (ses0 5 false).cstep).toNat < 2 ^ 30 := by decide +kernel

theorem witness_RepairAndScrub_repair :
    let r (rows redo next : Nat) : Repair := ⟨5, 5, rows, [], redo, false, next⟩
    let s (rows redo next : Nat) := up.modTower 0 (fun x => { x with repair := some (r rows redo next) })
    (up.tower 0).repair = none ∧ ((s 0 0 0).tower 0).repair = some (r 0 0 0) ∧ (s 0 0 0).chanWorks 0 5 = true ∧
    (r 0 0 0).next ≤ ((s 0 0 0).chan 0 5).now ∧ ((s 0 0 1).chan 0 5).now < (r 0 0 1).next ∧ 0 < 256 * (up.setReg (twrR 0 0x80) 0x102#32).gib 0 ∧
    (r (2 ^ 21) 1 0).rows = 2 ^ 21 ∧ 0 < (r (2 ^ 21) 1 0).redo ∧ (r (2 ^ 21) 0 0).redo = 0 := by decide +kernel

theorem witness_RepairAndScrub_run :
    let free := up.setFld (memR 0 0 0x14) 31 28 3
    let w := (free.setReg (memR 0 0 0x100) 0x20000001#32).setReg (memR 0 0 0x108) 2#32
    let gone := up.setReg (memR 0 0 0x100) 1#32
    (up.reg (memR 0 0 0x100)).getLsbD 0 = false ∧ (gone.reg (memR 0 0 0x100)).getLsbD 0 = true ∧ gone.tgAllowed 0 0 = false ∧
    (w.reg (memR 0 0 0x100)).getLsbD 0 = true ∧ w.tgAllowed 0 0 = true ∧ (w.reg (memR 0 0 0x100)).extractLsb' 28 2 = 2#2 ∧
    (w.chan 0 0).tgStop = false := by decide +kernel

theorem witness_RepairAndScrub_scrub :
    let may := ((up.setReg (twrR 0 0x80) 0x102#32).setSstate 0 2).modTower 0 (fun x => { x with built := true, frm := [(1, 1), (3, 1)] })
    let on := may.modTower 0 (fun x => { x with scrub := [1] })
    (may.stall (may.stallOf 0)).part = 0 ∧ (may.tower 0).bench.open_ = false ∧ (may.tower 0).bench.run = none ∧
    (may.tower 0).scrub = [] ∧ (may.tower 0).oos = false ∧ (may.tower 0).built = true ∧ may.sstate 0 = 2 ∧ (up.tower 0).built = false ∧
    frmState (may.frm 0 1) = 1 ∧ 1 < may.frames 0 / 128 * 128 ∧ 2 ≤ may.fld (bsqR 0 0x80) 15 8 ∧
    up.scrubSets 0 (up.tower 0).scrub = [] ∧ on.scrubSets 0 (on.tower 0).scrub ≠ [] := by decide +kernel

def part (n : Nat) : State := (inst live).modStall 0 (fun x => { x with part := n })

theorem witness_StepOrder :
    let quarter := (part 0).setFld (devR 0xD0) 1 0 2
    let due : State := { quarter with time := 10 ^ 12 }
    quarter.mayStep 0 = true ∧ (part 1).mayStep 0 = false ∧ ((part 1).stall 0).part ≠ 2 ∧ due.mayStep 0 = true ∧
    (due.stall 0).idleAt + 1000 * due.fld (stlR 0 0x104) 31 16 ≤ due.time ∧
    (part 0).time < ((part 0).stall 0).idleAt + 1000 * ((part 0).setReg (stlR 0 0x104) 0x00050000#32).fld (stlR 0 0x104) 31 16 ∧
    (part 1).mayEmit 0 = false ∧ (part 3).inStep 0 = true ∧ ((part 4).stall 0).layer ≠ 7 ∧
    (((part 3).modStall 0 (fun x => { x with histNext := true })).histDue 0) = true ∧ (part 0).inStep 0 = false := by decide +kernel

theorem witness_StepParts :
    let halt := (part 1).setBit (stlR 0 0x280) 24 true
    let layered := (part 4).setReg (stlR 0 0x20C) 20#32
    let done := (part 4).modStall 0 (fun x => { x with layer := (part 4).layers 0 })
    (halt.stall 0).part = 1 ∧ (halt.stall 0).taken = [] ∧ halt.expertMode 0 = false ∧ halt.halted 0 = true ∧ halt.sesOf 0 = [] ∧
    ((part 2).stall 0).part = 2 ∧ (part 2).halted 0 = false ∧ (part 2).expertMode 0 = false ∧ (part 3).hostRds = [] ∧
    (∀ y ∈ (part 3).sesOf 0, y.inStep = false) ∧ (part 3).benchBusy 0 = false ∧ (layered.stall 0).part = 4 ∧
    (layered.stall 0).layer = 0 ∧ 0 < layered.layers 0 ∧ layered.quantising 0 = false ∧ layered.benchBusy 0 = false ∧
    (done.stall 0).part = 4 ∧ done.layers 0 ≤ (done.stall 0).layer ∧ done.enginesBusy 0 = false ∧
    ((part 5).stall 0).part = 5 ∧ (part 6).mayEmit 0 = true ∧ ((part 7).stall 0).part = 7 ∧ ((part 8).stall 0).part = 8 := by decide +kernel

theorem witness_StepParts_run :
    let e (n : Nat) : State := { part n with hit := false }
    ((e 1).admitStage 0).hit = false ∧ ((e 2).allocate 0).hit = false ∧ ((e 3).runLayers 0 []).hit = false ∧ ((e 4).verify 0).hit = false ∧
    ((e 7).freeStep 0).hit = false := by decide +kernel

/-- Sessions of SID 5, 6 and 7 that are idle, waiting and active. -/
def three : State := withSes (rung (inst live))
  [{ ses0 5 false with st := .idle }, { ses0 6 true with st := .wait, slot := 1 },
   { ses0 7 true with st := .active, act := some (mkRq (ses0 7 true) (rec0 2 [0x10005, 0, 0, 0, 0, 42]) 5 0), slot := 3 }]
def bySid (sid : Nat) : Option Ses := three.findSes 1 (BitVec.ofNat 32 sid)

theorem witness_IntakeRecords : (three.stall 0).taken = [] ∧ three.ringStall 0 = 0 ∧
    [1, 2, 3, 4, 5, 6].all (fun type => (three.headerError 0 (rec0 type [])).isNone) = true ∧ (three.headerError 0 (rec0 16 [])).isSome = true ∧
    ((three.setBit (stlR 0 0x100) 0 true).headerError 0 (rec0 16 [])) = none ∧
    [rec0 2 [0x10001, 0, 0, 0, 0, 42], rec0 3 [0x10000, 0, 0, 0, 0, 42], rec0 4 [0x20000003, 7], rec0 5 [5], rec0 6 [0]].all
      (fun r => (badField r).isNone) = true ∧ (badField (rec0 2 [0])).isSome = true ∧ (badField (rec0 5 [5, 1])).isSome = true := by decide +kernel

theorem witness_IntakeRecords_sessions : (bySid 9).isNone = true ∧
    (bySid 5).any (fun x => x.st == .idle && x.ending.isNone && !x.full && x.queue.isEmpty && x.act.isNone) = true ∧
    (bySid 6).any (fun x => x.st == .wait && x.ending.isNone) = true ∧
    (bySid 7).any (fun x => x.st == .active && x.ending.isNone && x.act.isSome && x.cancel.isNone) = true := by decide +kernel

theorem witness_ServingEvents :
    let b := (rung (part 1)).modTower 0 (fun x => { x with built := true })
    let old : Ses := { ses0 5 true with st := .wait, waited := 50000 }
    let lc : Ses := { ses0 7 false with st := .wait, slot := 2, waited := 50000 }
    let pk : Ses := { ses0 8 true with st := .parked, slot := 3, parkedFor := 50000, pages := 1 }
    let squeeze := withSes b [lc, pk]
    16 * b.fld (stlR 0 0x240) 23 16 ≤ old.waited ∧ (withSes b [old]).findSes 1 5 = some old ∧ old.ending = none ∧
    squeeze.oldestLc 0 = some lc ∧ (squeeze.squeezed 0).isSome = true ∧ b.fld (stlR 0 0x244) 31 24 ≤ lc.waited ∧
    squeeze.halted 0 = false ∧ squeeze.homeFor lc = none ∧ (squeeze.stall 0).part ≤ 2 ∧ b.oldestLc 0 = none ∧
    b.fld (stlR 0 0x244) 23 16 ≤ pk.parkedFor ∧ (withSes b [pk]).blocked pk = false ∧ b.stallOf 0 = 0 := by decide +kernel

theorem witness_ServingEvents_stall :
    let r (n : Nat) := (part 0).modStall 0 (fun x => { x with resetOn := true, resets := n })
    let c := (part 0).modStall 0 (fun x => { x with checking := true })
    let g := (part 0).modStall 0 (fun x => { x with reconfOn := true })
    ((r 0).stall 0).resetOn = true ∧ ((r 0).stall 0).integ = false ∧ ((r 0).stall 0).resets < (r 0).fld (stlR 0 0x88) 10 8 ∧
    (r 0).fld (stlR 0 0x88) 10 8 ≤ ((r 7).stall 0).resets ∧ (part 0).atBoundary 0 = true ∧ (part 3).atBoundary 0 = false ∧
    (g.stall 0).reconfOn = true ∧ g.partnOn = false ∧ (c.stall 0).checking = true ∧ c.checkSet 0 = [] := by decide +kernel

/-! ### The management bus -/

def eidS : State := up.setReg (mgtR 0x8C) 0x80090820#32
def peer : MsgSrc := ⟨9, 8, 0, true⟩
/-- A packet of sequence number seq to EID 20h. -/
def pkt (head seq : Nat) : List Byte := [1, 0x20, 8, BitVec.ofNat 8 (head + seq * 16 + 8), 0x7E, 1]
def asmS : State := { eidS with mgt := { eidS.mgt with asm := [⟨⟨.bus, peer⟩, 1, [0x7E, 1], 0⟩] } }
def rsp (n : Nat) : Rsp := ⟨.bus, peer, none, [1, 2], n, none⟩
def outS (n : Nat) : State := { eidS with mgt := { eidS.mgt with out := [rsp n] } }

theorem witness_BusModes : up.busUp = true ∧ up.fld (mgtR 0x88) 14 8 = 0 ∧ State.reset.busUp = false ∧
    (up.setFld (mgtR 0x88) 14 8 16).fld (mgtR 0x88) 14 8 ≠ 0 ∧ up.mgt.i3c = false ∧ 3 ≤ up.rst.ev := by decide +kernel

theorem witness_MctpPackets : eidS.mediumUp .bus = true ∧ eidS.eid .bus = some 0x20 ∧ 5 ≤ (pkt 192 1).length ∧ up.eid .bus ≠ some 0x20 ∧
    eidS.mgt.asm = [] ∧ asmS.mgt.asm.find? (fun a => a.of .bus peer) = some ⟨⟨.bus, peer⟩, 1, [0x7E, 1], 0⟩ ∧
    (outS 0).mgt.out.find? (fun r => r.m == .bus && r.backoff.isNone) = some (rsp 0) ∧ (outS 0).mediumUp .bus = true ∧
    3 ≤ (rsp 3).tries ∧ (rsp 0).tries < 3 ∧ up.mgt.out = [] := by decide +kernel

theorem witness_ManagementMessages : eidS.mediumUp .bus = true ∧ (eidS.rate peer [0]).1 = true ∧ eidS.eid .bus ≠ none ∧
    ((eidS.rate peer [0]).2).allowed peer = true ∧ (0x80 % 4 = 0) := by decide +kernel

def conn (stage : Nat) (n : Option Nat) : State :=
  { eidS with mgt := { eidS.mgt with spdm := [⟨.bus, 9, 8, stage, 0x13, n, n.isSome, 0, none, none, 0⟩] } }

theorem witness_SpdmRequests : (conn 5 (some 7)).session .bus peer = some (7#32).toNat ∧ ((conn 5 (some 7)).rate peer [0]).1 = true ∧
    (conn 5 (some 7)).mediumUp .bus = true ∧ (conn 5 (some 7)).eid .bus ≠ none ∧ (conn 3 none).session .bus peer = none ∧
    (((eidS.rate peer [0]).2).conn .bus peer).isNone = true ∧ (((eidS.rate peer [0]).2).mgt.spdm.filter (fun x => !x.of .bus peer)).length < 4 := by
  decide +kernel

/-! ### Reset, boot and power -/

theorem witness_ResetSources :
    let s : State := { live with time := 10 ^ 14 }
    let r := s.modRst (fun x => { x with starting := true })
    let boot := r.setFld (devR 0x98) 3 0 0
    let dog := s.setReg (rscR 0x88) 0x01010005#32
    3 ≤ up.rst.ev ∧ up.sec.entropyOk = true ∧ dog.phase = 1 ∧ dog.fld (rscR 0x88) 15 0 ≠ 0 ∧
    dog.rst.beatAt + dog.fld (rscR 0x88) 15 0 * 1000000 ≤ dog.time ∧ up.phase ≠ 1 ∧ r.rst.starting = true ∧ boot.phase = 0 ∧
    boot.rst.straps.bootSel ≠ 1 ∧ boot.rst.startAt + boot.fld (rscR 0x88) 31 24 * 100000000 ≤ boot.time ∧ r.phase = 1 ∧
    r.rst.readyAt + r.fld (rscR 0x88) 23 16 * 1000000000 ≤ r.time ∧ live.rst.starting = false := by decide +kernel

theorem witness_PowerAndPins : State.reset.rst.resetN = false ∧ (live.modRst (fun x => { x with resetN := true, filter := false })).rst.filter = false ∧
    (live.modRst (fun x => { x with resetN := true, filter := true })).rst.filter = true ∧ (live.modRst (fun x => { x with platLow := true })).rst.platLow = true ∧
    (live.modRst (fun x => { x with pwrEn := false, holdoff := true })).rst.holdoff = true ∧ (live.modRst (fun x => { x with soft := true })).rst.soft = true ∧
    (live.modRst (fun x => { x with vmainFault := true })).rst.vmainFault = true ∧ (live.modRst (fun x => { x with vsb := true })).rst.vsb = true := by
  decide +kernel

def record : Rec := { State.reset.rst.prec with seq := 3, portcfg := 0x61#32 }

theorem witness_Boot :
    let at_ (n : Nat) := live.modRst (fun x => { x with ev := n, vsb := true })
    let read : State := { live.modRst (fun x => { x with booted := false }) with flash := { live.flash with bank0 := some record } }
    let slot := (live.modRst (fun x => { x with straps := ⟨0, 0, 0⟩ })).setFld (devR 0x98) 3 0 0
    (at_ 0).heldReset = false ∧ (at_ 1).heldReset = false ∧ State.reset.heldReset = true ∧ (at_ 10).rst.memInit = false ∧
    read.flash.choose = some (0, record, false) ∧ (read.modRst (fun x => { x with straps := ⟨0, 1, 0⟩ })).rst.straps.bootSel ≠ 0 ∧
    slot.phase = 0 ∧ slot.rst.booted = true ∧ slot.fld (rscR 0x84) 8 8 = 0 ∧
    [1, 4, 2, 3].find? (fun t => (slot.running t).isNone) = some 1 ∧ slot.checkImage (mget [] slot.flash.slots 1) = none ∧
    (live.setFld (flsR 0x94) 3 0 2).loadState = 2 ∧ live.loadState ≠ 2 ∧ live.flash.writing = none := by decide +kernel

/-- The clause on an accepted image rests on the vendor key's hash and the signature's verification, which are not the
spec's to give a value (assumption logs 15 and 16): where they hold, an image of 4 KiB with an empty body is accepted. -/
theorem witness_Boot_image (img : List Byte) (hk : sha3 ((img.drop 52).take 1312) = Config.vendorKeyHash 0)
    (hd : (img.drop 20).take 32 = sha3 ((img.drop 4096).take 0))
    (hv : Config.mlDsaVerify ((img.drop 52).take 1312) (sha3 (img.take 1364)) ((img.drop 1364).take 2420) = true)
    (hf : imgField img 0 4 = 0x4B535659 ∧ imgField img 4 2 = 1 ∧ imgField img 6 2 = 1 ∧ imgField img 8 4 = 0 ∧ imgField img 12 4 = 0 ∧
      imgField img 16 4 = 0) (hz : ((img.drop 3784).take 312).all (· == 0) = true) (hl : 4096 ≤ img.length) :
    live.checkImage img = some ⟨1, 0, 0, (img.drop 20).take 32⟩ := by
  obtain ⟨h0, h1, h2, h3, h4, h5⟩ := hf
  have hr : live.fuses.revoked = 0 := by decide +kernel
  have ha : live.arbCtr 1 = 0 := by decide +kernel
  simp only [List.take_zero] at hd
  simp [State.checkImage, h0, h1, h2, h3, h4, h5, hk, hd, hv, hl, hr, ha]
  intro x hx
  simpa using List.all_eq_true.mp hz x hx

theorem witness_PowerEngine :
    let rise := live.modTower 0 (fun x => { x with rise := some 1000000 })
    live.rst.ev = 10 ∧ live.rst.trip = false ∧ State.reset.rst.ev ≠ 10 ∧ 6 + 31 / 8 ≤ live.rst.ev ∧ live.time % 100000 ≤ 90000 ∧
    (live.tower 0).oos = false ∧ (90000 ≤ ({ live with time := 90000 } : State).time % 100000) ∧ live.time % 100000 = 0 ∧
    (live.tower 0).rise = none ∧ (rise.tower 0).rise = some 1000000 ∧ rise.time < rise.wgh.epochAt + 5000 ∧
    (rise.wgh.epochAt + 5000 ≤ ({ rise with time := 5000 } : State).time) ∧ 0 * 1250000 ≤ mget 0 live.wgh.grants 0 := by decide +kernel

end Sys2Proof.Tests
end

section
/-! The reset state (O2). Its register store lists nothing, so a register read there answers what the register tables
give for the page and offset of its address (R8). -/

namespace Sys2Proof.Machine

/-- The reset value the register tables give at an offset of a page of kind k; 0 where the offset is reserved (R6). -/
def PKind.resetAt (k : PKind) (o : Nat) : Word := (k.regAt o).elim 0 RegDef.reset

/-- Is the reset value at this offset of the page that of the tables? Not so for RING_CTL, CH_REPAIR and the BLK_STAT of a
MEM or a BSQ page, which `regReset` changes by the page's number. -/
def Pg.resetsByTable : Pg → Nat → Bool
  | .prt _, o => (PKind.prt.regAt o).all (fun r => r.off != 0x200)
  | .mem _ _, o => o != 0x98 && o != 0x14
  | .bsq _, o => o != 0x14
  | _, _ => true

theorem regReset_eq_resetAt {addr o : Nat} {pg : Pg} (hp : pageNo (addr / 4096) = some pg) (ho : addr % 4096 = o)
    (ht : pg.resetsByTable o = true) : regReset addr = pg.kind.resetAt o := by
  simp only [regReset, PKind.resetAt, hp, ho]
  cases hr : pg.kind.regAt o with
  | none => rfl
  | some r =>
    cases pg with
    | prt p =>
      have hoff : r.off ≠ 0x200 := by simpa [Pg.resetsByTable, show PKind.prt.regAt o = some r from hr] using ht
      simp [hoff]
    | mem t c =>
      obtain ⟨h98, h14⟩ : o ≠ 0x98 ∧ o ≠ 0x14 := by simpa [Pg.resetsByTable] using ht
      simp [h98, h14]
    | bsq t =>
      have h14 : o ≠ 0x14 := by simpa [Pg.resetsByTable] using ht
      simp [h14]
    | _ => rfl

theorem reset_reg (addr : Nat) : State.reset.reg addr = regReset addr := rfl

theorem reset_reg_eq_resetAt {addr o : Nat} {pg : Pg} (hp : pageNo (addr / 4096) = some pg) (ho : addr % 4096 = o)
    (ht : pg.resetsByTable o = true) : State.reset.reg addr = pg.kind.resetAt o :=
  (reset_reg addr).trans (regReset_eq_resetAt hp ho ht)

/-! ### The registers that O2 names -/

theorem reset_moduleW : State.reset.reg (wghR 0x80) = 3600#32 :=
  calc State.reset.reg (wghR 0x80)
    _ = PKind.wgh.resetAt 0x80 := reset_reg_eq_resetAt (pageNo_wghR (by decide)) (wghR_mod (by decide)) rfl
    _ = 3600#32 := by decide

theorem reset_memmap (t : Tower) : State.reset.reg (twrR t.val 0x80) = 0 :=
  calc State.reset.reg (twrR t.val 0x80)
    _ = PKind.twr.resetAt 0x80 := reset_reg_eq_resetAt (pageNo_twrR t.isLt (by decide)) (twrR_mod (by decide)) rfl
    _ = 0 := by decide

/-- The eight WIN_CTL of a PRT page are one row of the table, none of them RING_CTL. -/
theorem winCtl_resetsByTable (p : Nat) : ∀ w : Fin 8, (Pg.prt p).resetsByTable (0x80 + 8 * w.val) = true := by
  simp only [Pg.resetsByTable]
  decide

theorem winCtl_resetAt : ∀ w : Fin 8, PKind.prt.resetAt (0x80 + 8 * w.val) = 0 := by decide

theorem reset_winCtl (p : Port) (w : Fin 8) : State.reset.reg (prtR p.val (0x80 + 8 * w.val)) = 0 := by
  have ho : 0x80 + 8 * w.val < 4096 := by omega
  calc State.reset.reg (prtR p.val (0x80 + 8 * w.val))
    _ = PKind.prt.resetAt (0x80 + 8 * w.val) :=
        reset_reg_eq_resetAt (pageNo_prtR p.isLt ho) (prtR_mod ho) (winCtl_resetsByTable p w)
    _ = 0 := winCtl_resetAt w

theorem reset_owner (st : Stall) : State.reset.owner st.val = 7 := by
  have hreg : State.reset.reg (stlR st.val 0x80) = PKind.stl.resetAt 0x80 :=
    reset_reg_eq_resetAt (pageNo_stlR st.isLt (by decide)) (stlR_mod (by decide)) rfl
  rw [State.owner, State.fld, hreg]
  decide

theorem reset_nstall : State.reset.nstall = 0 := by
  have hreg : State.reset.reg (devR 0xD0) = PKind.dev.resetAt 0xD0 :=
    reset_reg_eq_resetAt (pageNo_devR (by decide)) (devR_mod (by decide)) rfl
  rw [State.nstall, State.fld, hreg]
  decide

/-- Memory, check bits and SRAM list nothing after reset, which is the canonical form of all zeros. -/
theorem reset_memInv : Sys2Proof.Safety.MemInv State.reset := ⟨rfl, rfl, rfl⟩

/-- Settles O2: nothing is listed after reset, so each register named reads as its table's reset value. -/
theorem resetState : Obligations.ResetState :=
  ⟨rfl, rfl, reset_moduleW, reset_memmap, reset_winCtl, reset_owner, reset_nstall, reset_memInv⟩

end Sys2Proof.Machine
end

section
/-! The hawser (O24, O25): the routes that R15 and R17 give a pair, what sending and rerouting do to a pair, and what is
left of the routes when a link fails. -/

namespace Sys2Proof.Machine

/-! ### Link ends -/

theorem mem_sadd {l : List Nat} {k x : Nat} : x ∈ sadd l k ↔ x = k ∨ x ∈ l := by
  induction l with
  | nil => simp [sadd]
  | cons y t ih =>
    unfold sadd
    split
    · simp
    · split
      · next h => simp [h]
      · simp [ih, or_left_comm]

theorem length_rowEnds (r a b : Nat) : (rowEnds r a b).length = max a b - min a b := by
  unfold rowEnds
  split <;> simp <;> omega

theorem length_colEnds (c a b : Nat) : (colEnds c a b).length = max a b - min a b := by
  unfold colEnds
  split <;> simp <;> omega

theorem rowEnds_lt {r a b x : Nat} (hr : r < 4) (ha : a < 8) (hb : b < 8) (hx : x ∈ rowEnds r a b) : x < 128 := by
  unfold rowEnds at hx
  split at hx <;> simp only [List.mem_map, List.mem_range] at hx <;> omega

theorem colEnds_lt {c a b x : Nat} (hc : c < 8) (ha : a < 4) (hb : b < 4) (hx : x ∈ colEnds c a b) : x < 128 := by
  unfold colEnds at hx
  split at hx <;> simp only [List.mem_map, List.mem_range] at hx <;> omega

theorem gateCol_lt (g : Nat) : gateCol g < 8 := by
  unfold gateCol
  split <;> decide

theorem gateEnd_lt {g r : Nat} (hr : r < 4) : gateEnd g r < 128 := by
  unfold gateEnd gateCol
  split <;> omega

/-- Both ends of a link between two towers name each other. -/
theorem farEnd_symm {x y : Nat} (hx : x < 128) (h : farEnd x = some y) : farEnd y = some x := by
  have all : ∀ i : Fin 128, (farEnd i.val).all (fun j => farEnd j == some i.val) = true := by decide
  simpa [h] using all ⟨x, hx⟩

theorem linkIsDown_iff {s : State} {x : Nat} :
    s.linkIsDown x = true ↔ x ∈ s.hw.down ∨ ∃ f, farEnd x = some f ∧ f ∈ s.hw.down := by
  unfold State.linkIsDown
  cases farEnd x <;> simp

/-! ### Routes -/

/-- A route crosses the link with end e, in one direction or the other. -/
def crosses (e : Nat) (l : List Nat) : Bool :=
  l.contains e || (match farEnd e with | some f => l.contains f | none => false)

theorem crosses_iff {e : Nat} {l : List Nat} : crosses e l = true ↔ ∃ x ∈ l, x = e ∨ farEnd e = some x := by
  unfold crosses
  cases farEnd e with
  | none => simp
  | some f => simp [and_or_left, exists_or]

/-- The routes R15 and R17 let a pair take, in the order in which they are tried: column first and then row first between
two towers, or row first alone once the pair is rerouted. -/
def candidates (rowFirst : Bool) (src dst : Nat) : List (List Nat) :=
  if 32 ≤ src && decide (32 ≤ dst) then (List.range 4).map (fun r => route false r src dst)
  else if rowFirst then [route true 0 src dst] else [route false 0 src dst, route true 0 src dst]

/-- Every link of a route is up. -/
def State.routeUp (s : State) (l : List Nat) : Bool := !l.any (fun e => s.linkIsDown e)

/-- The route in use is the first candidate whose links are all up. -/
theorem routeOf_eq_find (s : State) (a b : Nat) :
    s.routeOf a b = (candidates (s.hw.rowFirst.contains (pairKey a b)) a b).find? s.routeUp := by
  unfold State.routeOf candidates
  split
  · rfl
  · change (if !s.hw.rowFirst.contains (pairKey a b) && s.routeUp (route false 0 a b) then some (route false 0 a b)
      else if s.routeUp (route true 0 a b) then some (route true 0 a b) else none) = _
    cases s.hw.rowFirst.contains (pairKey a b) with
    | true => cases h : s.routeUp (route true 0 a b) <;> simp [h]
    | false => cases h : s.routeUp (route false 0 a b) <;> cases h' : s.routeUp (route true 0 a b) <;> simp [h, h']

theorem route_lt {rowFirst : Bool} {r a b x : Nat} (hr : r < 4) (ha : a < 34) (hb : b < 34) (hx : x ∈ route rowFirst r a b) :
    x < 128 := by
  have hga := gateCol_lt a
  have hgb := gateCol_lt b
  unfold route at hx
  split at hx
  · split at hx
    · split at hx <;> obtain h | h := List.mem_append.mp hx
      · exact colEnds_lt (by omega) (by omega) (by omega) h
      · exact rowEnds_lt (by omega) (by omega) (by omega) h
      · exact rowEnds_lt (by omega) (by omega) (by omega) h
      · exact colEnds_lt (by omega) (by omega) (by omega) h
    · obtain h | h := List.mem_append.mp hx
      · exact rowEnds_lt (by omega) (by omega) hgb h
      · exact List.mem_singleton.mp h ▸ gateEnd_lt (by omega)
  · split at hx
    · obtain h | h := List.mem_cons.mp hx
      · exact h ▸ gateEnd_lt (by omega)
      · exact rowEnds_lt (by omega) hga (by omega) h
    · split at hx
      · cases hx
      · obtain h | h := List.mem_append.mp hx
        · obtain h | h := List.mem_cons.mp h
          · exact h ▸ gateEnd_lt hr
          · exact rowEnds_lt hr hga hgb h
        · exact List.mem_singleton.mp h ▸ gateEnd_lt hr

/-- R13, R15: a route between two towers crosses the columns and the rows that lie between them. -/
theorem length_route_towers {a b : Nat} (ha : a < 32) (hb : b < 32) (rowFirst : Bool) (r : Nat) :
    (route rowFirst r a b).length = max (a % 8) (b % 8) - min (a % 8) (b % 8) + (max (a / 8) (b / 8) - min (a / 8) (b / 8)) := by
  cases rowFirst <;> simp [route, ha, hb, length_rowEnds, length_colEnds, Nat.add_comm]

theorem candidates_lt {rowFirst : Bool} {a b x : Nat} {l : List Nat} (ha : a < 34) (hb : b < 34)
    (hl : l ∈ candidates rowFirst a b) (hx : x ∈ l) : x < 128 := by
  unfold candidates at hl
  split at hl
  · obtain ⟨r, hr, rfl⟩ := List.mem_map.mp hl
    exact route_lt (List.mem_range.mp hr) ha hb hx
  · have : ∃ f, l = route f 0 a b := by
      split at hl <;> simp only [List.mem_cons, List.not_mem_nil, or_false] at hl
      · exact ⟨true, hl⟩
      · exact hl.elim (⟨false, ·⟩) (⟨true, ·⟩)
    obtain ⟨f, rfl⟩ := this
    exact route_lt (by decide) ha hb hx

/-- Rerouting a pair adds no candidate. -/
theorem candidates_subset {f g : Bool} (h : f = true → g = true) (a b : Nat) : candidates g a b ⊆ candidates f a b := by
  unfold candidates
  split
  · exact List.Subset.refl _
  · cases f <;> cases g <;> simp_all

/-- Whatever candidate comes after the first is one still when the pair is rerouted. -/
theorem candidates_tail_subset (rowFirst : Bool) (a b : Nat) : (candidates rowFirst a b).tail ⊆ candidates true a b := by
  unfold candidates
  split
  · exact fun _ => List.mem_of_mem_tail
  · cases rowFirst <;> simp

/-- A pair has a route in the order that it takes once it is rerouted. -/
def State.hasSecond (s : State) (a b : Nat) : Prop := ∃ l ∈ candidates true a b, s.routeUp l = true

theorem routeUp_iff {s : State} {l : List Nat} : s.routeUp l = true ↔ ∀ x ∈ l, s.linkIsDown x = false := by
  simp [State.routeUp]

/-- With every link up and nothing rerouted, a pair takes its first candidate. -/
theorem routeOf_all_up {s : State} {a b : Nat} (hd : s.hw.down = []) (hr : s.hw.rowFirst = []) (ha : a < 32) :
    s.routeOf a b = some (route false 0 a b) := by
  have up : s.routeUp (route false 0 a b) = true := routeUp_iff.mpr fun x _ => by
    simp [Bool.eq_false_iff, linkIsDown_iff, hd]
  have hg : ¬ 32 ≤ a := by omega
  simp [routeOf_eq_find, candidates, hr, hg, up]

theorem routeOf_up {s : State} {a b : Nat} {l : List Nat} (h : s.routeOf a b = some l) : s.routeUp l = true := by
  rw [routeOf_eq_find] at h
  exact List.find?_some h

theorem routeOf_mem {s : State} {a b : Nat} {l : List Nat} (h : s.routeOf a b = some l) :
    l ∈ candidates (s.hw.rowFirst.contains (pairKey a b)) a b := by
  rw [routeOf_eq_find] at h
  exact List.mem_of_find?_eq_some h

theorem routeUp_congr {s u : State} (hd : u.hw.down = s.hw.down) : u.routeUp = s.routeUp := by
  funext l
  simp only [State.routeUp, State.linkIsDown, hd]

/-- Routes depend on the links that are down and on the pairs rerouted, and on nothing else of the state. -/
theorem routeOf_congr {s u : State} {a b : Nat} (hd : u.hw.down = s.hw.down) (hr : u.hw.rowFirst = s.hw.rowFirst) :
    u.routeOf a b = s.routeOf a b := by
  rw [routeOf_eq_find, routeOf_eq_find, routeUp_congr hd, hr]

theorem hasSecond_congr {s u : State} {a b : Nat} (hd : u.hw.down = s.hw.down) : u.hasSecond a b ↔ s.hasSecond a b := by
  simp only [State.hasSecond, routeUp_congr hd]

/-- A rerouted pair has a route where its second order is up. -/
theorem routeOf_isSome_of_rerouted {s : State} {a b : Nat} (hk : pairKey a b ∈ s.hw.rowFirst) (h : s.hasSecond a b) :
    (s.routeOf a b).isSome = true := by
  obtain ⟨l, hl, hup⟩ := h
  rw [routeOf_eq_find, List.contains_iff_mem.mpr hk]
  exact List.find?_isSome.mpr ⟨l, hl, hup⟩

/-- Rerouting pairs gives no route to a pair that has none. -/
theorem routeOf_none_of_rowFirst_subset {s u : State} {a b : Nat} (hd : u.hw.down = s.hw.down)
    (hr : s.hw.rowFirst ⊆ u.hw.rowFirst) (h : s.routeOf a b = none) : u.routeOf a b = none := by
  rw [routeOf_eq_find, List.find?_eq_none] at h ⊢
  rw [routeUp_congr hd]
  have hf : s.hw.rowFirst.contains (pairKey a b) = true → u.hw.rowFirst.contains (pairKey a b) = true := by
    simpa only [List.contains_iff_mem] using @hr (pairKey a b)
  exact fun l hl => h l (candidates_subset hf a b hl)

/-! ### A link that fails -/

section
variable {s u : State} {e : Nat} (hd : u.hw.down = sadd s.hw.down e)
include hd

theorem linkIsDown_of_fails {x : Nat} : u.linkIsDown x = true ↔ s.linkIsDown x = true ∨ x = e ∨ farEnd x = some e := by
  simp only [linkIsDown_iff, hd, mem_sadd]
  grind

/-- A route is up after the link fails where it was up before and does not cross the link. -/
theorem routeUp_of_fails (he : e < 128) {l : List Nat} (hl : ∀ x ∈ l, x < 128) :
    u.routeUp l = true ↔ s.routeUp l = true ∧ crosses e l = false := by
  have far (x : Nat) (hx : x ∈ l) : farEnd x = some e ↔ farEnd e = some x := ⟨farEnd_symm (hl x hx), farEnd_symm he⟩
  simp only [routeUp_iff, Bool.eq_false_iff, ne_eq, linkIsDown_of_fails hd, crosses_iff]
  grind

variable {a b : Nat} (he : e < 128) (ha : a < 34) (hb : b < 34)
include he ha hb

theorem routeOf_avoids {l : List Nat} (h : u.routeOf a b = some l) : crosses e l = false :=
  ((routeUp_of_fails hd he fun _ => candidates_lt ha hb (routeOf_mem h)).mp (routeOf_up h)).2

/-- A pair that is not rerouted and whose route does not cross the link keeps its route. -/
theorem routeOf_kept {l : List Nat} (hk : u.hw.rowFirst.contains (pairKey a b) = s.hw.rowFirst.contains (pairKey a b))
    (h : s.routeOf a b = some l) (hc : crosses e l = false) : u.routeOf a b = some l := by
  have up := fun l (hl : l ∈ candidates (s.hw.rowFirst.contains (pairKey a b)) a b) =>
    routeUp_of_fails hd he (fun _ => candidates_lt ha hb hl)
  have hm := routeOf_mem h
  rw [routeOf_eq_find] at h ⊢
  rw [hk]
  obtain ⟨hs, xs, ys, hxs, hno⟩ := List.find?_eq_some_iff_append.mp h
  refine List.find?_eq_some_iff_append.mpr ⟨(up l hm).mpr ⟨hs, hc⟩, xs, ys, hxs, fun x hx => ?_⟩
  have hx' : x ∈ candidates (s.hw.rowFirst.contains (pairKey a b)) a b := hxs ▸ List.mem_append_left _ hx
  have := hno x hx
  have := up x hx'
  grind

/-- A pair whose route crosses the link, and that has another route, has it in the order it takes once rerouted: the first
candidate is the route lost, or was not up before. -/
theorem hasSecond_of_crosses {l : List Nat} (hr : u.hw.rowFirst = s.hw.rowFirst) (h : s.routeOf a b = some l)
    (hc : crosses e l = true) (hu : (u.routeOf a b).isSome = true) : u.hasSecond a b := by
  obtain ⟨m, hum⟩ := Option.isSome_iff_exists.mp hu
  have hm := routeOf_mem hum
  have htail := candidates_tail_subset (u.hw.rowFirst.contains (pairKey a b)) a b
  have up := (routeUp_of_fails hd he (fun _ => candidates_lt ha hb hm)).mp (routeOf_up hum)
  rw [hr] at hm htail
  rw [routeOf_eq_find] at h
  refine ⟨m, htail ?_, routeOf_up hum⟩
  generalize candidates (s.hw.rowFirst.contains (pairKey a b)) a b = cs at h hm
  cases cs with
  | nil => cases hm
  | cons c cs =>
    have hne : m ≠ c := by
      rintro rfl
      have hl : m = l := by simpa [up.1] using h
      simp [hl, hc] at up
    exact (List.mem_cons.mp hm).resolve_left hne

end

/-! ### Sending and rerouting -/

theorem sendPacket_of_noRoute {s : State} {a b : Nat} (h : s.routeOf a b = none) (id : Nat) : s.sendPacket a b id = s := by
  simp [State.sendPacket, h]

theorem sendPacket_of_route {s : State} {a b : Nat} {l : List Nat} (h : s.routeOf a b = some l) (id : Nat) :
    s.sendPacket a b id = { s.emit (.hawser a b id l.length) with
      hw := { s.hw with unacked := mset [] s.hw.unacked (pairKey a b) (mget [] s.hw.unacked (pairKey a b) ++ [id]) } } := by
  simp [State.sendPacket, h]

/-- What sending packets of one pair can do: packets leave, and where the pair has a route they join its packets not yet
acknowledged; no other pair's change. -/
theorem sendPackets_spec (s : State) (a b : Nat) (ids : List Nat) : ∃ out m,
    ids.foldl (fun v id => v.sendPacket a b id) s = { s with sent := out, hw := { s.hw with unacked := m } } ∧
    ∀ k, mget [] m k = mget [] s.hw.unacked k ++ (if k = pairKey a b ∧ (s.routeOf a b).isSome = true then ids else []) := by
  cases hr : s.routeOf a b with
  | none =>
    refine ⟨s.sent, s.hw.unacked, ?_, by simp⟩
    induction ids with
    | nil => rfl
    | cons id ids ih => rw [List.foldl_cons, sendPacket_of_noRoute hr, ih]
  | some l =>
    induction ids generalizing s with
    | nil => exact ⟨s.sent, s.hw.unacked, rfl, by simp⟩
    | cons id ids ih =>
      have hone := sendPacket_of_route hr id
      have hroute : (s.sendPacket a b id).routeOf a b = some l := by
        rw [hone, ← hr]
        exact routeOf_congr rfl rfl
      obtain ⟨out, m, hs, hm⟩ := ih _ hroute
      rw [hone] at hs hm
      refine ⟨out, m, by rw [List.foldl_cons, hone, hs]; rfl, fun k => ?_⟩
      rw [hm]
      by_cases hk : k = pairKey a b <;> simp [mget_mset, hk]

/-- R17: a pair keeps what it sends further until its resend is acknowledged. -/
def State.waits (s : State) (k : Nat) : Prop := s.hw.hold.any (fun h => h.1 == k) = true

/-- What rerouting the pairs of a list leaves from s to t: no link changes, the pairs are rerouted, no packet is lost, and
each of the pairs with packets not yet acknowledged waits for its resend. -/
structure Rerouted (l : List (Nat × Nat)) (s t : State) : Prop where
  down : t.hw.down = s.hw.down
  mem : t.mem = s.mem
  ses : t.ses = s.ses
  rowFirst : ∀ k, k ∈ t.hw.rowFirst ↔ k ∈ s.hw.rowFirst ∨ ∃ p ∈ l, pairKey p.1 p.2 = k
  unacked : ∀ k, mget [] t.hw.unacked k = mget [] s.hw.unacked k
  waits : ∀ k, s.waits k → t.waits k
  resends : ∀ p ∈ l, mget [] s.hw.unacked (pairKey p.1 p.2) ≠ [] → t.waits (pairKey p.1 p.2)

theorem Rerouted.nil (s : State) : Rerouted [] s s := ⟨rfl, rfl, rfl, by simp, fun _ => rfl, fun _ => id, by simp⟩

theorem Rerouted.cons {p : Nat × Nat} {l : List (Nat × Nat)} {s t u : State} (h : Rerouted [p] s t) (g : Rerouted l t u) :
    Rerouted (p :: l) s u where
  down := g.down.trans h.down
  mem := g.mem.trans h.mem
  ses := g.ses.trans h.ses
  rowFirst k := by rw [g.rowFirst, h.rowFirst]; simp [or_assoc]
  unacked k := (g.unacked k).trans (h.unacked k)
  waits k := g.waits k ∘ h.waits k
  resends q hq hu := by
    obtain rfl | hq := List.mem_cons.mp hq
    · exact g.waits _ (h.resends q (List.mem_singleton_self q) hu)
    · exact g.resends q hq (by rwa [h.unacked])

/-- A pair turned to its second order, its packets not yet acknowledged taken out for the resend. -/
def State.turnPair (s : State) (a b : Nat) : State :=
  { s with hw := { s.hw with rowFirst := sadd s.hw.rowFirst (pairKey a b), unacked := mset [] s.hw.unacked (pairKey a b) [] } }

/-- Rerouting one pair that has a second route. -/
theorem rerouted_reroutePair {s : State} {a b : Nat} (h : s.hasSecond a b) : Rerouted [(a, b)] s (s.reroutePair a b) := by
  let k := pairKey a b
  let ids := mget [] s.hw.unacked k
  let s1 := s.turnPair a b
  have hroute : (s1.routeOf a b).isSome = true :=
    routeOf_isSome_of_rerouted (mem_sadd.mpr (.inl rfl)) ((hasSecond_congr rfl).mpr h)
  obtain ⟨out, m, hs, hm⟩ := sendPackets_spec s1 a b ids
  have hmk (j : Nat) : mget [] m j = mget [] s.hw.unacked j := by
    rw [hm, hroute]
    by_cases hj : j = k <;> simp [s1, State.turnPair, mget_mset, k, ids, hj]
  have hrow (j : Nat) : j ∈ sadd s.hw.rowFirst k ↔ j ∈ s.hw.rowFirst ∨ ∃ p ∈ [(a, b)], pairKey p.1 p.2 = j := by
    simp [mem_sadd, k, or_comm, eq_comm]
  change Rerouted _ s (let r := ids.foldl (fun v id => v.sendPacket a b id) s1
    if ids.isEmpty || r.hw.hold.any (fun h => h.1 == k) then r else { r with hw := { r.hw with hold := r.hw.hold ++ [(k, [])] } })
  rw [hs]
  dsimp only
  split
  · next hw =>
    refine ⟨rfl, rfl, rfl, hrow, hmk, fun _ => id, fun p hp hne => ?_⟩
    obtain rfl := List.mem_singleton.mp hp
    exact ((Bool.or_eq_true ..).mp hw).resolve_left fun hnil => hne (List.isEmpty_iff.mp hnil)
  · exact ⟨rfl, rfl, rfl, hrow, hmk, by simp +contextual [State.waits, s1, State.turnPair], by simp [State.waits, k]⟩

/-- Rerouting pairs that each have a second route. -/
theorem rerouted_foldl {l : List (Nat × Nat)} {s : State} (h : ∀ p ∈ l, s.hasSecond p.1 p.2) :
    Rerouted l s (l.foldl (fun v p => v.reroutePair p.1 p.2) s) := by
  induction l generalizing s with
  | nil => exact .nil s
  | cons p l ih =>
    have hp := rerouted_reroutePair (h p List.mem_cons_self)
    exact hp.cons (ih fun q hq => (hasSecond_congr hp.down).mpr (h q (List.mem_cons_of_mem p hq)))

/-! ### The commands -/

/-- Settles O24: a packet and an acknowledgement each do what the pair's entry in the hold list decides. -/
theorem hawserPackets : Obligations.HawserPackets := by
  intro s src dst id replays
  refine ⟨fun hk l hl => ?_, fun h hk => ?_, fun hd hr hs ht => ?_, fun n => ⟨fun hn => ?_, fun h hk hl => ?_⟩⟩
  · simp [execHawserPacket, hk, sendPacket_of_route hl]
  · simp [execHawserPacket, hk]
  · exact ⟨_, routeOf_all_up hd hr hs, length_route_towers hs ht false 0⟩
  · cases hk : s.hw.hold.find? (fun h => h.1 == pairKey src.val dst.val) with
    | none => simp [execHawserAck, hk]
    | some h =>
      have hl := hn.resolve_left (by simp [hk])
      simp [execHawserAck, hk, hl]
  · simp [execHawserAck, hk, hl]

theorem mem_allPairs {a b : Nat} : (a, b) ∈ allPairs ↔ a < 34 ∧ b < 34 := by
  unfold allPairs
  simp only [List.mem_flatten, List.mem_map, List.mem_range]
  constructor
  · rintro ⟨_, ⟨a', ha, rfl⟩, hmem⟩
    obtain ⟨b', hb, heq⟩ := List.mem_map.mp hmem
    cases heq
    exact ⟨ha, List.mem_range.mp hb⟩
  · exact fun ⟨ha, hb⟩ => ⟨_, ⟨a, ha, rfl⟩, List.mem_map.mpr ⟨b, List.mem_range.mpr hb, rfl⟩⟩

theorem pairKey_inj {a b a' b' : Nat} (hb : b < 64) (hb' : b' < 64) (h : pairKey a b = pairKey a' b') : (a, b) = (a', b') := by
  unfold pairKey at h
  ext <;> simp only <;> omega

/-- The pairs whose route crosses the link with end e. -/
def State.crossing (s : State) (e : Nat) : List (Nat × Nat) :=
  allPairs.filter (fun p => (s.routeOf p.1 p.2).any (crosses e))

theorem mem_crossing {s : State} {e a b : Nat} :
    (a, b) ∈ s.crossing e ↔ (a < 34 ∧ b < 34) ∧ ∃ l, s.routeOf a b = some l ∧ crosses e l = true := by
  simp [State.crossing, mem_allPairs, Option.any_eq_true]

/-- The failed link's pairs that still have a route. -/
def State.kept (s v : State) (e : Nat) : List (Nat × Nat) := (s.crossing e).filter (fun p => (v.routeOf p.1 p.2).isSome)

/-- The failed link's pairs that have none. -/
def State.lost (s v : State) (e : Nat) : List (Nat × Nat) := (s.crossing e).filter (fun p => !(v.routeOf p.1 p.2).isSome)

section
variable {s v u : State} {e : Nat} (hd : v.hw.down = sadd s.hw.down e) (hr : v.hw.rowFirst = s.hw.rowFirst) (he : e < 128)

include hd hr he in
theorem hasSecond_of_mem_kept {p : Nat × Nat} (hp : p ∈ s.kept v e) : v.hasSecond p.1 p.2 := by
  obtain ⟨hp, hsome⟩ := List.mem_filter.mp hp
  obtain ⟨⟨ha, hb⟩, l, hl, hc⟩ := mem_crossing.mp hp
  exact hasSecond_of_crosses hd he ha hb hr hl hc hsome

variable (h : Rerouted (s.kept v e) v u) {a b : Nat}
include h

theorem routeOf_none_of_rerouted (hn : v.routeOf a b = none) : u.routeOf a b = none :=
  routeOf_none_of_rowFirst_subset h.down (fun k hk => (h.rowFirst k).mpr (.inl hk)) hn

variable (ha : a < 34) (hb : b < 34) {l : List Nat} (hl : s.routeOf a b = some l)
include ha hb hl

/-- A pair whose route crossed the link, and that has a route after the reroutes, was rerouted. -/
theorem mem_kept_of_crosses (hc : crosses e l = true) (hu : (u.routeOf a b).isSome = true) : (a, b) ∈ s.kept v e := by
  refine List.mem_filter.mpr ⟨mem_crossing.mpr ⟨⟨ha, hb⟩, l, hl, hc⟩, ?_⟩
  rw [Option.isSome_iff_ne_none] at hu ⊢
  exact fun hn => hu (routeOf_none_of_rerouted h hn)

include hd hr he in
/-- A pair whose route crossed the link, and that has no route after the reroutes, is lost. -/
theorem mem_lost_of_crosses (hc : crosses e l = true) (hu : u.routeOf a b = none) : (a, b) ∈ s.lost v e := by
  have hp : (a, b) ∈ s.crossing e := mem_crossing.mpr ⟨⟨ha, hb⟩, l, hl, hc⟩
  refine List.mem_filter.mpr ⟨hp, ?_⟩
  cases hv : (v.routeOf a b).isSome with
  | false => rfl
  | true =>
    have hk : (a, b) ∈ s.kept v e := List.mem_filter.mpr ⟨hp, hv⟩
    have := routeOf_isSome_of_rerouted ((h.rowFirst _).mpr (.inr ⟨_, hk, rfl⟩))
      ((hasSecond_congr h.down).mpr (hasSecond_of_mem_kept hd hr he hk))
    simp only [hu, Option.isSome_none, Bool.false_eq_true] at this

include hd hr he in
/-- A pair whose route does not cross the link is not among the rerouted, so its route stands. -/
theorem routeOf_of_not_crosses (hc : crosses e l = false) : u.routeOf a b = some l := by
  have hnot : ¬ ∃ p ∈ s.kept v e, pairKey p.1 p.2 = pairKey a b := by
    rintro ⟨⟨a', b'⟩, hp, hk⟩
    obtain ⟨⟨-, hb'⟩, l', hl', hc'⟩ := mem_crossing.mp (List.mem_filter.mp hp).1
    cases pairKey_inj (by omega) (by omega) hk
    cases hl.symm.trans hl'
    exact absurd (hc.symm.trans hc') (by decide)
  have hmark : pairKey a b ∈ u.hw.rowFirst ↔ pairKey a b ∈ s.hw.rowFirst := by
    rw [h.rowFirst, or_iff_left hnot, hr]
  exact routeOf_kept (h.down.trans hd) he ha hb (by simpa using hmark) hl hc

end

/-- R17: the link of port d of tower t goes down, and the event is recorded. -/
def State.failLink (s : State) (t : Tower) (d : Dir) (far : Nat) : State :=
  ({ s with hw := { s.hw with down := sadd s.hw.down (t.val * 4 + dirNum d) } } : State).logErr (.hwp t.val (dirNum d)) 0x3000 0 0
    (hwInfo t.val far)

theorem failLink_hw (s : State) (t : Tower) (d : Dir) (far : Nat) :
    (s.failLink t d far).hw = { s.hw with down := sadd s.hw.down (t.val * 4 + dirNum d) } := rfl

theorem failLink_mem (s : State) (t : Tower) (d : Dir) (far : Nat) : (s.failLink t d far).mem = s.mem := rfl

theorem failLink_ses (s : State) (t : Tower) (d : Dir) (far : Nat) : (s.failLink t d far).ses = s.ses := rfl

/-- R17: the link fails, the pairs that it served and that have a route left are rerouted, and then the others are lost. -/
theorem execLinkDown_of_up {s : State} {t : Tower} {d : Dir} {far : Nat} (hb : behind (t.val * 4 + dirNum d) = some far)
    (hup : s.linkIsDown (t.val * 4 + dirNum d) = false) :
    let v := s.failLink t d far
    let e := t.val * 4 + dirNum d
    execLinkDown t d s = .next ((s.lost v e).foldl (fun w p => w.loseRoute t.val (dirNum d) p.1 p.2)
      ((s.kept v e).foldl (fun w p => w.reroutePair p.1 p.2) v)).settleIdle := by
  have hcross : (fun p : Nat × Nat => match s.routeOf p.1 p.2 with
      | some l => crosses (t.val * 4 + dirNum d) l
      | none => false) = fun p => (s.routeOf p.1 p.2).any (crosses (t.val * 4 + dirNum d)) := by
    funext p
    cases s.routeOf p.1 p.2 <;> rfl
  intro v e
  unfold execLinkDown
  simp only [hb, hup, List.partition_eq_filter_filter]
  unfold State.kept State.lost State.crossing
  rw [← hcross]
  rfl

/-- An edge without a link, or a link that is down already. -/
theorem execLinkDown_stays {s : State} {t : Tower} {d : Dir}
    (h : behind (t.val * 4 + dirNum d) = none ∨ s.linkIsDown (t.val * 4 + dirNum d) = true) : execLinkDown t d s = .next s := by
  cases hb : behind (t.val * 4 + dirNum d) with
  | none => simp [execLinkDown, hb]
  | some far => simp [execLinkDown, hb, h.resolve_left (by simp [hb])]

theorem linkEnd_lt (t : Tower) (d : Dir) : t.val * 4 + dirNum d < 128 := by
  cases d <;> simp only [dirNum] <;> omega

/-- R17: once the link has failed, every pair that it served and that has a route left is rerouted. -/
theorem rerouted_failLink (s : State) (t : Tower) (d : Dir) (far : Nat) :
    let v := s.failLink t d far
    let e := t.val * 4 + dirNum d
    Rerouted (s.kept v e) v ((s.kept v e).foldl (fun w p => w.reroutePair p.1 p.2) v) :=
  rerouted_foldl fun _ => hasSecond_of_mem_kept (s := s) (v := s.failLink t d far) rfl rfl (linkEnd_lt t d)

/-- Settles O25: the state between the reroutes and the losses is the one the statement asks for. -/
theorem hawserLinkDown : Obligations.HawserLinkDown := by
  intro s t d e uses
  refine ⟨fun hb hup => ?_, execLinkDown_stays⟩
  obtain ⟨far, hfar⟩ := Option.ne_none_iff_exists'.mp hb
  have hx := execLinkDown_of_up hfar hup
  have h := rerouted_failLink s t d far
  have hhw : (s.failLink t d far).hw = { s.hw with down := sadd s.hw.down e } := failLink_hw s t d far
  have hm := failLink_mem s t d far
  have hs := failLink_ses s t d far
  have he : e < 128 := linkEnd_lt t d
  generalize s.failLink t d far = v at hx h hhw hm hs
  dsimp only at hx h
  generalize (s.kept v e).foldl (fun w p => w.reroutePair p.1 p.2) v = u at hx h
  have hd : v.hw.down = sadd s.hw.down e := by rw [hhw]
  have hr : v.hw.rowFirst = s.hw.rowFirst := by rw [hhw]
  have hw : v.hw.unacked = s.hw.unacked := by rw [hhw]
  have hdu := h.down.trans hd
  have hun (k : Nat) : mget [] u.hw.unacked k = mget [] s.hw.unacked k := by rw [h.unacked, hw]
  refine ⟨u, s.lost v e, hx, (linkIsDown_of_fails hdu).mpr (.inr (.inl rfl)), h.mem.trans hm, h.ses.trans hs,
    fun p hp => routeOf_none_of_rerouted h (by simpa using (List.mem_filter.mp hp).2), fun a b ha hb => ⟨?_, ?_, ?_, ?_⟩⟩
  · exact fun l hl => routeOf_avoids hdu he ha hb hl
  · exact fun l hl hc hn => mem_lost_of_crosses hd hr he h ha hb hl hc hn
  · exact fun l hl hc => ⟨routeOf_of_not_crosses hd hr he h ha hb hl hc, hun _⟩
  · exact fun l hl hc hne hsome => ⟨hun _, h.resends (a, b) (mem_kept_of_crosses h ha hb hl hc hsome) (by rwa [hw])⟩

end Sys2Proof.Machine
end

section
/-! Register accesses: what the statements of the register pages (O9, O13 to O15) share about their pages, sources and
transactions. -/

namespace Sys2Proof.Machine

theorem base_div_of_pageNo {n : Nat} {pg : Pg} (h : pageNo n = some pg) : pg.base / 4096 = n := by
  revert h
  fun_cases pageNo n <;> intro h <;> cases h <;> simp only [Pg.base] <;> omega

/-- CMD stands in bits 31 and 30 of BLK_TXN and TXG_CMD; the operand m lies below it. -/
theorem fget_cmd {k m : Nat} (hk : k < 4) (hm : m < 2 ^ 30) : fget (w32 (k * 2 ^ 30 + m)) 31 30 = k := by
  simp only [fget, bitsOf, w32, BitVec.toNat_ofNat, Nat.shiftRight_eq_div_pow]
  omega

/-- A field of a word, as bits and as a number. -/
theorem extractLsb'_eq_iff_fget (v : Word) {hi lo k : Nat} (hk : k < 2 ^ (hi + 1 - lo)) :
    v.extractLsb' lo (hi + 1 - lo) = BitVec.ofNat _ k ↔ fget v hi lo = k := by
  rw [BitVec.toNat_eq, BitVec.extractLsb'_toNat, BitVec.toNat_ofNat, Nat.mod_eq_of_lt hk]
  rfl

@[simp] theorem copy_setCopy_same (s : State) (n k : Nat) (w : Word) : (s.setCopy n k w).copy n k = w :=
  mget_mset_same ..

theorem receive_received {s : State} {src : Src} {a : Nat} (h : (s.receive src a).1 = true) : s.receive src a = (true, s) :=
  Prod.ext h (receive_snd h)

theorem receive_refuses {s : State} {p : Port} (h : s.portMode p.val = .refuses) (rid : Rid) (a : Nat) :
    s.receive (.port p rid) a = (false, s.portEvent p.val 0x2000 a rid.toNat) := by
  simp [State.receive, h, srcInfo]

/-- What a step leaves is settled alike where its effect is. -/
theorem next_settleIdle {u v : State} (h : u = v) :
    (.next u.settleIdle : Host.Outcome State Fault Refusal) = .next v.settleIdle := by rw [h]

theorem Txn.st_of_not_open {x : Txn} (h : x.open_ = false) : x.st ≠ 1 ∧ x.st ≠ 5 := by
  simp only [Txn.open_, Bool.or_eq_false_iff, beq_eq_false_iff_ne] at h
  obtain ⟨⟨hopen, -⟩, hfailed⟩ := h
  exact ⟨hopen, hfailed⟩

/-- R54: where no transaction is open the RW fields of a write are stored by their classes; BLK_EN, BLK_TXN and OWNER
have rules of their own. -/
theorem writeRW_of_not_open {s : State} {src : Src} {pg : Pg} {addr : Nat} {val : Word}
    (hx : (s.txn (addr / 4096)).open_ = false) (hb : rwBits addr (fun _ => true) ≠ 0) (h10 : addr % 4096 ≠ 0x10)
    (h20 : addr % 4096 ≠ 0x20) (h80 : addr % 4096 ≠ 0x80) :
    s.writeRW src pg addr val = s.plainWrite src pg addr val := by
  obtain ⟨h1, h5⟩ := Txn.st_of_not_open hx
  have hb' : ¬ rwBits addr (fun _ => true) = 0#32 := hb
  simp [State.writeRW, hx, hb', h10, h20, h80, h1, h5]

/-- R50: what a transaction holds does not decide whether its page runs. -/
theorem runs_setTxn (s : State) (n : Nat) (x : Txn) (pg : Pg) : (s.setTxn n x).runs pg = s.runs pg := by
  cases pg <;> rfl

end Sys2Proof.Machine
end

section
/-! Page transactions (O13): a write of BLK_TXN that reaches its page is its command and nothing else, and each command by
the cases of R52 to R57. -/

namespace Sys2Proof.Machine

open Sys2Proof.Safety

/-- BLK_TXN takes no fields beside its command. -/
theorem takesCompanion_blkTxn (pg : Pg) (val : Word) : takesCompanion pg 0x20 val = false := by
  cases pg <;> rfl

/-- BLK_TXN stores nothing: a write of it is its command. -/
theorem writeRW_blkTxn (s : State) (src : Src) (pg : Pg) {addr : Nat} (val : Word) (ho : addr % 4096 = 0x20) :
    s.writeRW src pg addr val = s := by
  simp [State.writeRW, ho]

theorem regCmd_blkTxn {s : State} {src : Src} {n : Nat} {pg : Pg} {val : Word} (hp : pageNo n = some pg)
    (h : reaches s src (n * 4096 + 0x20) val = true) :
    s.regCmd src (n * 4096 + 0x20) val = (s.txnCmd src n pg val).settleIdle := by
  have hd : (n * 4096 + 0x20) / 4096 = n := by omega
  have ho : (n * 4096 + 0x20) % 4096 = 0x20 := by omega
  have hact : s.act src pg 0x20 val = s.txnCmd src n pg val := by
    simp [State.act, base_div_of_pageNo hp]
  rw [regCmd_of_reaches h (hd.symm ▸ hp), ho, takesCompanion_blkTxn, hact, if_neg (by decide), writeRW_blkTxn _ _ _ _ ho]

/-- The group of a BEGIN stands in bits 23 to 16. -/
theorem fget_group (g : Byte) : fget (w32 (2 ^ 30 + g.toNat * 2 ^ 16)) 23 16 = g.toNat := by
  have hg := g.isLt
  simp only [fget, bitsOf, w32, BitVec.toNat_ofNat, Nat.shiftRight_eq_div_pow]
  omega

theorem exec_txnBegin_of_reaches {s : State} {src : Src} {page : PageNo} {pg : Pg} {g : Byte}
    (hp : pageNo page.toNat = some pg)
    (h : reaches s src (page.toNat * 4096 + 0x20) (w32 (2 ^ 30 + g.toNat * 2 ^ 16)) = true) :
    exec (.txnBegin src page g) s = .next (s.txnBegin src page.toNat g.toNat pg).settleIdle := by
  have hg := g.isLt
  have hcmd : fget (w32 (2 ^ 30 + g.toNat * 2 ^ 16)) 31 30 = 1 := fget_cmd (k := 1) (by decide) (by omega)
  have hbegin : s.txnCmd src page.toNat pg (w32 (2 ^ 30 + g.toNat * 2 ^ 16)) = s.txnBegin src page.toNat g.toNat pg := by
    simp only [State.txnCmd, hcmd, fget_group]
  exact congrArg Host.Outcome.next ((regCmd_blkTxn hp h).trans (congrArg State.settleIdle hbegin))

theorem exec_txnCommit_of_reaches {s : State} {src : Src} {page : PageNo} {pg : Pg} (hp : pageNo page.toNat = some pg)
    (h : reaches s src (page.toNat * 4096 + 0x20) 0x80000000#32 = true) :
    exec (.txnCommit src page) s = .next (s.txnCommit src page.toNat pg).settleIdle :=
  congrArg Host.Outcome.next (regCmd_blkTxn hp h)

theorem exec_txnRollback_of_reaches {s : State} {src : Src} {page : PageNo} {pg : Pg} (hp : pageNo page.toNat = some pg)
    (h : reaches s src (page.toNat * 4096 + 0x20) 0xC0000000#32 = true) :
    exec (.txnRollback src page) s = .next (s.txnRollback src page.toNat pg).settleIdle :=
  congrArg Host.Outcome.next (regCmd_blkTxn hp h)

section
variable {s : State} {src : Src} {n g : Nat} {pg : Pg}

theorem txnBegin_alone (ho : (s.txn n).open_ = false) : s.txnBegin src n 0 pg = s.setTxn n ⟨1, some src, 0, []⟩ := by
  simp [State.txnBegin, ho]

theorem txnBegin_joins (ho : (s.txn n).open_ = false) (hg : g ≠ 0) (hst : (s.grp g).st = 1)
    (hown : (s.grp g).owner = srcNum src) (hlen : (s.grp g).members.length < 64) :
    s.txnBegin src n g pg =
      (s.setTxn n ⟨1, some src, g, []⟩).setGrp g { s.grp g with members := (s.grp g).members ++ [n] } := by
  simp [State.txnBegin, ho, hg, hst, hown, hlen]

theorem txnBegin_conflict (h : (s.txn n).open_ = true ∨
      (g ≠ 0 ∧ ((s.grp g).st ≠ 1 ∨ (s.grp g).owner ≠ srcNum src ∨ 64 ≤ (s.grp g).members.length))) :
    s.txnBegin src n g pg = s.flagConflict pg := by
  unfold State.txnBegin
  rcases h with ho | ⟨hg, hbad⟩
  · exact if_pos ho
  · have hno : ¬ ((s.grp g).st = 1 && (s.grp g).owner == srcNum src && decide ((s.grp g).members.length < 64)) = true := by
      simp only [Bool.and_eq_true, decide_eq_true_eq, beq_iff_eq]
      omega
    simp only [if_neg hg, if_neg hno, ite_self]

theorem txnCommit_of_opener (hst : (s.txn n).st = 1) (hby : (s.txn n).by src = true) (hgr : (s.txn n).group = 0) :
    let u := s.setTxn n { s.txn n with st := 2 }
    s.txnCommit src n pg =
      if pg.always || !s.runs pg || pg.kind == .prt then u.applyTxn n
      else { u with rf := { u.rf with commits := s.rf.commits ++ [n] } } := by
  unfold State.txnCommit
  rw [if_neg (by simp [hst, hby, hgr])]
  simp only [runs_setTxn]
  rfl

theorem txnCommit_applies (hst : (s.txn n).st = 1) (hby : (s.txn n).by src = true) (hgr : (s.txn n).group = 0)
    (hsafe : pg.always = true ∨ s.runs pg = false ∨ ∃ p, pg = .prt p) :
    s.txnCommit src n pg = (s.setTxn n { s.txn n with st := 2 }).applyTxn n := by
  rw [txnCommit_of_opener hst hby hgr, if_pos]
  rcases hsafe with h | h | ⟨p, rfl⟩
  · simp [h]
  · simp [h]
  · exact Bool.or_true _

theorem txnCommit_waits (hst : (s.txn n).st = 1) (hby : (s.txn n).by src = true) (hgr : (s.txn n).group = 0)
    (ha : pg.always = false) (hr : s.runs pg = true) (hprt : ∀ p, pg ≠ .prt p) :
    let u := s.setTxn n { s.txn n with st := 2 }
    s.txnCommit src n pg = { u with rf := { u.rf with commits := s.rf.commits ++ [n] } } := by
  have hkind : (pg.kind == PKind.prt) = false := by
    cases pg with
    | prt p => exact absurd rfl (hprt p)
    | _ => rfl
  rw [txnCommit_of_opener hst hby hgr, if_neg (by simp [ha, hr, hkind])]

theorem txnCommit_conflict (h : (s.txn n).st ≠ 1 ∨ (s.txn n).by src = false ∨ (s.txn n).group ≠ 0) :
    s.txnCommit src n pg = s.flagConflict pg := by
  unfold State.txnCommit
  exact if_pos (by simpa [or_assoc] using h)

theorem txnRollback_rolls (ho : (s.txn n).open_ = true) (hby : (s.txn n).by src = true ∨ srcNum src = 4) :
    s.txnRollback src n pg = s.rollTxn n := by
  have hmay : ((s.txn n).by src || srcNum src == 4) = true := by simpa using hby
  simp [State.txnRollback, State.rollTxn, ho, hmay]

theorem txnRollback_conflict (h : (s.txn n).open_ = false ∨ ((s.txn n).by src = false ∧ srcNum src ≠ 4)) :
    s.txnRollback src n pg = s.flagConflict pg := by
  unfold State.txnRollback
  exact if_pos (by simpa using h)

end

/-- Settles O13: each command reaches its page's transaction, and R52 to R57 divide its cases. -/
theorem pageTransactions : Obligations.PageTransactions := by
  intro s src page pg g n a x y conflict hp
  have hg0 : g ≠ 0 → g.toNat ≠ 0 := fun h => by simpa [BitVec.toNat_eq] using h
  refine ⟨fun h => ?_, fun h => ?_, fun h => ?_⟩
  · have hx := exec_txnBegin_of_reaches hp h
    refine ⟨fun ho hg => ?_, fun ho hg hst hown hlen => ?_, fun hbad => ?_⟩
    · subst hg
      exact hx.trans (next_settleIdle (txnBegin_alone ho))
    · exact hx.trans (next_settleIdle (txnBegin_joins ho (hg0 hg) hst hown hlen))
    · exact hx.trans (next_settleIdle (txnBegin_conflict (hbad.imp_right (And.imp_left hg0))))
  · have hx := exec_txnCommit_of_reaches hp h
    exact ⟨fun hst hby hgr hsafe => hx.trans (next_settleIdle (txnCommit_applies hst hby hgr hsafe)),
      fun hst hby hgr ha hr hprt => hx.trans (next_settleIdle (txnCommit_waits hst hby hgr ha hr hprt)),
      fun hbad => hx.trans (next_settleIdle (txnCommit_conflict hbad))⟩
  · have hx := exec_txnRollback_of_reaches hp h
    exact ⟨fun ho hby => hx.trans (next_settleIdle (txnRollback_rolls ho hby)),
      fun hbad => hx.trans (next_settleIdle (txnRollback_conflict hbad))⟩

end Sys2Proof.Machine
end

section
/-! Transaction groups (O14): a write of DEV.TXG_CMD that reaches its page is its command, and each command and each timer
by the cases of R57 to R59. -/

namespace Sys2Proof.Machine

open Sys2Proof.Safety

/-- TXG_CMD has no RW field: a write of it is its command. -/
theorem regCmd_txgCmd {s : State} {src : Src} {val : Word} (h : reaches s src 0xB0 val = true) :
    s.regCmd src 0xB0 val = (s.txgCmd src val).settleIdle := by
  have hrw : rwBits 0xB0 (fun _ => true) = 0 := by decide
  calc s.regCmd src 0xB0 val
    _ = ((s.act src .dev 0xB0 val).writeRW src .dev 0xB0 val).settleIdle := regCmd_of_reaches (pg := .dev) h rfl
    _ = (s.act src .dev 0xB0 val).settleIdle := by rw [writeRW_none hrw]
    _ = (s.txgCmd src val).settleIdle := rfl

/-- The group of a TXG_CMD stands in bits 7 to 0. -/
theorem fget_txgGroup (k : Nat) (g : Byte) : fget (w32 (k * 2 ^ 30 + g.toNat)) 7 0 = g.toNat := by
  have hg := g.isLt
  simp only [fget, bitsOf, w32, BitVec.toNat_ofNat, Nat.shiftRight_eq_div_pow]
  omega

section
variable {s : State} {src : Src} {val : Word} {k : Nat}

/-- R57: OPEN. A group has ended where it is COMMITTED (3), ABORTED (4) or FAILED (5). -/
theorem txgCmd_open (hc : fget val 31 30 = 1) (hg : fget val 7 0 = k) :
    let x := s.grp k
    s.txgCmd src val =
      if x.st = 0 ∨ ((x.st = 3 ∨ x.st = 4 ∨ x.st = 5) ∧ x.owner = srcNum src)
      then s.setGrp k ⟨1, srcNum src, [], none, 0⟩
      else s.flagConflict .dev := by
  simp [State.txgCmd, hc, hg]

/-- R59: COMMIT, which a member that waits for a reconfiguration fails. -/
theorem txgCmd_commit (hc : fget val 31 30 = 2) (hg : fget val 7 0 = k) :
    let x := s.grp k
    s.txgCmd src val =
      if x.st ≠ 1 ∨ x.owner ≠ srcNum src then s.flagConflict .dev
      else if ∃ n ∈ x.members, s.waitsReconf n = true then s.endGroup k 5
      else (x.members.foldl (fun (s : State) n => s.setTxn n { s.txn n with st := 2 }) s).setGrp k { x with st := 2 } := by
  simp [State.txgCmd, hc, hg]

/-- R58: ABORT. -/
theorem txgCmd_abort (hc : fget val 31 30 = 3) (hg : fget val 7 0 = k) :
    let x := s.grp k
    s.txgCmd src val =
      if (x.st = 1 ∨ x.st = 2) ∧ x.owner = srcNum src then s.endGroup k 4 else s.flagConflict .dev := by
  simp [State.txgCmd, hc, hg]

end

section
variable {s : State} {g : Byte}

/-- R59 step 4: the bound of 10 ms of a group that has held its first stall at t. -/
theorem exec_txgTimeout_of_held {t : Nat} (ht : (s.grp g.toNat).since = some t) : exec (.txgTimeout g) s =
    .next (if (s.grp g.toNat).st = 2 ∧ t + 10000000 ≤ s.time then (s.endGroup g.toNat 5).settleIdle else s) := by
  simp [execTxgTimeout, ht]

theorem exec_txgTimeout_of_not_held (ht : (s.grp g.toNat).since = none) : exec (.txgTimeout g) s = .next s := by
  simp [execTxgTimeout, ht]

/-- R57: the second after the end of a group. -/
theorem exec_txgRelease_eq : exec (.txgRelease g) s =
    .next (if ((s.grp g.toNat).st = 3 ∨ (s.grp g.toNat).st = 4 ∨ (s.grp g.toNat).st = 5) ∧
      (s.grp g.toNat).endAt + 1000000000 ≤ s.time then s.setGrp g.toNat Grp.reset else s) := by
  simp [execTxgRelease]

end

/-- Settles O14: the condition under which each command and each timer acts, and its negation. -/
theorem transactionGroups : Obligations.TransactionGroups := by
  intro s src g x mine ended conflict
  have hg : g.toNat < 2 ^ 30 := by omega
  refine ⟨fun h => ?_, fun h => ?_, fun h => ?_, fun t ht => ?_, exec_txgTimeout_of_not_held, fun he hdue => ?_,
    fun hno => ?_⟩
  · have hx : exec (.txgOpen src g) s = .next _ := congrArg Host.Outcome.next (regCmd_txgCmd h)
    have hcmd := txgCmd_open (s := s) (src := src) (fget_cmd (k := 1) (by decide) hg) (fget_txgGroup 1 g)
    exact ⟨fun hok => hx.trans (next_settleIdle (hcmd.trans (if_pos hok))),
      fun hno => hx.trans (next_settleIdle (hcmd.trans (if_neg hno)))⟩
  · have hx : exec (.txgCommit src g) s = .next _ := congrArg Host.Outcome.next (regCmd_txgCmd h)
    have hcmd := txgCmd_commit (s := s) (src := src) (fget_cmd (k := 2) (by decide) hg) (fget_txgGroup 2 g)
    have hok (hst : x.st = 1) (hm : mine) : ¬ (x.st ≠ 1 ∨ ¬ mine) := fun h => h.elim (· hst) (· hm)
    refine ⟨fun hst hm hfree => ?_, fun hst hm hwait => ?_, fun hno => ?_⟩
    · have hfree' : ¬ ∃ n ∈ x.members, s.waitsReconf n = true := by simpa using hfree
      exact hx.trans (next_settleIdle (hcmd.trans ((if_neg (hok hst hm)).trans (if_neg hfree'))))
    · exact hx.trans (next_settleIdle (hcmd.trans ((if_neg (hok hst hm)).trans (if_pos hwait))))
    · exact hx.trans (next_settleIdle (hcmd.trans (if_pos hno)))
  · have hx : exec (.txgAbort src g) s = .next _ := congrArg Host.Outcome.next (regCmd_txgCmd h)
    have hcmd := txgCmd_abort (s := s) (src := src) (fget_cmd (k := 3) (by decide) hg) (fget_txgGroup 3 g)
    exact ⟨fun hst hm => hx.trans (next_settleIdle (hcmd.trans (if_pos ⟨hst, hm⟩))),
      fun hno => hx.trans (next_settleIdle (hcmd.trans (if_neg hno)))⟩
  · have hx := exec_txgTimeout_of_held ht
    refine ⟨fun hst hdue => hx.trans (congrArg Host.Outcome.next (if_pos ⟨hst, hdue⟩)), fun hno => ?_⟩
    have hno' : ¬ (x.st = 2 ∧ t + 10000000 ≤ s.time) := by omega
    exact hx.trans (congrArg Host.Outcome.next (if_neg hno'))
  · exact exec_txgRelease_eq.trans (congrArg Host.Outcome.next (if_pos ⟨he, hdue⟩))
  · have hno' : ¬ (ended ∧ x.endAt + 1000000000 ≤ s.time) := fun ⟨he, hdue⟩ => hno.elim (· he) (by omega)
    exact exec_txgRelease_eq.trans (congrArg Host.Outcome.next (if_neg hno'))

end Sys2Proof.Machine
end

section
/-! Reads of registers (O9): what DEV shows of the time, and the answer to a BAR0 read by its size and alignment (R32,
R63). -/

namespace Sys2Proof.Machine

theorem read_timeLo (s : State) (n : Nat) : s.read n 0xA0 = w32 s.time := rfl

theorem read_timeHi (s : State) (n : Nat) : s.read n 0xA4 = s.copy n 2 := rfl

theorem readWord_word (s : State) (src : Src) (a : Nat) : (s.readWord src a).1 = s.read (srcNum src) a := rfl

/-- R63: a read of TIME_LO latches TIME_HI for the source. -/
theorem readWord_latch (s : State) (src : Src) (a : Nat) : (s.readWord src a).2 =
    if a = 0xA0 then s.setCopy (srcNum src) 2 (BitVec.ofNat 32 (s.time / 2 ^ 32)) else s := by
  simp only [State.readWord, devR, w32, Nat.shiftRight_eq_div_pow]

theorem answerRead_port_one (s : State) (p : Port) (rid : Rid) (w : Word) :
    s.answerRead (.port p rid) [w] = s.emit (.cpl p.val 0 (leBytes 4 w.toNat) false) := by
  simp [State.answerRead]

theorem answerRead_port_two (s : State) (p : Port) (rid : Rid) (w v : Word) :
    s.answerRead (.port p rid) [w, v] = s.emit (.cpl p.val 0 (leBytes 4 w.toNat ++ leBytes 4 v.toNat) false) := by
  simp [State.answerRead]

theorem answerRead_mgmt (s : State) (eid : Byte) (ad : BitVec 7) (sec : Bool) (ws : List Word) :
    s.answerRead (.mgmt eid ad sec) ws = s.emit (.regs ws) := rfl

section
variable {s : State} {src : Src} {addr : BarOff} (hr : (s.receive src addr.toNat).1 = true)
include hr

theorem exec_timeLoRead_4 (ha : addr.toNat % 4 = 0) : exec (.timeLoRead ⟨src, addr, 4⟩) s =
    .next ((s.readWord src addr.toNat).2.answerRead src [s.read (srcNum src) addr.toNat]) := by
  simp [execTimeLoRead, receive_received hr, ha, readWord_word]

/-- R32: a read of 8 B is two of 4 B, the lower address first; the second is never of TIME_LO. -/
theorem exec_timeLoRead_8 (ha : addr.toNat % 8 = 0) : exec (.timeLoRead ⟨src, addr, 8⟩) s =
    (let v := (s.readWord src addr.toNat).2
     .next (v.answerRead src [s.read (srcNum src) addr.toNat, v.read (srcNum src) (addr.toNat + 4)])) := by
  have hnext : addr.toNat + 4 ≠ 0xA0 := by omega
  have hlatch (v : State) : (v.readWord src (addr.toNat + 4)).2 = v := by rw [readWord_latch, if_neg hnext]
  simp [execTimeLoRead, receive_received hr, ha, readWord_word, hlatch]

theorem exec_timeLoRead_misfit {size : Nat} {p : Port} {rid : Rid} (hs : src = .port p rid)
    (h4 : ¬ (size = 4 ∧ addr.toNat % 4 = 0)) (h8 : ¬ (size = 8 ∧ addr.toNat % 8 = 0)) :
    exec (.timeLoRead ⟨src, addr, size⟩) s =
      .next ((s.logErr (.prt p.val) 0x0100 0 addr.toNat rid.toNat).emit (.cpl p.val 4 [] false)) := by
  subst hs
  simp [execTimeLoRead, receive_received hr, h4, h8, srcInfo]

end

theorem exec_timeLoRead_refuses {s : State} {p : Port} (h : s.portMode p.val = .refuses) (rid : Rid) (addr : BarOff)
    (size : Nat) :
    exec (.timeLoRead ⟨.port p rid, addr, size⟩) s =
      .next ((s.portEvent p.val 0x2000 addr.toNat rid.toNat).emit (.cpl p.val 1 [] false)) := by
  simp [execTimeLoRead, receive_refuses h]

theorem read_timeHi_setCopy (s : State) (n : Nat) (w : Word) : (s.setCopy n 2 w).read n 0xA4 = w := by
  rw [read_timeHi, copy_setCopy_same]

/-- Settles O9: each size and alignment by its equation, the words by what `readWord` shows and latches. -/
theorem timeRead : Obligations.TimeRead := by
  intro s src addr hi n a
  refine ⟨fun hr => ⟨fun ha => ?_, fun h4 ha => ?_, fun h8 p rid hs => ?_,
    fun size p rid hs => exec_timeLoRead_misfit hr hs⟩, fun size p rid hs hm => ?_, read_timeHi_setCopy s n hi⟩
  · have ha' : addr.toNat = 0xA0 := ha
    have hx := exec_timeLoRead_4 hr (by omega)
    rw [ha', readWord_latch, if_pos rfl, read_timeLo] at hx
    refine ⟨fun p rid hs => ?_, fun eid ad sec hs => ?_⟩
    · subst hs
      exact hx.trans (congrArg Host.Outcome.next (answerRead_port_one ..))
    · subst hs
      exact hx.trans (congrArg Host.Outcome.next (answerRead_mgmt ..))
  · have hx := exec_timeLoRead_4 hr h4
    rw [readWord_latch, if_neg ha] at hx
    refine ⟨fun p rid hs => ?_, fun eid ad sec hs => ?_⟩
    · subst hs
      exact hx.trans (congrArg Host.Outcome.next (answerRead_port_one ..))
    · subst hs
      exact hx.trans (congrArg Host.Outcome.next (answerRead_mgmt ..))
  · subst hs
    have hx := exec_timeLoRead_8 hr h8
    rw [readWord_latch] at hx
    exact hx.trans (congrArg Host.Outcome.next (answerRead_port_two ..))
  · subst hs
    exact exec_timeLoRead_refuses hm rid addr size

end Sys2Proof.Machine
end

section
/-! Version negotiation (O15): IFVER_REQ is a D field of DEV, a page that always runs, so a write of it that takes effect is
the negotiation of R60 and R61. -/

namespace Sys2Proof.Machine

open Sys2Proof.Safety

/-- R60: GEN 1 with MAJOR 1 is accepted. -/
theorem ifverAnswer_accepts {v : Word} (hg : v.extractLsb' 28 4 = 1#4) (hm : v.extractLsb' 16 8 = 1#8) :
    ifverAnswer v = 0x10010001#32 := by
  have hg' : fget v 31 28 = 1 := (extractLsb'_eq_iff_fget v (by decide)).mp hg
  have hm' : fget v 23 16 = 1 := (extractLsb'_eq_iff_fget v (by decide)).mp hm
  simp [ifverAnswer, hg', hm', w32]

theorem ifverAnswer_refuses {v : Word} (h : v.extractLsb' 28 4 ≠ 1#4 ∨ v.extractLsb' 16 8 ≠ 1#8) :
    ifverAnswer v = 0x10010002#32 := by
  have h' : ¬ (fget v 31 28 = 1 && fget v 23 16 == 1) = true := by
    simp only [Bool.and_eq_true, decide_eq_true_eq, beq_iff_eq]
    exact fun ⟨hg, hm⟩ => h.elim (· ((extractLsb'_eq_iff_fget v (by decide)).mpr hg))
      (· ((extractLsb'_eq_iff_fget v (by decide)).mpr hm))
  exact if_neg h'

theorem regCmd_ifverReq {s : State} {p : Port} {rid : Rid} {v : Word} (h : takes s (.port p rid) 0x90 v = true) :
    s.regCmd (.port p rid) 0x90 v = (s.negotiate (.port p rid) p.val v).settleIdle := by
  obtain ⟨hreach, hx⟩ : reaches s (.port p rid) 0x90 v = true ∧ (s.txn (0x90 / 4096)).open_ = false := by
    simpa [takes] using h
  have hall : rwBits 0x90 (fun _ => true) ≠ 0 := by decide
  have hs : rwBits 0x90 (fun c => c == .s) = 0 := by decide
  have hd : rwBits 0x90 (fun c => c == .d) ≠ 0 := by decide
  calc s.regCmd (.port p rid) 0x90 v
    _ = ((s.act (.port p rid) .dev 0x90 v).writeRW (.port p rid) .dev 0x90 v).settleIdle :=
        regCmd_of_reaches (pg := .dev) hreach rfl
    _ = (s.writeRW (.port p rid) .dev 0x90 v).settleIdle := rfl
    _ = (s.plainWrite (.port p rid) .dev 0x90 v).settleIdle := by
      rw [writeRW_of_not_open hx hall (by decide) (by decide) (by decide)]
    _ = (s.applyRW (.port p rid) 0x90 (rwBits 0x90 (fun c => c == .d)) v).settleIdle := by
      simp only [State.plainWrite, Pg.always, if_true, hs, if_neg hd]
    _ = (s.negotiate (.port p rid) p.val v).settleIdle := rfl

theorem negotiate_answers {s : State} {src : Src} {p : Nat} {v : Word} (h : s.accepted p = false ∨ s.portHasCtx p = false) :
    s.negotiate src p v = (s.setCopy p 0 (v &&& 0xF0FFFF00#32)).setCopy p 1 (ifverAnswer v) :=
  if_neg (by rcases h with h | h <;> simp [h])

theorem negotiate_denies {s : State} {src : Src} {p : Nat} {v : Word} (ha : s.accepted p = true)
    (hc : s.portHasCtx p = true) : s.negotiate src p v = s.denyWrite src 0x90 :=
  if_pos (by simp [ha, hc])

/-- Settles O15: a write of IFVER_REQ that takes effect negotiates, and R60 and R61 divide its cases. -/
theorem versionNegotiation : Obligations.VersionNegotiation := by
  intro s p rid v h put
  have hx : exec (.ifverReqWrite p rid v) s = .next _ := congrArg Host.Outcome.next (regCmd_ifverReq h)
  refine ⟨fun hfree => ?_, fun ha hc => hx.trans (next_settleIdle (negotiate_denies ha hc))⟩
  have hans := hx.trans (next_settleIdle (negotiate_answers hfree))
  exact ⟨fun hg hm => by rw [hans, ifverAnswer_accepts hg hm], fun hno => by rw [hans, ifverAnswer_refuses hno]⟩

end Sys2Proof.Machine
end

section
/-! The micro-operation rows (O34): what a row does with a RUN in progress and without one, and that the operation in every
unit is its own of R102. -/

namespace Sys2Proof.Machine

/-! ### A micro-operation row (R102, R104, R113) -/

/-- The row's own operation stands in the word that it hands on. -/
theorem uOp_fset (u : Word) {op : Nat} (h : op < 32) : uOp (fset u 31 27 op) = op := by
  have hu := u.isLt
  simp only [uOp, fget, bitsOf, fset, BitVec.toNat_ofNat, Nat.shiftRight_eq_div_pow]
  omega

theorem unitRow_idle {s : State} {t : Nat} (h : (s.tower t).bench.run = none) (op : Nat) (u : Word) :
    s.unitRow t op u = s := by
  simp only [State.unitRow, h]

section
variable {s : State} {t op : Nat} {u : Word} {d : Desc} (hrun : (s.tower t).bench.run = some d)
include hrun

theorem unitRow_reserved (hv : uValid (dbit d 1 21) (fset u 31 27 op) = false) :
    s.unitRow t op u = ((s.bnRefuse t d 0).modBench t (fun b => { b with run := none })).settleIdle := by
  simp only [State.unitRow, hrun, hv, Bool.not_false, if_true]

theorem unitRow_runs {v : State} (ho : op < 32) (hv : uValid (dbit d 1 21) (fset u 31 27 op) = true)
    (h : uOp (fset u 31 27 op) = op →
      s.unitOp ⟨t, d, setBanks (s.tower t).bench.rows, (s.tower t).bench.iter, 0⟩ (fset u 31 27 op) = (v, none)) :
    s.unitRow t op u = v := by
  simp only [State.unitRow, hrun, hv, h (uOp_fset u ho), Bool.not_true, Bool.false_eq_true, if_false]

/-- R303: a record whose write is refused fails the submission. -/
theorem unitRow_fails {v : State} {cause : Nat} (ho : op < 32) (hv : uValid (dbit d 1 21) (fset u 31 27 op) = true)
    (h : uOp (fset u 31 27 op) = op →
      s.unitOp ⟨t, d, setBanks (s.tower t).bench.rows, (s.tower t).bench.iter, 0⟩ (fset u 31 27 op) = (v, some cause)) :
    s.unitRow t op u = (v.failSub (bnKey t) cause (v.qGet (bnKey t)).idx (dfld d 0 6 0)).settleIdle := by
  simp only [State.unitRow, hrun, hv, h (uOp_fset u ho), Bool.not_true, Bool.false_eq_true, if_false]

end

/-- Settles O34: each row hands `unitOp` its own operation, whose branch of R102 answers no cause but for OUT. -/
theorem unitOperations : Obligations.UnitOperations := by
  intro s t u b as
  refine ⟨fun h => ?_, ?_⟩
  · exact ⟨congrArg Host.Outcome.next (unitRow_idle h 4 u), congrArg Host.Outcome.next (unitRow_idle h 21 u)⟩
  intro d hrun c i ok
  have runs {op : Nat} {v : State} (ho : op < 32) (hv : ok op) (h : uOp (as op) = op → s.unitOp c (as op) = (v, none)) :
      (.next (s.unitRow t.val op u) : Host.Outcome State Fault Refusal) = .next v :=
    congrArg Host.Outcome.next (unitRow_runs hrun ho hv h)
  refine ⟨fun hv => congrArg Host.Outcome.next (unitRow_reserved hrun hv), ?_, ?_, ?_, ?_, ?_, ?_, ?_, ?_, ?_, ?_, ?_, ?_, ?_,
    ?_, ?_, ?_, ?_, ?_, ?_, ?_, ?_, fun hv hn => ?out, fun cause hv hc => ?fails⟩
  case out => exact runs (by decide) hv (fun h => by simp only [State.unitOp, h]; exact Prod.ext rfl hn)
  case fails =>
    exact congrArg Host.Outcome.next (unitRow_fails hrun (by decide) hv (fun h => by
      simp only [State.unitOp, h]; exact Prod.ext rfl hc))
  -- the rows without OUT: the branch of `unitOp` for each is the operation that the statement names
  all_goals exact fun hv => runs (by decide) hv (fun h => by simp only [State.unitOp, h, i])

end Sys2Proof.Machine
end

section
/-! The lanes of a unit (O35): a lane-wise operation on registers reaches each engaged unit once, and writes its register D
lane by lane. -/

namespace Sys2Proof.Machine

/-! ### Sets of numbers and counted loops -/

theorem smem_sadd (l : List Nat) (k x : Nat) : smem (sadd l k) x = (decide (x = k) || smem l x) := by
  simp [smem, mem_sadd]

theorem smem_sdel (l : List Nat) (k x : Nat) : smem (sdel l k) x = (decide (x ≠ k) && smem l x) := by
  rw [Bool.eq_iff_iff]
  simp [smem, sdel, and_comm]

theorem forN_succ {σ : Type} (n : Nat) (a : σ) (f : σ → Nat → σ) : forN (n + 1) a f = f (forN n a f) n := by
  simp [forN, List.range_succ]

/-! ### Lanes and masks of a unit (R99) -/

theorem laneAt_reg (x : UnitSt) (r : Nat) {l : Nat} (h : l < 16) :
    laneAt (x.reg r) l = ((mget 0 x.v (r * 16 + l)).toNat, smem x.vp (r * 16 + l)) := by
  simp [laneAt, UnitSt.reg, h]

/-- A lane of 32 bits keeps the value modulo 2³² and the poison. -/
theorem laneAt_reg_setLane_same (x : UnitSt) (r : Nat) {l : Nat} (h : l < 16) (w : Lane) :
    laneAt ((x.setLane r l w).reg r) l = (w.1 % 2 ^ 32, w.2) := by
  rw [laneAt_reg _ _ h]
  cases hw : w.2 <;> simp [UnitSt.setLane, w32, hw, smem_sadd, smem_sdel]

theorem laneAt_reg_setLane_other (x : UnitSt) {r r' l l' : Nat} (h : l < 16) (h' : l' < 16) (w : Lane)
    (hne : r' ≠ r ∨ l' ≠ l) : laneAt ((x.setLane r l w).reg r') l' = laneAt (x.reg r') l' := by
  have hk : r' * 16 + l' ≠ r * 16 + l := by omega
  rw [laneAt_reg _ _ h', laneAt_reg _ _ h']
  cases hw : w.2 <;> simp [UnitSt.setLane, hw, smem_sadd, smem_sdel, mget_mset_other _ _ _ hk, hk]

theorem mbit_setLane (x : UnitSt) (r l k j : Nat) (w : Lane) : (x.setLane r l w).mbit k j = x.mbit k j := rfl

/-- Register r of y holds lane by lane what w says, in 32 bits; every other register, and the masks, are those of x. -/
def HoldsLanes (x y : UnitSt) (r : Nat) (w : Nat → Lane) : Prop :=
  ∀ l, l < 16 → laneAt (y.reg r) l = ((w l).1 % 2 ^ 32, (w l).2) ∧
    (∀ r', r' ≠ r → laneAt (y.reg r') l = laneAt (x.reg r') l) ∧ ∀ k, y.mbit k l = x.mbit k l

/-- A loop that writes lane after lane of a register, whatever it counts beside. -/
theorem holdsLanes_forN {σ : Type} (x : UnitSt) (c : σ) (r : Nat) (w : Nat → Lane) (g : UnitSt × σ → Nat → σ) :
    HoldsLanes x (forN 16 (x, c) (fun p l => (p.1.setLane r l (w l), g p l))).1 r w := by
  have upto (n : Nat) (hn : n ≤ 16) : ∀ l, l < 16 →
      let y := (forN n (x, c) (fun p l => (p.1.setLane r l (w l), g p l))).1
      (l < n → laneAt (y.reg r) l = ((w l).1 % 2 ^ 32, (w l).2)) ∧
      (∀ r', r' ≠ r → laneAt (y.reg r') l = laneAt (x.reg r') l) ∧ ∀ k, y.mbit k l = x.mbit k l := by
    induction n with
    | zero => exact fun l _ => ⟨fun h => absurd h (Nat.not_lt_zero l), fun _ _ => rfl, fun _ => rfl⟩
    | succ n ih =>
      intro l hl
      obtain ⟨hlane, hreg, hmask⟩ := ih (by omega) l hl
      simp only [forN_succ]
      refine ⟨fun hln => ?_, fun r' hr => ?_, hmask⟩
      · by_cases he : l = n
        · subst he
          exact laneAt_reg_setLane_same _ _ hl _
        · rw [laneAt_reg_setLane_other _ (by omega) hl _ (.inr he)]
          exact hlane (by omega)
      · rw [laneAt_reg_setLane_other _ (by omega) hl _ (.inl hr)]
        exact hreg r' hr
  intro l hl
  obtain ⟨hlane, hrest⟩ := upto 16 (Nat.le_refl _) l hl
  exact ⟨hlane hl, hrest⟩

/-! ### What the statistics of a micro-operation leave -/

@[simp] theorem State.raiseVec_tw (s : State) (p v : Nat) : (s.raiseVec p v).tw = s.tw := by
  unfold State.raiseVec
  split <;> rfl

theorem foldl_tw {β : Type} (l : List β) (f : State → β → State) (h : ∀ s x, (f s x).tw = s.tw) (s : State) :
    (l.foldl f s).tw = s.tw := by
  induction l generalizing s with
  | nil => rfl
  | cons x l ih => exact (ih _).trans (h s x)

@[simp] theorem State.pageIrq_tw (s : State) (pg : Pg) : (s.pageIrq pg).tw = s.tw := by
  unfold State.pageIrq
  split
  · exact State.raiseVec_tw ..
  · split
    · split
      · exact State.raiseVec_tw ..
      · rfl
    · refine foldl_tw _ _ (fun s p => ?_) s
      split
      · exact State.raiseVec_tw ..
      · rfl

@[simp] theorem State.flagErr_tw (s : State) (pg : Pg) (bit qual sev : Nat) (ctx : Option Nat) (addr info : Nat) :
    (s.flagErr pg bit qual sev ctx addr info).tw = s.tw := by
  unfold State.flagErr
  dsimp only
  split
  · rw [State.pageIrq_tw]; rfl
  · rfl

@[simp] theorem State.nonfin_tw (s : State) (st n : Nat) : (s.nonfin st n).tw = s.tw := by
  unfold State.nonfin
  split <;> rfl

@[simp] theorem State.unitStats_tw (s : State) (t sat inf : Nat) : (s.unitStats t sat inf).tw = s.tw := by
  unfold State.unitStats
  dsimp only
  rw [State.nonfin_tw]
  split
  · rfl
  · rw [State.flagErr_tw, State.bump_tw]

@[simp] theorem State.unitSt_unitStats (s : State) (t sat inf t' n : Nat) :
    (s.unitStats t sat inf).unitSt t' n = s.unitSt t' n := by
  simp only [State.unitSt, State.tower, State.unitStats_tw]

@[simp] theorem State.unitSt_setUnitSt_same (s : State) (t n : Nat) (x : UnitSt) : (s.setUnitSt t n x).unitSt t n = x := by
  simp [State.unitSt, State.setUnitSt, State.modBench]

theorem State.unitSt_setUnitSt_other (s : State) (t : Nat) {n m : Nat} (x : UnitSt) (h : m ≠ n) :
    (s.setUnitSt t n x).unitSt t m = s.unitSt t m := by
  simp [State.unitSt, State.setUnitSt, State.modBench, mget_mset_other _ _ _ h]

/-! ### A lane-wise operation on registers (R101, R102, R125) -/

/-- The source of a register, or the empty one of an operation that does not read it. -/
def UnitSt.regSrc (x : UnitSt) (reads : Bool) (r : Nat) : UnitSrc := if reads then ⟨x.reg r, []⟩ else ⟨[], []⟩

theorem regSrc_at (x : UnitSt) (reads : Bool) (r l : Nat) :
    (x.regSrc reads r).at l = if reads then laneAt (x.reg r) l else (0, false) := by
  cases reads <;> rfl

/-- Sources that are registers are those of the unit, and leave the state. -/
theorem sources_of_registers {u : Word} (ha : uAsrc u = 0) (hb : uBsrc u = 0) (s : State) (c : UCtx) (k : Bk) (g : Nat)
    (x : UnitSt) : s.sources c u k g x = (x.regSrc (uReadsA (uOp u)) (uA u), x.regSrc (uReadsB (uOp u)) (uB u), s) := by
  cases hA : uReadsA (uOp u) <;> cases hB : uReadsB (uOp u) <;>
    simp [State.sources, State.source, UnitSt.regSrc, ha, hb, hA, hB]

/-- Steps that each act on one unit, no unit twice, leave each unit as its own step does. -/
theorem foldl_distinct_units {t : Nat} {step : State → Bk × Nat → State} {P : UnitSt → UnitSt → Prop}
    (own : ∀ s p, P (s.unitSt t (bkUnit p.1 p.2)) ((step s p).unitSt t (bkUnit p.1 p.2)))
    (others : ∀ s p n, n ≠ bkUnit p.1 p.2 → (step s p).unitSt t n = s.unitSt t n) (l : List (Bk × Nat))
    (hd : (l.map (fun p => bkUnit p.1 p.2)).Nodup) (s : State) :
    (∀ p ∈ l, P (s.unitSt t (bkUnit p.1 p.2)) ((l.foldl step s).unitSt t (bkUnit p.1 p.2))) ∧
    ∀ n, n ∉ l.map (fun p => bkUnit p.1 p.2) → (l.foldl step s).unitSt t n = s.unitSt t n := by
  induction l generalizing s with
  | nil => simp
  | cons q l ih =>
    rw [List.map_cons, List.nodup_cons] at hd
    obtain ⟨hq, hl⟩ := hd
    obtain ⟨hin, hout⟩ := ih hl (step s q)
    refine ⟨fun p hp => ?_, fun n hn => ?_⟩
    · rcases List.mem_cons.mp hp with rfl | hp
      · rw [List.foldl_cons, hout _ hq]
        exact own s p
      · have hne : bkUnit p.1 p.2 ≠ bkUnit q.1 q.2 := fun h => hq (List.mem_map.mpr ⟨p, hp, h⟩)
        rw [List.foldl_cons, ← others s q _ hne]
        exact hin p hp
    · rw [List.map_cons, List.mem_cons, not_or] at hn
      rw [List.foldl_cons, hout n hn.2, others s q n hn.1]

/-- R101, R102: lane by lane the result of A and B, poisoned where either was. -/
def laneResult (u : Word) (f : Nat → Nat → FR) (x : UnitSt) (l : Nat) : Lane :=
  let a := if uReadsA (uOp u) then laneAt (x.reg (uA u)) l else (0, false)
  let b := if uReadsB (uOp u) then laneAt (x.reg (uB u)) l else (0, false)
  ((f a.1 b.1).v, a.2 || b.2)

/-- Without a mask and with registers for sources, a lane-wise operation that does not read D leaves its results in D. -/
theorem laneOp_holdsLanes {s : State} {c : UCtx} {u : Word} {f : Nat → Nat → FR} (ha : uAsrc u = 0) (hb : uBsrc u = 0)
    (hm : uMen u = false) (hd : (c.units.map (fun p => bkUnit p.1 p.2)).Nodup) :
    ∀ p ∈ c.units, HoldsLanes (s.unitSt c.t (bkUnit p.1 p.2))
      ((s.laneOp c u false (fun a b _ => f a b)).unitSt c.t (bkUnit p.1 p.2)) (uD u)
      (laneResult u f (s.unitSt c.t (bkUnit p.1 p.2))) := by
  unfold State.laneOp
  refine (foldl_distinct_units (P := fun x y => HoldsLanes x y (uD u) (laneResult u f x)) (fun s p => ?own)
    (fun s p n hn => ?others) _ hd s).1
  case own =>
    obtain ⟨k, g⟩ := p
    simp only [sources_of_registers ha hb, State.unitSt_unitStats, State.unitSt_setUnitSt_same, UnitSt.gov, hm,
      Bool.false_eq_true, if_false, if_true, regSrc_at, Bool.false_and, Bool.or_false]
    exact holdsLanes_forN _ _ _ (laneResult u f _) _
  case others =>
    obtain ⟨k, g⟩ := p
    simp only [sources_of_registers ha hb, State.unitSt_unitStats]
    exact State.unitSt_setUnitSt_other _ _ _ hn

/-- Settles O35: each of the six rows is a lane-wise operation on registers, and its results stand in D. -/
theorem unitLaneResults : Obligations.UnitLaneResults := by
  intro s t u d b c i as hrun hd op cmd twoSources hmem f hv ha hb hm
  obtain ⟨-, -, -, hmul, -, hadd, hsub, hmax, hmin, -, -, -, -, -, -, -, -, -, -, hmov, -⟩ :=
    (unitOperations s t u).2 d hrun
  have row : op < 32 ∧ exec cmd s = .next (s.laneOp c (as op) false (fun a b _ => f a b)) ∧
      uReadsA op = true ∧ uReadsB op = twoSources := by
    simp only [List.mem_cons, Prod.mk.injEq, List.not_mem_nil, or_false] at hmem
    obtain ⟨rfl, rfl, rfl⟩ | ⟨rfl, rfl, rfl⟩ | ⟨rfl, rfl, rfl⟩ | ⟨rfl, rfl, rfl⟩ | ⟨rfl, rfl, rfl⟩ | ⟨rfl, rfl, rfl⟩ := hmem
    · exact ⟨by decide, hmul hv, rfl, rfl⟩
    · exact ⟨by decide, hadd hv, rfl, rfl⟩
    · exact ⟨by decide, hsub hv, rfl, rfl⟩
    · exact ⟨by decide, hmax hv, rfl, rfl⟩
    · exact ⟨by decide, hmin hv, rfl, rfl⟩
    · exact ⟨by decide, hmov hv, rfl, rfl⟩
  obtain ⟨ho, hx, hA, hB⟩ := row
  refine ⟨_, hx, fun p hp l hl => ?_⟩
  obtain ⟨hlane, hreg, hmask⟩ := laneOp_holdsLanes (f := f) ha hb hm hd p hp l hl
  refine ⟨?_, fun r _ hr => hreg r hr, hmask⟩
  simpa only [laneResult, as, uOp_fset u ho, hA, hB, if_true] using hlane

end Sys2Proof.Machine
end

section
/-! The rows of the bench queue (O36, O37): what SETLOAD, BLOAD and RUN leave once they begin, and the boundary of a RUN. -/

namespace Sys2Proof.Machine

open Sys2Proof.Safety

/-- A command of the bench queue whose effect is v: it has the effect and what that leaves due takes effect, or it waits as
a whole where its accesses met a channel that takes no request. -/
def EndsBench (cmd : Instr) (s v : State) : Prop :=
  (v.hit = false → exec cmd s = .next ({ v with hit := s.hit } : State).settleIdle) ∧
  (v.hit = true → exec cmd s = .next s.settleIdle)

/-- A BN descriptor that begins in u ends as its body leaves u. -/
theorem endsBench_of_body {cmd : Instr} {s u v : State} {t kind : Nat} {d : Desc} {body : State → State}
    (hx : exec cmd s = .next (s.bnRow t kind d body)) (hk : dfld d 1 25 24 = kind) (h3 : kind ≠ 3)
    (h : bnBegin s t d = some u) (hv : body u = v) : EndsBench cmd s v := by
  obtain ⟨hrun, hwait⟩ := bnRow_run hk h3 h hv
  exact ⟨fun c => by rw [hx, hrun c], fun c => by rw [hx, hwait c]⟩

/-! ### SETLOAD (R105, R110, R113) -/

/-- The reserved fields of a SETLOAD are 0. -/
def SetloadForm (d : Desc) : Prop := dfld d 1 23 23 = 0 ∧ dfld d 1 21 0 = 0 ∧ dzero d 2 3 = true ∧ dzero d 6 15 = true

/-- What a SETLOAD reads in u: the bytes of its list, whether they may be read, and the state. -/
def setloadRead (u : State) (t : Nat) (d : Desc) : List PB × Acx × State :=
  u.load ((u.bnActor t).who false) (d64 d 4) 128

section
variable {s u : State} {t : Tower} {d : Desc} (h : bnBegin s t.val d = some u) (hk : dfld d 1 25 24 = 1)
include h hk

theorem bnSetload_stores {es : List SetE} (hf : SetloadForm d) (hm : u.bnMem t.val (d64 d 4) 128 = true)
    (ha : (setloadRead u t.val d).2.1 = .ok) (hp : (setloadRead u t.val d).1.any (·.2) = false)
    (hes : parseSet (wordsOf 32 ((setloadRead u t.val d).1.map (·.1))) = some es)
    (hle : es.length ≤ (setloadRead u t.val d).2.2.maxBanks t.val) :
    EndsBench (.bnSetload t d) s
      ((setloadRead u t.val d).2.2.modBench t.val (fun b => { b with sets := mset [] b.sets (dfld d 1 31 26) es })) := by
  obtain ⟨h23, h21, hz2, hz6⟩ := hf
  refine endsBench_of_body exec_bnSetload hk (by decide) h ?_
  unfold setloadRead at *
  simp [h23, h21, hz2, hz6, hm, ha, hp, hes, Nat.not_lt.mpr hle]

/-- A list that is no set is refused with SET_INVALID beside REFUSED. -/
theorem bnSetload_refuses_set (hf : SetloadForm d) (hm : u.bnMem t.val (d64 d 4) 128 = true)
    (ha : (setloadRead u t.val d).2.1 = .ok) (hp : (setloadRead u t.val d).1.any (·.2) = false)
    (hes : parseSet (wordsOf 32 ((setloadRead u t.val d).1.map (·.1))) = none) :
    EndsBench (.bnSetload t d) s ((setloadRead u t.val d).2.2.bnRefuse t.val d 20) := by
  obtain ⟨h23, h21, hz2, hz6⟩ := hf
  refine endsBench_of_body exec_bnSetload hk (by decide) h ?_
  unfold setloadRead at *
  simp [h23, h21, hz2, hz6, hm, ha, hp, hes]

theorem bnSetload_refuses (hb : ¬ SetloadForm d ∨ u.bnMem t.val (d64 d 4) 128 = false) :
    EndsBench (.bnSetload t d) s (u.bnRefuse t.val d 0) := by
  refine endsBench_of_body exec_bnSetload hk (by decide) h (if_pos (Decidable.byContradiction fun hc => ?_))
  obtain ⟨hf, hm⟩ : SetloadForm d ∧ u.bnMem t.val (d64 d 4) 128 = true := by
    simpa [SetloadForm, and_assoc] using hc
  exact hb.elim (· hf) (by simp [hm])

end

/-! ### BLOAD (R106, R110, R113) -/

/-- The reserved fields of a BLOAD are 0. -/
def BloadForm (d : Desc) : Prop :=
  dfld d 1 31 26 = 0 ∧ dfld d 1 23 23 = 0 ∧ dfld d 1 21 0 = 0 ∧ dfld d 2 31 11 = 0 ∧ dzero d 3 3 = true ∧
  dzero d 7 15 = true

/-- R110: a BLOAD writes whole vectors within the broadcast buffer. -/
def BloadFits (d : Desc) : Prop :=
  0 < (dw d 6).toNat ∧ (dw d 6).toNat % 32 = 0 ∧ dfld d 2 10 0 * 32 + (dw d 6).toNat ≤ 65536

/-- The broadcast buffer with n bytes bs, and the poison of their vectors, from vector v on. -/
def Bench.fillBcast (b : Bench) (v n : Nat) (bs : List PB) : Bench :=
  { b with
    bcast := forN n b.bcast (fun m i => mset 0 m (v * 32 + i) (bs.getD i (0, false)).1),
    bcastP := forN (n / 32) b.bcastP (fun l j =>
      if ((bs.drop (32 * j)).take 32).any (·.2) then sadd l (v + j) else sdel l (v + j)) }

section
variable {s u : State} {t : Tower} {d : Desc} (h : bnBegin s t.val d = some u) (hk : dfld d 1 25 24 = 2)
include h hk

theorem bnBload_stores (hf : BloadForm d) (hs : BloadFits d) (hm : u.bnMem t.val (d64 d 4) (dw d 6).toNat = true)
    (ha : (u.load ((u.bnActor t.val).who false) (d64 d 4) (dw d 6).toNat).2.1 = .ok) :
    EndsBench (.bnBload t d) s
      (let r := u.load ((u.bnActor t.val).who false) (d64 d 4) (dw d 6).toNat
       r.2.2.modBench t.val (fun b => b.fillBcast (dfld d 2 10 0) (dw d 6).toNat r.1)) := by
  obtain ⟨h31, h23, h21, h2, hz3, hz7⟩ := hf
  obtain ⟨hpos, hmod, hend⟩ := hs
  refine endsBench_of_body exec_bnBload hk (by decide) h ?_
  simp [h31, h23, h21, h2, hz3, hz7, Nat.ne_of_gt hpos, hmod, Nat.not_lt.mpr hend, hm, ha, Bench.fillBcast]

theorem bnBload_refuses (hb : ¬ BloadForm d ∨ ¬ BloadFits d ∨ u.bnMem t.val (d64 d 4) (dw d 6).toNat = false) :
    EndsBench (.bnBload t d) s (u.bnRefuse t.val d 0) := by
  refine endsBench_of_body exec_bnBload hk (by decide) h (if_pos (Decidable.byContradiction fun hc => ?_))
  obtain ⟨hf, hs, hm⟩ : BloadForm d ∧ BloadFits d ∧ u.bnMem t.val (d64 d 4) (dw d 6).toNat = true := by
    simpa [BloadForm, BloadFits, and_assoc, Nat.pos_iff_ne_zero] using hc
  exact hb.elim (· hf) (·.elim (· hs) (by simp [hm]))

end

/-- Settles O36: a load that begins is stored where its fields, range and bytes are legal, and otherwise refused. -/
theorem benchLoads : Obligations.BenchLoads := by
  intro s u t d h da len boff runs
  refine ⟨fun hk => ?_, fun hk => ?_⟩
  · intro rsv r
    exact ⟨fun hf hm ha hp => ⟨fun es hes hle => bnSetload_stores h hk hf hm ha hp hes hle,
      fun hes => bnSetload_refuses_set h hk hf hm ha hp hes⟩, bnSetload_refuses h hk⟩
  · intro rsv size r
    exact ⟨bnBload_stores h hk, bnBload_refuses h hk⟩

/-! ### RUN (R106, R107, R113, R116, R129) -/

/-- The set that a RUN names. -/
def runSet (u : State) (t : Nat) (d : Desc) : List SetE := mget [] (u.tower t).bench.sets (dfld d 1 31 26)

/-- The fields of a RUN obey R113, and it names a set of the program within MAX_BANKS. -/
def RunLegal (u : State) (t : Nat) (d : Desc) : Prop :=
  runBad d = false ∧ runSet u t d ≠ [] ∧ (runSet u t d).length ≤ u.maxBanks t

/-- R111: the OUT records of a RUN, where it has any, lie where its descriptor says they may. -/
def RunRecords (u : State) (t : Nat) (d : Desc) : Prop :=
  outSize (runSet u t d) d = 0 ∨
    (outSize (runSet u t d) d ≤ (dw d 6).toNat ∧ u.bnMem t (d64 d 4) (outSize (runSet u t d) d) = true)

/-- R116: tCMD of a RUN. -/
def runTime (u : State) (t : Nat) (d : Desc) : Nat := tCmd (u.actWin t) (runSet u t d) d

/-- R129: a RUN that may not engage its banks yet: what is open closes, and the descriptor, counted, stays at the head. -/
def State.runWaits (v : State) (t : Nat) : State :=
  let w := (v.closeSet t).modBench t (fun b => { b with taken := true })
  w.qSet (bnKey t) { w.qGet (bnKey t) with go := true }

/-- R106, R107, R121: the set of a RUN is open, where a chained boundary did not leave it so, and the RUN is in progress. -/
def State.runOpens (u : State) (t : Nat) (d : Desc) : State :=
  (if (u.tower t).bench.rows = runSet u t d then u else (u.closeSet t).openSet t (u.actWin t) (runSet u t d)).modBench t
    (fun b => { b with run := some d, rows := runSet u t d, outN := 0, paused := false })

/-- The loop of a RUN that begins. -/
def State.runLoops (u : State) (t : Nat) (d : Desc) : State × Option Nat :=
  (u.runOpens t d).runLoop t d (setBanks (runSet u t d))

/-- What the model asks of a RUN first. -/
theorem runLegal_iff {u : State} {t : Nat} {d : Desc} : RunLegal u t d ↔
    ¬ (runBad d || (runSet u t d).isEmpty || decide (u.maxBanks t < (runSet u t d).length)) = true := by
  simp [RunLegal, and_assoc]

/-- What the model asks of its OUT records. -/
theorem runRecords_iff {u : State} {t : Nat} {d : Desc} : RunRecords u t d ↔
    ¬ (decide (0 < outSize (runSet u t d) d) && (decide ((dw d 6).toNat < outSize (runSet u t d) d) ||
      !u.bnMem t (d64 d 4) (outSize (runSet u t d) d))) = true := by
  rw [RunRecords, Decidable.or_iff_not_imp_left]
  simp [Nat.pos_iff_ne_zero]

section
variable {s u : State} {t : Tower} {d : Desc} (h : bnBegin s t.val d = some u) (hk : dfld d 1 25 24 = 0)
include h hk

theorem bnRun_refuses_illegal (hl : ¬ RunLegal u t.val d) : EndsBench (.bnRun t d) s (u.bnRefuse t.val d 0) :=
  endsBench_of_body exec_bnRun hk (by decide) h (if_pos (Decidable.not_not.mp (mt runLegal_iff.mpr hl)))

variable (hl : RunLegal u t.val d)
include hl

/-- A RUN longer than 1,500 ns is refused with BOUND beside REFUSED. -/
theorem bnRun_refuses_bound (ht : 1500 < runTime u t.val d) : EndsBench (.bnRun t d) s (u.bnRefuse t.val d 19) :=
  endsBench_of_body exec_bnRun hk (by decide) h ((if_neg (runLegal_iff.mp hl)).trans (if_pos ht))

variable (ht : runTime u t.val d ≤ 1500)
include ht

theorem bnRun_refuses_records (hr : ¬ RunRecords u t.val d) : EndsBench (.bnRun t d) s (u.bnRefuse t.val d 0) :=
  endsBench_of_body exec_bnRun hk (by decide) h <|
    (if_neg (runLegal_iff.mp hl)).trans <| (if_neg (Nat.not_lt.mpr ht)).trans <|
    if_pos (Decidable.not_not.mp (mt runRecords_iff.mpr hr))

variable (hr : RunRecords u t.val d)
include hr

theorem bnRun_waits_for_banks (he : (u.tower t.val).effBanks < (runSet u t.val d).length) : EndsBench (.bnRun t d) s
    ((u.modBench t.val (fun b => { b with wait := some (b.wait.getD u.time) })).runWaits t.val) :=
  endsBench_of_body exec_bnRun hk (by decide) h <|
    (if_neg (runLegal_iff.mp hl)).trans <| (if_neg (Nat.not_lt.mpr ht)).trans <|
    (if_neg (runRecords_iff.mp hr)).trans <| if_pos he

variable (he : (runSet u t.val d).length ≤ (u.tower t.val).effBanks) (hw : (u.tower t.val).bench.wait = none)
include he hw

theorem bnRun_waits_for_retrain (hb : u.setBlocked t.val (runSet u t.val d) = true) :
    EndsBench (.bnRun t d) s (u.runWaits t.val) := by
  refine endsBench_of_body exec_bnRun hk (by decide) h <|
    (if_neg (runLegal_iff.mp hl)).trans <| (if_neg (Nat.not_lt.mpr ht)).trans <|
    (if_neg (runRecords_iff.mp hr)).trans <| (if_neg (Nat.not_lt.mpr he)).trans ?_
  simp only [hw]
  exact if_pos hb

variable (hb : u.setBlocked t.val (runSet u t.val d) = false)
include hb

/-- The loop of a RUN that may engage its banks runs; a refused write of a record fails the submission (R303). -/
theorem bnRun_loops {v : State}
    (hv : (u.runLoops t.val d).2.elim (u.runLoops t.val d).1 (fun cause =>
      (u.runLoops t.val d).1.failSub (bnKey t.val) cause ((u.runLoops t.val d).1.qGet (bnKey t.val)).idx (dfld d 0 6 0)) = v) :
    EndsBench (.bnRun t d) s v := by
  refine endsBench_of_body exec_bnRun hk (by decide) h <|
    (if_neg (runLegal_iff.mp hl)).trans <| (if_neg (Nat.not_lt.mpr ht)).trans <|
    (if_neg (runRecords_iff.mp hr)).trans <| (if_neg (Nat.not_lt.mpr he)).trans ?_
  simp only [hw]
  refine (if_neg (Bool.eq_false_iff.mp hb)).trans (Eq.trans ?_ hv)
  change (match (u.runLoops t.val d).2 with | none => _ | some cause => _) = _
  cases (u.runLoops t.val d).2 <;> rfl

end

/-! ### The boundary of a RUN (R121, R122) -/

/-- A bank of the set owes four refreshes or more (R122). -/
def State.setOwes (s : State) (t : Nat) (es : List SetE) : Bool :=
  (setBanks es).any (fun k => decide (4 ≤ ((s.chan t (s.bkChan t k)).bank (bkB k)).owed))

/-- The RUN in progress is over and counted; p says whether its program pauses. -/
def State.runEnds (s : State) (t : Nat) (d : Desc) (p : Bool) : State :=
  (s.countRun t (tCmd (s.actWin t) (s.tower t).bench.rows d)).modBench t (fun b => { b with run := none, paused := p })

section
variable {s : State} {t : Tower} {d : Desc}

theorem bnRunComplete_idle (h : (s.tower t.val).bench.run = none) : exec (.bnRunComplete t) s = .next s := by
  simp only [exec_bnRunComplete, execBnRunComplete, h]

variable (hrun : (s.tower t.val).bench.run = some d)
include hrun

/-- A RUN that chains leaves its rows open. -/
theorem bnRunComplete_chains (hc : s.chains t.val d = true) :
    exec (.bnRunComplete t) s = .next (s.runEnds t.val d false).settleIdle := by
  simp only [exec_bnRunComplete, execBnRunComplete, hrun, hc, Bool.not_true, Bool.and_false, Bool.false_eq_true, if_false,
    if_true, State.runEnds]

/-- A RUN that does not chain closes its rows; a pause is counted, and so is a CHAIN that was not kept. -/
theorem bnRunComplete_closes (hc : s.chains t.val d = false) :
    exec (.bnRunComplete t) s =
      (let p := s.setOwes t.val (s.tower t.val).bench.rows
       let closed := (s.runEnds t.val d p).closeSet t.val
       let kept := if p then closed.bump (bsqR t.val 0xA8) 1 else closed
       .next (if dbit d 1 23 then kept.bump (bsqR t.val 0xAC) 1 else kept).settleIdle) := by
  simp only [exec_bnRunComplete, execBnRunComplete, hrun, hc, Bool.not_false, Bool.and_true]
  rfl

end

/-- Settles O37: the checks of R113 and R116 in their order, then what R106 and R129 let the RUN do; and its boundary. -/
theorem benchRuns : Obligations.BenchRuns := by
  intro s u t d
  refine ⟨fun h hk => ?_, fun e hrun => ⟨bnRunComplete_chains hrun, bnRunComplete_closes hrun⟩, bnRunComplete_idle⟩
  intro b es n legal records runs waits
  refine ⟨bnRun_refuses_illegal h hk, bnRun_refuses_bound h hk, bnRun_refuses_records h hk, fun hl ht hr => ?_⟩
  refine ⟨bnRun_waits_for_banks h hk hl ht hr, bnRun_waits_for_retrain h hk hl ht hr, fun he hw hb => ?_⟩
  exact ⟨fun hn => bnRun_loops h hk hl ht hr he hw hb (congrArg (Option.elim · _ _) hn),
    fun cause hn => bnRun_loops h hk hl ht hr he hw hb (congrArg (Option.elim · _ _) hn)⟩

end Sys2Proof.Machine
end

section
/-! The MX row (O41): what an MX descriptor leaves when its head lets it run, refuses it or finds it bad, and the three ends
of one that begins: held, run, or denied by a key. -/

namespace Sys2Proof.Machine

open Sys2Proof.Safety

/-! ### An engine row that ends with what it leaves due (R265 to R267) -/

/-- A command of an engine queue whose effect is v: it has the effect and what that leaves due, or it waits as a whole where
its accesses met a channel that takes no request. -/
def EndsEngine (cmd : Instr) (s v : State) : Prop :=
  (v.settleIdle.hit = false → exec cmd s = .next { v.settleIdle with hit := s.hit }) ∧
  (v.settleIdle.hit = true → exec cmd s = .next s)

/-- A descriptor of a core queue of another family or version, at the head of its queue. -/
theorem engineRow_refuse {s w v : State} {k fam op code bit : Nat} {legal : List Nat} {d : Desc} {ok : State → Bool}
    {body : State → State} (ho : op = code) (hl : legal.contains code = true) (hk : k / 8 < 10240)
    (h : ({ s with hit := false } : State).head k fam ok d = .refuse w) (hv : (w.failDesc k 19 1 d).settleIdle = v) :
    (v.hit = false → s.engineRow k fam op code legal bit d ok body = { v with hit := s.hit }) ∧
    (v.hit = true → s.engineRow k fam op code legal bit d ok body = s) := by
  subst ho
  unfold State.engineRow
  exact orWait_cases ((rowAt_refuse (fun _ => rfl) hk (by simpa only [hl, Bool.true_and] using h)).trans hv)

/-- A command that answers the state r ends in v where r is what v leaves, with the mark as it was, or the state itself. -/
theorem endsEngine_of_row {cmd : Instr} {s r v : State} (hx : exec cmd s = .next r)
    (h : (v.settleIdle.hit = false → r = { v.settleIdle with hit := s.hit }) ∧ (v.settleIdle.hit = true → r = s)) :
    EndsEngine cmd s v := by
  obtain ⟨clear, hit⟩ := h
  exact ⟨fun c => by rw [hx, clear c], fun c => by rw [hx, hit c]⟩

/-! ### The checks of an MX descriptor and its start (R209, R210, R389) -/

/-- R210: the sequencer lets an MX descriptor begin where its formats and its fields are legal. -/
theorem mxMay_iff {s : State} {q : CoreId} {d : Desc} :
    s.mxMay q d = true ↔ ∃ c, s.mxFormats (qKey ⟨q, .mx⟩) q d = some c ∧ s.mxOk c = true := by
  unfold State.mxMay
  cases s.mxFormats (qKey ⟨q, .mx⟩) q d <;> simp

/-- R389: the first panel of the weights that a key keeps from the queue, with the address that it keeps. -/
def State.mxDenied (s : State) (q : CoreId) (c : MxC) : Option (Option Nat) :=
  ((List.range c.nb).map (fun nb =>
    s.keyBad ((s.actor (qKey ⟨q, .mx⟩)).who true) false (c.wbase + nb * c.panel) (c.ks * c.bb))).find? (·.isSome)

section
variable {u : State} {q : CoreId} {d : Desc} {c : MxC} (hc : u.mxFormats (qKey ⟨q, .mx⟩) q d = some c)
include hc

theorem mxStart_held (hb : u.tilesBusy (qKey ⟨q, .mx⟩) d = true) : u.mxStart q d = u.holdHead (qKey ⟨q, .mx⟩) := by
  simp only [State.mxStart, hc, hb, if_true]

variable (hb : u.tilesBusy (qKey ⟨q, .mx⟩) d = false)
include hb

theorem mxStart_runs (hn : u.mxDenied q c = none) : u.mxStart q d = (u.mxRun c).integStops := by
  unfold State.mxDenied at hn
  simp only [State.mxStart, hc, hb, hn, Bool.false_eq_true, if_false]

theorem mxStart_denied {a : Nat} (hn : u.mxDenied q c = some (some a)) :
    u.mxStart q d = (u.keyDeny a).failDesc (qKey ⟨q, .mx⟩) 0 1 d := by
  unfold State.mxDenied at hn
  simp only [State.mxStart, hc, hb, hn, Bool.false_eq_true, if_false]

end

/-! ### The MX row (R209, R210) -/

section
variable {s : State} {q : CoreId} {d : Desc}

/-- One that the head lets run ends as its start leaves it. -/
theorem mxCommand_begins {u v : State} (h : rowBegin s (qKey ⟨q, .mx⟩) 1 (fun v => v.mxMay q d) d = some u)
    (hv : u.mxStart q d = v) : EndsEngine (.mxCommand q d) s v :=
  endsEngine_of_row exec_mxCommand (engineRow_run rfl rfl h (congrArg State.settleIdle hv))

/-- One with illegal formats or fields fails with the row's own bit of the page. -/
theorem mxCommand_bad {v : State}
    (h : ({ s with hit := false } : State).head (qKey ⟨q, .mx⟩) 1 (fun v => v.mxMay q d) d = .bad v) :
    EndsEngine (.mxCommand q d) s (v.failDesc (qKey ⟨q, .mx⟩) 31 1 d) :=
  endsEngine_of_row exec_mxCommand (engineRow_bad rfl rfl (qKey_lt (q := ⟨q, .mx⟩) nofun) h rfl)

/-- One that fails R266 sets MVSY_REFUSED. -/
theorem mxCommand_refuse {v : State}
    (h : ({ s with hit := false } : State).head (qKey ⟨q, .mx⟩) 1 (fun v => v.mxMay q d) d = .refuse v) :
    EndsEngine (.mxCommand q d) s (v.failDesc (qKey ⟨q, .mx⟩) 19 1 d) :=
  endsEngine_of_row exec_mxCommand (engineRow_refuse rfl rfl (qKey_lt (q := ⟨q, .mx⟩) nofun) h rfl)

end

/-- Settles O41: what the head answers decides between refusal and start, and tiles in use or a key decide the start. -/
theorem matrixCommand : Obligations.MatrixCommand := by
  intro s u q d k runs
  refine ⟨fun v => mxCommand_bad, fun v => mxCommand_refuse, fun v => mxMay_iff, fun h c hc => ?_⟩
  exact ⟨fun hb => mxCommand_begins h (mxStart_held hc hb),
    fun hb hn => mxCommand_begins h (mxStart_runs hc hb hn),
    fun a hb hn => mxCommand_begins h (mxStart_denied hc hb hn)⟩

end Sys2Proof.Machine
end

section
/-! The VX rows (O42): what a VX descriptor leaves when it begins with its tiles free, while a tile of it is in use, and with
illegal fields, said once for every row; each row then cites it with its own meaning. -/

namespace Sys2Proof.Machine

open Sys2Proof.Safety

/-- The command of the VX descriptor d at core q. -/
abbrev vxCmd (q : CoreId) (d : Desc) : VxC := ⟨qKey ⟨q, .vx⟩, q, d⟩

/-! ### The three ends of a VX row (R201, R237, R238) -/

section
variable {cmd : Instr} {s u v : State} {q : CoreId} {d : Desc} {code : Nat} {body : VxC → State → State}
  (hx : exec cmd s = .next (s.vxRow q code d body)) (ho : (vxCmd q d).op = code) (hc : code < 0x1E)
include hx ho hc

/-- One that begins while no tile of it is in use has the effect of its operation. -/
theorem vxRow_begins (h : rowBegin s (qKey ⟨q, .vx⟩) 2 (fun v => v.vxOk (vxCmd q d)) d = some u)
    (hb : u.tilesBusy (qKey ⟨q, .vx⟩) d = false) (hv : body (vxCmd q d) u = v) : EndsEngine cmd s v :=
  endsEngine_of_row hx (vxRow_run ho hc h hb (congrArg State.settleIdle hv))

/-- One that begins while a tile of it is in use (R201, R238) stays at the head of its queue. -/
theorem vxRow_held (h : rowBegin s (qKey ⟨q, .vx⟩) 2 (fun v => v.vxOk (vxCmd q d)) d = some u)
    (hb : u.tilesBusy (qKey ⟨q, .vx⟩) d = true) : EndsEngine cmd s (u.holdHead (qKey ⟨q, .vx⟩)) :=
  endsEngine_of_row hx (engineRow_run ho (by simpa using hc) h (by rw [if_pos hb]))

/-- One with illegal fields (R237) fails its submission with VX_REFUSED. -/
theorem vxRow_bad
    (h : ({ s with hit := false } : State).head (qKey ⟨q, .vx⟩) 2 (fun v => v.vxOk (vxCmd q d)) d = .bad v) :
    EndsEngine cmd s (v.failDesc (qKey ⟨q, .vx⟩) 24 1 d) :=
  endsEngine_of_row hx (engineRow_bad ho (by simpa using hc) (qKey_lt (q := ⟨q, .vx⟩) nofun) h rfl)

end

/-! ### Elementwise operations in the format of their sources (R221, R222) -/

/-- The operations of R221 that read both A and B work on both, in the format that the command works in. -/
theorem vxSame_of_vxTwo {s : State} {c : VxC} {f : Bool → VxFn} (h : vxTwo c.op = true) :
    s.vxSame c f = s.vxElem c true (!c.isInt (s.core (c.k / 8))) (f (c.isInt (s.core (c.k / 8)))) := by
  simp only [State.vxSame, h]

/-- A row of such an operation: its function in that format, on the lanes of A, B and C. -/
theorem vxRow_begins_same {cmd : Instr} {s u : State} {q : CoreId} {d : Desc} {code : Nat} {f : Bool → VxFn}
    (hx : exec cmd s = .next (s.vxRow q code d (fun c s => s.vxSame c f))) (ho : (vxCmd q d).op = code)
    (ht : vxTwo code = true) (h : rowBegin s (qKey ⟨q, .vx⟩) 2 (fun v => v.vxOk (vxCmd q d)) d = some u)
    (hb : u.tilesBusy (qKey ⟨q, .vx⟩) d = false) :
    let i := (vxCmd q d).isInt (u.core (qKey ⟨q, .vx⟩ / 8))
    EndsEngine cmd s (u.vxElem (vxCmd q d) true (!i) (f i)) := by
  have hc : code < 0x1E := by
    simp only [vxTwo, Bool.and_eq_true, decide_eq_true_eq] at ht
    omega
  exact vxRow_begins hx ho hc h hb (vxSame_of_vxTwo (ho ▸ ht))

/-! ### Every row -/

/-- Settles O42: each row is the row of its own code, so the three ends of a VX row give its clauses; the elementwise
operations of R221 and R222 also read the format that they work in from their sources. -/
theorem vectorOperations : Obligations.VectorOperations := by
  intro s q d k c runs
  constructor
  · exact fun v ho h => vxRow_bad exec_vxAdd ho (by decide) h
  intro u h i
  refine ⟨fun ho hb => vxRow_held exec_vxAdd ho (by decide) h hb, fun hb => ?_⟩
  have ends {cmd : Instr} {code : Nat} {body : VxC → State → State} {v : State}
      (hx : exec cmd s = .next (s.vxRow q code d body)) (hc : code < 0x1E := by decide) (hv : body c u = v := by rfl)
      (ho : c.op = code) : runs cmd v := vxRow_begins hx ho hc h hb hv
  have same {cmd : Instr} {code : Nat} {f : Bool → VxFn} {v : State}
      (hx : exec cmd s = .next (s.vxRow q code d (fun c s => s.vxSame c f))) (ht : vxTwo code = true := by rfl)
      (hv : u.vxElem c true (!i) (f i) = v := by rfl) (ho : c.op = code) : runs cmd v :=
    hv ▸ vxRow_begins_same hx ho ht h hb
  exact ⟨ends exec_vxNop, same exec_vxAdd, same exec_vxSub, same exec_vxMul, same exec_vxFma,
    same exec_vxMax, same exec_vxMin, ends exec_vxSel, ends exec_vxCmpgt, ends exec_vxCmpge, ends exec_vxCmpeq,
    ends exec_vxMand, ends exec_vxMor, ends exec_vxMnot, ends exec_vxExp2, ends exec_vxLog2, ends exec_vxRsqrt,
    ends exec_vxRcp, ends exec_vxCvt, ends exec_vxLdt, ends exec_vxStt, ends exec_vxAcc, ends exec_vxScl, ends exec_vxRsum,
    ends exec_vxRmax, ends exec_vxRargmax, ends exec_vxTopk, ends exec_vxSample, ends exec_vxMerge, ends exec_vxQnt⟩

end Sys2Proof.Machine
end

section
/-! Table loads and ring control (O18): the RW fields of TAB_CMD and of RING_CTL are all of class D, so a write of either
that takes effect applies them at once, and R253 and R289 give the rest. -/

namespace Sys2Proof.Machine

open Sys2Proof Sys2Proof.Safety

/-! ### Bits and registers -/

theorem fbit_eq_getLsbD (w : Word) (i : Nat) : fbit w i = w.getLsbD i := by
  rw [BitVec.getLsbD, Nat.testBit_eq_decide_div_mod_eq, fbit, bitOf, Nat.shiftRight_eq_div_pow]
  rfl

/-- A store leaves every other register alone, though each register has a default of its own. -/
theorem reg_setReg_other (s : State) {a b : Nat} (w : Word) (h : b ≠ a) : (s.setReg a w).reg b = s.reg b := by
  simp only [State.reg, State.setReg, rget, mset]
  split
  · exact mget_filter_other _ _ h
  · exact mget_mput_other _ _ _ h

/-- The partition is a field of DEV, which a store elsewhere leaves alone (R22). -/
theorem stallOf_setReg (s : State) {a : Nat} (w : Word) (t : Nat) (h : devR 0xD0 ≠ a) :
    (s.setReg a w).stallOf t = s.stallOf t := by
  simp only [State.stallOf, State.perStall, State.stalls, State.nstall, State.fld, reg_setReg_other s w h]

/-- The merge of a write under a mask keeps the bits that the mask takes from the write. -/
theorem and_merge_of_and_eq {mask part : Word} (cur val : Word) (h : mask &&& part = part) :
    ((cur &&& ~~~mask) ||| (val &&& mask)) &&& part = val &&& part := by
  rw [← h]
  ext i hi
  simp only [BitVec.getElem_and, BitVec.getElem_or, BitVec.getElem_not]
  cases mask[i] <;> simp

theorem takes_iff {s : State} {src : Src} {addr : Nat} {val : Word} :
    takes s src addr val = true ↔ reaches s src addr val = true ∧ (s.txn (addr / 4096)).open_ = false := by
  simp [takes]

/-! ### Registers whose RW fields are all of class D (R5) -/

/-- Where every RW field is of class D, a class condition picks all of them or none. -/
theorem rwMask_of_dynamic {r : RegDef} {mask : Word} (f : Cls → Bool) (hd : ∀ x ∈ r.fields, x.acc = .rw → x.cls = .d)
    (hall : rwMask r (fun _ => true) = mask) : rwMask r f = if f .d then mask else 0 := by
  subst hall
  cases h : f .d with
  | true =>
    refine List.foldl_rel rfl fun x hx m m' hm => ?_
    subst hm
    by_cases hrw : x.acc = .rw
    · simp only [hd x hx hrw, h]
    · simp only [hrw, decide_false, Bool.false_and]
  | false =>
    refine List.foldlRecOn (motive := fun m => m = 0) r.fields _ rfl fun m hm x hx => ?_
    by_cases hrw : x.acc = .rw
    · simp only [hd x hx hrw, h, Bool.and_false, Bool.false_eq_true, if_false, hm]
    · simp only [hrw, decide_false, Bool.false_and, Bool.false_eq_true, if_false, hm]

section
variable {s : State} {src : Src} {pg : Pg} {addr : Nat} {mask val : Word}
  (hm : ∀ f, rwBits addr f = if f .d then mask else 0) (hne : mask ≠ 0)
include hm hne

/-- Fields of class D take effect at once, whether the page runs or not. -/
theorem plainWrite_of_dynamic : s.plainWrite src pg addr val = s.applyRW src addr mask val := by
  have hne' : ¬ mask = 0#32 := hne
  simp [State.plainWrite, hm, hne']

theorem writeRW_of_dynamic (hx : (s.txn (addr / 4096)).open_ = false) (h10 : addr % 4096 ≠ 0x10)
    (h20 : addr % 4096 ≠ 0x20) (h80 : addr % 4096 ≠ 0x80) :
    s.writeRW src pg addr val = s.applyRW src addr mask val := by
  have hall : rwBits addr (fun _ => true) ≠ 0 := by simpa [hm] using hne
  exact (writeRW_of_not_open hx hall h10 h20 h80).trans (plainWrite_of_dynamic hm hne)

end

/-! ### TAB_LOAD (R253) -/

/-- The RW field of TAB_CMD is TID. -/
theorem rwBits_tabCmd (t : Tower) (f : Cls → Bool) : rwBits (pkrR t.val 0x94) f = if f .d then 0xFF#32 else 0 := by
  have hmod : pkrR t.val 0x94 % 4096 = 0x94 := pkrR_mod (by decide)
  have hr : PKind.pkr.regAt (pkrR t.val 0x94 % 4096) = some _ := (congrArg _ hmod).trans rfl
  rw [rwBits_eq (pg := .pkr t.val) (pageNo_pkrR t.isLt (by decide)) hr (by omega)]
  exact rwMask_of_dynamic f (by decide) (by decide)

/-- TID stands in the low byte of a TAB_LOAD, whose bit 31 is LOAD. -/
theorem tabLoad_and_tid (tid : Byte) : w32 (2 ^ 31 + tid.toNat) &&& 0xFF#32 = tid.zeroExtend 32 := by
  have htid := tid.isLt
  apply BitVec.eq_of_toNat_eq
  rw [BitVec.toNat_and, show (0xFF#32).toNat = 2 ^ 8 - 1 from rfl, Nat.and_two_pow_sub_one_eq_mod]
  simp only [w32, BitVec.toNat_ofNat, BitVec.truncate_eq_setWidth, BitVec.toNat_setWidth]
  omega

theorem fget_tabLoad_tid (tid : Byte) : fget (w32 (2 ^ 31 + tid.toNat)) 7 0 = tid.toNat := by
  have htid := tid.isLt
  simp only [fget, bitsOf, w32, BitVec.toNat_ofNat, Nat.shiftRight_eq_div_pow]
  omega

theorem fbit_tabLoad_load (tid : Byte) : fbit (w32 (2 ^ 31 + tid.toNat)) 31 = true := by
  have htid := tid.isLt
  simp only [fbit, bitOf, w32, BitVec.toNat_ofNat, Nat.shiftRight_eq_div_pow, beq_iff_eq]
  omega

/-- A packer's RW fields are stored as they are. -/
theorem applyRW_pkr (s : State) (src : Src) {addr t : Nat} (mask val : Word) (hp : pageNo (addr / 4096) = some (.pkr t)) :
    s.applyRW src addr mask val = s.setReg addr ((s.reg addr &&& ~~~mask) ||| (val &&& mask)) := by
  simp only [State.applyRW, State.storeBits, hp]

/-- R253: LOAD asks the stall of the tower for the load of TID at its next step boundary. -/
theorem act_tabCmd (s : State) (src : Src) (t : Nat) {val : Word} (hl : fbit val 31 = true) :
    s.act src (.pkr t) 0x94 val =
      s.modStall (s.stallOf t) (fun x => { x with loads := x.loads ++ [t * 256 + fget val 7 0] }) := by
  simp [State.act, hl]

/-- A write of TAB_CMD with LOAD that takes effect stores TID first, and the load is its action (R253). -/
theorem regCmd_tabCmd {s : State} {src : Src} {t : Tower} {val : Word}
    (h : takes s src (pkrR t.val 0x94) val = true) (hl : fbit val 31 = true) :
    let a := pkrR t.val 0x94
    s.regCmd src a val = ((s.setReg a ((s.reg a &&& ~~~0xFF#32) ||| (val &&& 0xFF#32))).modStall (s.stallOf t.val)
      (fun x => { x with loads := x.loads ++ [t.val * 256 + fget val 7 0] })).settleIdle := by
  intro a
  obtain ⟨hreach, hx⟩ := takes_iff.mp h
  have hp : pageNo (a / 4096) = some (.pkr t.val) := pageNo_pkrR t.isLt (by decide)
  have ho : a % 4096 = 0x94 := pkrR_mod (by decide)
  have hdev : devR 0xD0 ≠ a := by simp only [devR, a, pkrR, Pg.base]; omega
  have hc : (takesCompanion (.pkr t.val) 0x94 val || 0x94 == 0x10) = true := by simp [takesCompanion, hl]
  calc s.regCmd src a val
    _ = ((s.writeRW src (.pkr t.val) a val).act src (.pkr t.val) 0x94 val).settleIdle := by
      rw [regCmd_of_reaches hreach hp, ho, if_pos hc]
    _ = ((s.applyRW src a 0xFF#32 val).act src (.pkr t.val) 0x94 val).settleIdle := by
      rw [writeRW_of_dynamic (rwBits_tabCmd t) (by decide) hx (by omega) (by omega) (by omega)]
    _ = _ := by rw [applyRW_pkr s src _ _ hp, act_tabCmd _ _ _ hl, stallOf_setReg _ _ _ hdev]

/-! ### RING_CTL_WRITE (R289) -/

/-- The four RING_CTL of a PRT page are one row of the table. -/
theorem regAt_ringCtl : ∀ n : Pair, PKind.prt.regAt (0x200 + 64 * n.val) = PKind.prt.regAt 0x200 := by decide

/-- The RW fields of RING_CTL are all but FAULT. -/
theorem rwBits_ringCtl (p : Port) (n : Pair) (f : Cls → Bool) :
    rwBits (prtR p.val (0x200 + 64 * n.val)) f = if f .d then 0xBFFFF800#32 else 0 := by
  have hmod : prtR p.val (0x200 + 64 * n.val) % 4096 = 0x200 + 64 * n.val := prtR_mod (by omega)
  have hr : PKind.prt.regAt (prtR p.val (0x200 + 64 * n.val) % 4096) = some _ :=
    (congrArg _ hmod).trans ((regAt_ringCtl n).trans rfl)
  rw [rwBits_eq (pg := .prt p.val) (pageNo_prtR p.isLt (by omega)) hr (by omega)]
  exact rwMask_of_dynamic f (by decide) (by decide)

section
variable {s : State} {k : Nat} {w : Word}

/-- R289: of a pair that is off every field is stored, and a rise of EN starts the pair. -/
theorem writeRing_of_off (hoff : s.ringEn k = false) :
    let a := rngR k 0
    let u := s.setReg a ((s.reg a &&& 0xC0000000#32) ||| (w &&& 0x3FFFFFFF#32))
    s.writeRing k 0 w = if fbit w 31 then (u.ringOn k).setBit a 31 true else u := by
  simp [State.writeRing, hoff]

/-- R289: of a pair that is on the describing fields stand, and a fall of EN stops the pair. -/
theorem writeRing_of_on (hon : s.ringEn k = true) (hd : s.reg (rngR k 0) &&& 0x3FF00000#32 = w &&& 0x3FF00000#32) :
    let a := rngR k 0
    let u := s.setReg a ((s.reg a &&& 0xFFF00000#32) ||| (w &&& 0x000FFFFF#32))
    s.writeRing k 0 w = if fbit w 31 then u else u.ringOff k := by
  cases h : fbit w 31 <;> simp [State.writeRing, hon, hd, h]

end

/-- The address of RING_CTL by port and pair. -/
theorem rngR_ctl (p : Port) (n : Pair) : rngR (4 * p.val + n.val) 0 = prtR p.val (0x200 + 64 * n.val) := by
  simp only [rngR, prtR, Pg.base]
  omega

theorem applyRW_ringCtl (s : State) (src : Src) (p : Port) (n : Pair) (mask val : Word) :
    let a := prtR p.val (0x200 + 64 * n.val)
    s.applyRW src a mask val = s.writeRing (4 * p.val + n.val) 0 ((s.reg a &&& ~~~mask) ||| (val &&& mask)) := by
  intro a
  have hp : pageNo (a / 4096) = some (.prt p.val) := pageNo_prtR p.isLt (by omega)
  have ho : a % 4096 = 0x200 + 64 * n.val := prtR_mod (by omega)
  have hwin : ¬ 0x200 + 64 * n.val < 0xC0 := by omega
  have hacw : ¬ 0x200 + 64 * n.val < 0x200 := by omega
  have hring : 0x200 + 64 * n.val < 0x300 := by omega
  simp [State.applyRW, hp, ho, hwin, hacw, hring]

/-- A RING_CTL write that takes effect is that of R289 and nothing else. -/
theorem regCmd_ringCtl {s : State} {src : Src} {p : Port} {n : Pair} {v : Word}
    (h : takes s src (prtR p.val (0x200 + 64 * n.val)) v = true) :
    let a := prtR p.val (0x200 + 64 * n.val)
    s.regCmd src a v = (s.writeRing (4 * p.val + n.val) 0
      ((s.reg a &&& ~~~0xBFFFF800#32) ||| (v &&& 0xBFFFF800#32))).settleIdle := by
  intro a
  obtain ⟨hreach, hx⟩ := takes_iff.mp h
  have hp : pageNo (a / 4096) = some (.prt p.val) := pageNo_prtR p.isLt (by omega)
  have ho : a % 4096 = 0x200 + 64 * n.val := prtR_mod (by omega)
  have hact : s.act src (.prt p.val) (a % 4096) v = s := by
    have h10 : ¬ 0x200 + 64 * n.val = 0x10 := by omega
    have h18 : ¬ 0x200 + 64 * n.val = 0x18 := by omega
    have h20 : ¬ 0x200 + 64 * n.val = 0x20 := by omega
    have h400 : ¬ 0x200 + 64 * n.val = 0x400 := by omega
    simp only [State.act, ho, h10, h18, h20, h400, if_false]
  have hc : ¬ (takesCompanion (.prt p.val) (a % 4096) v || a % 4096 == 0x10) = true := by
    simp only [takesCompanion, Bool.or_eq_true, Bool.and_eq_true, beq_iff_eq]
    omega
  calc s.regCmd src a v
    _ = (s.writeRW src (.prt p.val) a v).settleIdle := by rw [regCmd_of_reaches hreach hp, if_neg hc, hact]
    _ = (s.applyRW src a 0xBFFFF800#32 v).settleIdle := by
      rw [writeRW_of_dynamic (rwBits_ringCtl p n) (by decide) hx (by omega) (by omega) (by omega)]
    _ = _ := by rw [applyRW_ringCtl]

/-- Settles O18: each write is its register's, whose fields are all dynamic; EN before and in the write divides R289. -/
theorem tableAndRingWrites : Obligations.TableAndRingWrites := by
  intro s src
  constructor
  · intro t tid a u h
    have hx : exec (.tabLoad src t tid) s = .next _ :=
      congrArg Host.Outcome.next (regCmd_tabCmd h (fbit_tabLoad_load tid))
    exact hx.trans (by rw [fget_tabLoad_tid, tabLoad_and_tid])
  · intro p n v k a w h
    have ha : rngR k 0 = a := rngR_ctl p n
    have hx : exec (.ringCtlWrite src p n v) s = .next (s.writeRing k 0 w).settleIdle :=
      congrArg Host.Outcome.next (regCmd_ringCtl h)
    have hen : fbit w 31 = v.getLsbD 31 := by
      simp [fbit_eq_getLsbD, w]
    refine ⟨fun hoff hv => ?_, fun hoff hv => ?_, fun hon hv hd => ?_⟩
    · rw [hx, writeRing_of_off hoff, if_neg (Bool.eq_false_iff.mp (hen.trans hv)), ha]
    · rw [hx, writeRing_of_off hoff, if_pos (hen.trans hv), ha]
    · have hd' : s.reg (rngR k 0) &&& 0x3FF00000#32 = w &&& 0x3FF00000#32 := by
        rw [ha, hd, and_merge_of_and_eq _ _ (by decide)]
      rw [hx, writeRing_of_on hon hd', if_neg (Bool.eq_false_iff.mp (hen.trans hv)), ha]

end Sys2Proof.Machine
end

section
/-! The heads of queues (O38): what a row of a queue, of a core or of a bench, leaves of what the head of its queue answers, said
once; the SY rows are such rows with the codes of R274. -/

namespace Sys2Proof.Machine

open Sys2Proof.Safety

/-! ### What a row leaves of its head's answer (R265 to R267) -/

/-- A command of a queue that leaves v: it does, with the mark as it was, or it waits as a whole where its accesses met a
channel that takes no request. `EndsEngine` is this of a v that `settleIdle` leaves. -/
def EndsIn (cmd : Instr) (s v : State) : Prop :=
  (v.hit = false → exec cmd s = .next { v with hit := s.hit }) ∧ (v.hit = true → exec cmd s = .next s)

/-- R112: no RUN goes on at a bench queue and no program of another submission is open there; a core's queue is always free. -/
def State.queueFree (s : State) (q : QueueId) : Prop :=
  let b := (s.tower (keyTower (qKey q))).bench
  q.k ≠ .bn ∨ (b.run = none ∧ (b.open_ = false ∨ b.slot = (s.actor (qKey q)).slot))

/-- What a row leaves of its head's answer: `bit` is its family's bit of the queue's page, and `body` its own effect. -/
def Head.leaves (r : Head) (k bit : Nat) (d : Desc) (body : State → State) : State :=
  match r with
  | .wait v => v
  | .refuse v => (v.refuseDesc k 19 d).settleIdle
  | .bad v => (v.refuseDesc k bit d).settleIdle
  | .run v => (body v).settleIdle

theorem leaves_of_refused {r : Head} {v : State} (h : r = .refuse v ∨ r = .bad v) (k : Nat) (d : Desc)
    (body : State → State) : r.leaves k 19 d body = (v.refuseDesc k 19 d).settleIdle := by
  rcases h with rfl | rfl <;> rfl

theorem qKey_lt_iff {q : QueueId} : qKey q / 8 < 10240 ↔ q.k ≠ .bn := by
  refine ⟨fun h hb => ?_, qKey_lt⟩
  rw [qKey_bn hb, bnKey] at h
  omega

/-- R113, R266: a refusal on a bench queue is the bench's; on a core's queue it sets the bit given. -/
theorem refuseDesc_qKey (v : State) (q : QueueId) (bit : Nat) (d : Desc) : v.refuseDesc (qKey q) bit d =
    if q.k = .bn then v.bnRefuse (keyTower (qKey q)) d 0 else v.failDesc (qKey q) bit 1 d := by
  simp only [State.refuseDesc, qKey_lt_iff, ite_not]

section
variable {s : State} {q : QueueId} {fam op code bit : Nat} {legal : List Nat} {d : Desc} {ok : State → Bool}
  {body : State → State} (ho : ownRow legal op code)
include ho

/-- A row of a free queue leaves what the head's answer decides. -/
theorem rowAt_leaves (hf : s.queueFree q) : s.rowAt (qKey q) fam op code legal bit d ok body =
    (s.head (qKey q) fam (fun v => legal.contains op && ok v) d).leaves (qKey q) bit d body := by
  unfold State.rowAt
  rw [if_neg (by simpa [ownRow] using ho)]
  by_cases hk : qKey q / 8 < 10240
  · simp only [hk, if_true]
    cases s.head (qKey q) fam _ d <;> simp only [Head.leaves, State.refuseDesc, hk, if_true]
  · have hb := bench_free.mpr (hf.resolve_left (mt qKey_lt_iff.mpr hk))
    simp only [hk, if_false, hb, Bool.false_eq_true]
    cases s.head (qKey q) fam _ d <;> simp only [Head.leaves, State.refuseDesc, hk, if_false]

/-- R112: a bench queue that is not free does not go on. -/
theorem rowAt_busy (hf : ¬ s.queueFree q) : s.rowAt (qKey q) fam op code legal bit d ok body = s := by
  obtain ⟨hq, hb⟩ := not_or.mp hf
  unfold State.rowAt
  rw [if_neg (by simpa [ownRow] using ho), if_neg (mt qKey_lt_iff.mp hq)]
  exact if_pos (Bool.not_eq_false _ ▸ mt bench_free.mp hb)

end

section
variable {cmd : Instr} {s : State} {q : QueueId} {fam op code bit : Nat} {legal : List Nat} {d : Desc} {ok : State → Bool}
  {body : State → State} (hx : exec cmd s = .next (s.engineRow (qKey q) fam op code legal bit d ok body))
include hx

/-- A row whose effect is v. -/
theorem endsIn_of_rowAt {v : State}
    (h : State.rowAt { s with hit := false } (qKey q) fam op code legal bit d ok body = v) : EndsIn cmd s v := by
  obtain ⟨clear, hit⟩ := orWait_cases (f := fun s => s.rowAt (qKey q) fam op code legal bit d ok body) h
  exact ⟨fun c => by rw [hx, State.engineRow, clear c], fun c => by rw [hx, State.engineRow, hit c]⟩

/-- A row that changes nothing where no mark stands changes nothing. -/
theorem exec_of_rowAt_stays
    (h : State.rowAt { s with hit := false } (qKey q) fam op code legal bit d ok body = { s with hit := false }) :
    exec cmd s = .next s :=
  (endsIn_of_rowAt hx h).1 rfl

variable (ho : ownRow legal op code) (hf : State.queueFree { s with hit := false } q)
include ho hf

theorem endsIn_of_wait {v : State}
    (h : State.head { s with hit := false } (qKey q) fam (fun v => legal.contains op && ok v) d = .wait v) : EndsIn cmd s v :=
  endsIn_of_rowAt hx ((rowAt_leaves ho hf).trans (congrArg (Head.leaves · (qKey q) bit d body) h))

/-- A descriptor that the head refuses, or whose family does, as a row whose own bit is MVSY_REFUSED leaves it. -/
theorem endsIn_of_refused {v : State} (hb : bit = 19)
    (h : State.head { s with hit := false } (qKey q) fam (fun v => legal.contains op && ok v) d = .refuse v ∨
      State.head { s with hit := false } (qKey q) fam (fun v => legal.contains op && ok v) d = .bad v) :
    EndsIn cmd s (if q.k = .bn then v.bnRefuse (keyTower (qKey q)) d 0 else v.failDesc (qKey q) 19 1 d).settleIdle := by
  subst hb
  rw [← refuseDesc_qKey]
  exact endsIn_of_rowAt hx ((rowAt_leaves ho hf).trans (leaves_of_refused h ..))

end

/-! ### SY rows (R274) -/

section
variable {cmd : Instr} {s v : State} {q : QueueId} {d : Desc} {code : Nat} {body : State → State}
  (hx : exec cmd s = .next (s.syRow q code d body))
include hx

/-- A descriptor of another SY operation is not this row's event. -/
theorem syRow_other (hl : [1, 2, 3, 4].contains (dfld d 1 31 28) = true) (hn : dfld d 1 31 28 ≠ code) : exec cmd s = .next s :=
  exec_of_rowAt_stays hx (rowAt_other hl hn)

variable (hc : [1, 2, 3, 4].contains code = true) (ho : dfld d 1 31 28 = code)
include ho

theorem syRow_busy (hf : ¬ State.queueFree { s with hit := false } q) : exec cmd s = .next s :=
  exec_of_rowAt_stays hx (rowAt_busy (fun _ => ho) hf)

include hc
variable (hf : State.queueFree { s with hit := false } q)
include hf

theorem syRow_waits (h : State.head { s with hit := false } (qKey q) 5 (fun _ => !syBad code d) d = .wait v) :
    EndsIn cmd s v :=
  endsIn_of_wait hx (fun _ => ho) hf (by simpa only [ho, hc, Bool.true_and] using h)

theorem syRow_refused (h : State.head { s with hit := false } (qKey q) 5 (fun _ => !syBad code d) d = .refuse v ∨
      State.head { s with hit := false } (qKey q) 5 (fun _ => !syBad code d) d = .bad v) :
    EndsIn cmd s (if q.k = .bn then v.bnRefuse (keyTower (qKey q)) d 0 else v.failDesc (qKey q) 19 1 d).settleIdle :=
  endsIn_of_refused hx (fun _ => ho) hf rfl (by simpa only [ho, hc, Bool.true_and] using h)

end

/-- An operation that SY does not know is refused by whichever row meets it. -/
theorem syRow_unknown {cmd : Instr} {s v : State} {q : QueueId} {d : Desc} {code : Nat} {body : State → State}
    (hx : exec cmd s = .next (s.syRow q code d body)) (hl : [1, 2, 3, 4].contains (dfld d 1 31 28) = false)
    (hf : State.queueFree { s with hit := false } q)
    (h : State.head { s with hit := false } (qKey q) 5 (fun _ => false) d = .refuse v ∨
      State.head { s with hit := false } (qKey q) 5 (fun _ => false) d = .bad v) :
    EndsIn cmd s (if q.k = .bn then v.bnRefuse (keyTower (qKey q)) d 0 else v.failDesc (qKey q) 19 1 d).settleIdle :=
  endsIn_of_refused hx (fun hl' => absurd (hl.symm.trans hl') (by decide)) hf rfl (by simpa only [hl, Bool.false_and] using h)

/-- Settles O38: the code decides whether the row is the descriptor's, and the head's answer what the row leaves. -/
theorem queueHeads : Obligations.QueueHeads := by
  intro s q d ends k op e b free head fails
  refine ⟨fun ho => ?other, fun ho hf => syRow_busy exec_syWait ho hf,
    fun ho hf => ⟨fun v => syRow_waits exec_syWait rfl ho hf, fun v => syRow_refused exec_syWait rfl ho hf⟩,
    fun ho hf => ⟨fun v => syRow_waits exec_syFence rfl ho hf, fun v => syRow_refused exec_syFence rfl ho hf⟩,
    fun ho hf v => syRow_unknown exec_syWait ?unknown hf⟩
  case other =>
    have ho : dfld d 1 31 28 = 2 := ho
    exact syRow_other exec_syFence (by rw [ho]; rfl) (by omega)
  case unknown =>
    have ho : dfld d 1 31 28 = 0 ∨ 5 ≤ dfld d 1 31 28 := ho
    refine Bool.eq_false_iff.mpr fun hc => ?_
    have hc := List.contains_iff_mem.mp hc
    simp only [List.mem_cons, List.not_mem_nil, or_false] at hc
    omega

end Sys2Proof.Machine
end

section
/-! The SY rows and ST (O39): what FENCE, WAIT, POST and STAMP leave once they begin, and the one end of an ST descriptor. -/

namespace Sys2Proof.Machine

open Sys2Proof.Safety

/-- An SY descriptor that begins in u ends as its body leaves u. -/
theorem syRow_begins {cmd : Instr} {s u v : State} {q : QueueId} {d : Desc} {code : Nat} {body : State → State}
    (hx : exec cmd s = .next (s.syRow q code d body)) (ho : dfld d 1 31 28 = code)
    (h : rowBegin s (qKey q) 5 (fun _ => !syBad (dfld d 1 31 28) d) d = some u) (hv : body u = v)
    (hc : code ∈ [1, 2, 3, 4] := by decide) : EndsEngine cmd s v := by
  subst ho
  exact endsEngine_of_row hx (syRow_run rfl hc h (congrArg State.settleIdle hv))

/-- R277: the semaphore that a WAIT names. -/
def State.waitSem (u : State) (q : QueueId) (d : Desc) : Nat :=
  u.sem (keyTower (qKey q)) (u.actor (qKey q)).slot (dfld d 1 21 17)

/-- R277: the queues that wait on it already. -/
def State.waitersBefore (u : State) (q : QueueId) (d : Desc) : List (Nat × Nat) :=
  u.semWaiters (keyTower (qKey q)) (u.actor (qKey q)).slot (dfld d 1 21 17)

/-! ### Where a STAMP may go (R278) -/

/-- R278: the SRAM that is the queue's own: its core's, or all of its tower's for a bench queue. -/
def stampOwn (q : QueueId) (da : Nat) : Bool :=
  if q.k = .bn then inSram da 8 && daTower da == keyTower (qKey q) else ownSram q.core da 8

/-- R278: the queue may write its stamp at the address. -/
def State.mayStamp (u : State) (q : QueueId) (da : Nat) : Prop :=
  da % 8 = 0 ∧ (u.stallMem (u.actor (qKey q)).st da 8 = true ∨ stampOwn q da = true) ∧
    u.wayOk (u.actor (qKey q)) da 8 = true

/-- What the model asks of the address first. -/
def State.stampBad (u : State) (q : QueueId) (da : Nat) : Bool :=
  da % 8 != 0 || !(u.stallMem (u.actor (qKey q)).st da 8 || stampOwn q da) || !u.wayOk (u.actor (qKey q)) da 8

theorem mayStamp_iff {u : State} {q : QueueId} {da : Nat} : u.mayStamp q da ↔ ¬ u.stampBad q da = true := by
  simp only [State.mayStamp, State.stampBad, Bool.or_eq_true, bne_iff_ne, ne_eq, Bool.not_eq_true', not_or,
    Decidable.not_not, Bool.not_eq_false, and_assoc]

/-- R278: the store of the device time. -/
def State.stamp (u : State) (q : QueueId) (da : Nat) : Acx × State :=
  let a := u.actor (qKey q)
  u.store (a.who false) a.sub da ((leBytes 8 u.time).map (fun b => (b, false)))

/-! ### FENCE (R275) -/

section
variable {s u : State} {q : QueueId} {d : Desc}
  (h : rowBegin s (qKey q) 5 (fun _ => !syBad (dfld d 1 31 28) d) d = some u)
include h

theorem syFence_drains (ho : dfld d 1 31 28 = 1) : EndsEngine (.syFence q d) s
    (if dbit d 1 27 then (u.towersOf (u.actor (qKey q)).st).foldl (fun s t => s.drainTower t) u else u) :=
  syRow_begins exec_syFence ho h rfl

/-! ### WAIT (R277) -/

section
variable (ho : dfld d 1 31 28 = 2)
include ho

theorem syWait_takes (hn : dfld d 1 15 0 ≤ u.waitSem q d) (hw : u.waitersBefore q d = []) : EndsEngine (.syWait q d) s
    (u.setSem (keyTower (qKey q)) (u.actor (qKey q)).slot (dfld d 1 21 17) (u.waitSem q d - dfld d 1 15 0)) := by
  unfold State.waitSem State.waitersBefore at *
  exact syRow_begins exec_syWait ho h (if_pos (by simp [hn, hw]))

theorem syWait_waits (hn : u.waitSem q d < dfld d 1 15 0 ∨ u.waitersBefore q d ≠ []) : EndsEngine (.syWait q d) s
    (u.qSet (qKey q) { u.qGet (qKey q) with st := 2, go := true, since := u.nextPlace, at_ := u.time }) := by
  unfold State.waitSem State.waitersBefore at hn
  exact syRow_begins exec_syWait ho h (if_neg (by simpa [Decidable.imp_iff_not_or] using hn))

end

/-! ### POST (R276) -/

section
variable (ho : dfld d 1 31 28 = 3)
include ho

theorem syPost_posts (ht : dfld d 1 26 22 ∈ u.towersOf (u.actor (qKey q)).st) : EndsEngine (.syPost q d) s
    (let r := u.post (dfld d 1 26 22) (u.actor (qKey q)).slot (dfld d 1 21 17) (dfld d 1 15 0)
     if r.2 then r.1.failDesc (qKey q) (if q.k = .bn then 0 else 18) 3 d else r.1) := by
  refine syRow_begins exec_syPost ho h ((if_neg (by simpa using ht)).trans ?_)
  simp only [qKey_lt_iff, ite_not]

theorem syPost_refused (ht : dfld d 1 26 22 ∉ u.towersOf (u.actor (qKey q)).st) : EndsEngine (.syPost q d) s
    (if q.k = .bn then u.bnRefuse (keyTower (qKey q)) d 0 else u.failDesc (qKey q) 19 1 d) :=
  syRow_begins exec_syPost ho h ((if_pos (by simpa using ht)).trans (refuseDesc_qKey u q 19 d))

end

/-! ### STAMP (R278) -/

section
variable (ho : dfld d 1 31 28 = 4)
include ho

theorem syStamp_begins {v : State}
    (hv : (if u.stampBad q (d64 d 3) then u.refuseDesc (qKey q) 19 d
      else (u.stamp q (d64 d 3)).2.accessFail (qKey q) (u.stamp q (d64 d 3)).1 d) = v) : EndsEngine (.syStamp q d) s v := by
  refine syRow_begins exec_syStamp ho h (Eq.trans ?_ hv)
  obtain ⟨core, k⟩ := q
  cases k <;> rfl

/-- A STAMP at an address that it may write stores the time; what the store met decides whether it fails. -/
theorem syStamp_stores {x : Acx} (hm : u.mayStamp q (d64 d 3)) (hx : (u.stamp q (d64 d 3)).1 = x) :
    EndsEngine (.syStamp q d) s ((u.stamp q (d64 d 3)).2.accessFail (qKey q) x d) :=
  syStamp_begins h ho (hx ▸ if_neg (mayStamp_iff.mp hm))

theorem syStamp_refused (hm : ¬ u.mayStamp q (d64 d 3)) : EndsEngine (.syStamp q d) s
    (if q.k = .bn then u.bnRefuse (keyTower (qKey q)) d 0 else u.failDesc (qKey q) 19 1 d) :=
  syStamp_begins h ho ((if_pos (Decidable.not_not.mp (mt mayStamp_iff.mpr hm))).trans (refuseDesc_qKey u q 19 d))

end

end

/-- Settles O39: each SY row by what decides its body, and ST by the one check of its family. -/
theorem syncCommands : Obligations.SyncCommands := by
  intro s u q d k t op i n da runs refused a
  refine ⟨fun h => ⟨syFence_drains h, syWait_takes h, syWait_waits h, syPost_posts h, syPost_refused h, fun ho => ?stamp⟩,
    fun _ h => ?st, fun _ hq v h => ?refused⟩
  case stamp =>
    intro own may r
    exact ⟨fun hm hr => syStamp_stores (x := .ok) h ho hm hr, fun hm hr => syStamp_stores (x := .key) h ho hm hr,
      fun hm hr => syStamp_stores (x := .drop) h ho hm hr, syStamp_refused h ho⟩
  case st => exact endsEngine_of_row exec_stDescriptor (engineRow_run rfl rfl h rfl)
  case refused => exact endsEngine_of_row exec_stDescriptor (engineRow_bad rfl rfl (qKey_lt hq) h rfl)

end Sys2Proof.Machine
end

section
/-! The events of queues (O40): DESCRIPTOR_COMPLETE, the two timeouts of a wait, and SLICE_EXPIRY. -/

namespace Sys2Proof.Machine

/-! ### DESCRIPTOR_COMPLETE (R267, R285) -/

theorem descriptorComplete_idle {s : State} {q : QueueId} (h : (s.qGet (qKey q)).cur = none) :
    exec (.descriptorComplete q) s = .next s := by
  simp only [exec_descriptorComplete, execDescriptorComplete, h]

/-- R285: the port whose host a HOSTWR that completes has written; none for any other descriptor. -/
def State.wroteHost (s : State) (k : Nat) (d : Desc) : Option Nat :=
  if dfld d 0 23 20 == 4 && dfld d 1 31 28 == 6 then s.hostPort (s.actor k) else none

theorem wroteHost_eq_none {s : State} {k : Nat} {d : Desc}
    (h : (dfld d 0 23 20 == 4 && dfld d 1 31 28 == 6) = false ∨ s.hostPort (s.actor k) = none) : s.wroteHost k d = none := by
  rcases h with h | h <;> simp only [State.wroteHost, h, Bool.false_eq_true, if_false, ite_self]

theorem wroteHost_eq_some {s : State} {k p : Nat} {d : Desc} (h : (dfld d 0 23 20 == 4 && dfld d 1 31 28 == 6) = true)
    (hp : s.hostPort (s.actor k) = some p) : s.wroteHost k d = some p :=
  (if_pos h).trans hp

/-- The submission that queue k works for has failed. -/
def State.subFailed (s : State) (k : Nat) : Bool :=
  match (s.actor k).sub.bind s.subAt with
  | some y => y.failed.isSome
  | none => false

theorem subFailed_eq_false {s : State} {k : Nat}
    (h : ∀ i y, (s.actor k).sub = some i → s.subAt i = some y → y.failed = none) : s.subFailed k = false := by
  unfold State.subFailed
  cases hs : (s.actor k).sub with
  | none => rfl
  | some i =>
    cases hy : s.subAt i with
    | none => simp [hy]
    | some y => simp [hy, h i y hs hy]

section
variable {s : State} {q : QueueId} {d : Desc} (hd : (s.qGet (qKey q)).cur = some d)
include hd

theorem descriptorComplete_waits (he : (s.qGet (qKey q)).executing = false) : exec (.descriptorComplete q) s = .next s := by
  simp only [exec_descriptorComplete, execDescriptorComplete, hd, he, Bool.not_false, Bool.true_or, if_true]

variable (he : (s.qGet (qKey q)).executing = true) (hr : s.readsOut (qKey q) = false)
include he hr

/-- A descriptor of a core's queue counts and completes; what its host write took beyond its bound is counted first. -/
theorem descriptorComplete_core (hq : q.k ≠ .bn) : exec (.descriptorComplete q) s =
    .next ((((s.wroteHost (qKey q) d).elim s (fun p => s.latOver p (qKey q) d q.core)).countDone (qKey q) d).complete
      (qKey q) d).settleIdle := by
  simp only [exec_descriptorComplete, execDescriptorComplete, hd, he, hr, hq, Bool.not_true, Bool.or_false, Bool.false_eq_true,
    if_false]
  unfold State.wroteHost
  cases (if (dfld d 0 23 20 == 4 && dfld d 1 31 28 == 6) = true then s.hostPort (s.actor (qKey q)) else none) <;> rfl

variable (hq : q.k = .bn)
include hq

/-- R129: one whose RUN goes on or waits for its banks does not complete. -/
theorem descriptorComplete_bench_busy
    (hb : (s.tower q.core.t.val).bench.run ≠ none ∨ (s.tower q.core.t.val).bench.wait ≠ none) :
    exec (.descriptorComplete q) s = .next s := by
  have hb' : ((s.tower q.core.t.val).bench.run.isSome || (s.tower q.core.t.val).bench.wait.isSome) = true := by
    simpa [Option.isSome_iff_ne_none] using hb
  simp only [exec_descriptorComplete, execDescriptorComplete, hd, he, hr, hq, hb', Bool.not_true, Bool.or_false,
    Bool.false_eq_true, if_false, if_true]

theorem descriptorComplete_bench (hrun : (s.tower q.core.t.val).bench.run = none)
    (hw : (s.tower q.core.t.val).bench.wait = none) : exec (.descriptorComplete q) s =
    .next ((if (dfld d 0 23 20 == 3 && dbit d 1 22) || s.subFailed (qKey q) then s.programEnd q.core.t.val else s).complete
      (qKey q) d).settleIdle := by
  simp only [exec_descriptorComplete, execDescriptorComplete, hd, he, hr, hq, hrun, hw, Bool.not_true, Bool.or_false,
    Bool.false_eq_true, if_false, if_true, Option.isSome_none]
  rfl

end

/-! ### Timeouts of waits (R267, R277) -/

theorem waitFails_idle {s : State} {k : Nat} (h : (s.qGet k).cur = none) (sy : Bool) : s.waitFails k sy = s := by
  simp only [State.waitFails, h]

/-- A wait of a queue, of an SY WAIT where sy is set and of a word 0 where not, fails once its own time has passed. -/
theorem waitFails_of_wait {s : State} {q : QueueId} {d : Desc} (hd : (s.qGet (qKey q)).cur = some d)
    (hst : (s.qGet (qKey q)).st = 2) (sy : Bool) : s.waitFails (qKey q) sy =
      if (s.qGet (qKey q)).go == sy && decide ((s.qGet (qKey q)).at_ + s.waitNs (qKey q) sy d ≤ s.time) then
        (s.failDesc (qKey q) (if q.k = .bn then 0 else 17) 2 d).settleIdle
      else s := by
  simp only [State.waitFails, hd, hst, qKey_lt_iff, ite_not, beq_self_eq_true, Bool.true_and]

/-! ### SLICE_EXPIRY (R313) -/

/-- R313: whether a slice is over is told by the submission that holds the resource. -/
theorem sliceOver_of_served {s : State} {k i : Nat} {y : Sub} (h : s.served k = some (i, y)) :
    s.sliceOver k = decide ((s.aisle k).since + s.sliceLeft k y ≤ s.time) := by
  simp only [State.sliceOver, h]

theorem sliceOver_of_unserved {s : State} {k : Nat} (h : s.served k = none) : s.sliceOver k = false := by
  simp only [State.sliceOver, h]

theorem sliceExpiry_ends {s : State} {r : Resource} (ho : s.sliceOver (resNo r) = true) (hw : s.waitersOf (resNo r) ≠ []) :
    exec (.sliceExpiry r) s =
      .next ((s.modAisle (resNo r) (fun a => { a with expired := true })).switchRes (resNo r)) := by
  simp [execSliceExpiry, ho, hw]

theorem sliceExpiry_stays {s : State} {r : Resource} (h : s.sliceOver (resNo r) = false ∨ s.waitersOf (resNo r) = []) :
    exec (.sliceExpiry r) s = .next s := by
  rcases h with h | h <;> simp [execSliceExpiry, h]

/-- Settles O40: a completion by what the queue is and what holds it, a timeout and a slice by whether their time has
passed. -/
theorem queueEvents : Obligations.QueueEvents := by
  intro s q r k x
  refine ⟨fun d hd => ⟨fun hq he hr => ?core, fun hq he hr => ?bench, fun hst => ?waits, descriptorComplete_waits hd⟩,
    fun hd => ?idle, fun i y hy => ?slice, fun h => ?unserved⟩
  case core =>
    have hx := descriptorComplete_core hd he hr hq
    refine ⟨fun h => ?_, fun p h hp => ?_⟩
    · rw [hx, wroteHost_eq_none h]; rfl
    · rw [hx, wroteHost_eq_some h hp]; rfl
  case bench =>
    refine ⟨descriptorComplete_bench_busy hd he hr hq, fun hrun hw hf => ?_⟩
    rw [descriptorComplete_bench hd he hr hq hrun hw, subFailed_eq_false hf, Bool.or_false]
  case waits =>
    exact ⟨congrArg Host.Outcome.next ((waitFails_of_wait hd hst true).trans (by rw [beq_true]; rfl)),
      congrArg Host.Outcome.next ((waitFails_of_wait hd hst false).trans (by rw [beq_false]; rfl))⟩
  case idle =>
    exact ⟨descriptorComplete_idle hd, congrArg Host.Outcome.next (waitFails_idle hd true),
      congrArg Host.Outcome.next (waitFails_idle hd false)⟩
  case slice =>
    have ho := sliceOver_of_served hy
    exact ⟨fun hd hw => sliceExpiry_ends (ho.trans (decide_eq_true hd)) hw,
      fun hd => sliceExpiry_stays (.inl (ho.trans (decide_eq_false (Nat.not_le.mpr hd))))⟩
  case unserved => exact sliceExpiry_stays (h.imp_left sliceOver_of_unserved)

end Sys2Proof.Machine
end

section
/-! The mover's rows (O44): each kind has its own effect, and a FILL of one row without a map is one store. -/

namespace Sys2Proof.Machine

open Sys2Proof.Safety

/-- The MV command of the descriptor d at core q. -/
abbrev mvCmd (q : CoreId) (d : Desc) : MvC := ⟨qKey ⟨q, .mv⟩, q, d⟩

theorem mvKey_lt (q : CoreId) : qKey ⟨q, .mv⟩ / 8 < 10240 := qKey_lt (q := ⟨q, .mv⟩) nofun

/-- An MV descriptor that begins in u ends as its kind leaves u. -/
theorem mvRow_begins {cmd : Instr} {s u v : State} {q : CoreId} {d : Desc} {code : Nat} {body : MvC → State → State}
    (hx : exec cmd s = .next (s.mvRow q code d body))
    (h : rowBegin s (qKey ⟨q, .mv⟩) 4 (fun _ => (mvCmd q d).ok) d = some u) (hv : body (mvCmd q d) u = v)
    (ho : dfld d 1 31 28 = code) (hc : code ∈ [1, 2, 3, 4, 5, 6, 8] := by decide) : EndsEngine cmd s v :=
  endsEngine_of_row hx (mvRow_run ho hc h (congrArg State.settleIdle hv))

/-! ### FILL (R282) -/

/-- R282: a row of the FILL: FILLV repeated from its low byte. -/
def MvC.fillRow (c : MvC) : List PB :=
  (List.range c.len).map (fun i => ((leBytes 4 (dw c.d 11).toNat).getD (i % 4) 0, false))

section
variable {u : State} {c : MvC} (hr : c.rows = 1)
include hr

/-- Without a map the only row is at the base. -/
theorem mvSide_one_row (base pitch : Nat) : u.mvSide c false base pitch = (some [base], u) := by
  simp [State.mvSide, hr]

/-- A FILL of one row is refused where R281 forbids the row, and is otherwise one store. -/
theorem mvFill_one_row (hm : c.dmap = false) : u.mvFill c =
    if u.engineMem (u.actor c.k) c.core c.dst c.len = false ∨ c.dstMax < c.len then u.refuseDesc c.k 19 c.d
    else
      let a := u.actor c.k
      let r := u.store (a.who false) a.sub c.dst c.fillRow
      r.2.accessFail c.k r.1 c.d := by
  simp [State.mvFill, hm, mvSide_one_row hr, State.mvMay, hr, MvC.fillRow]

end

/-- Settles O44: a row ends as its kind leaves the state in which it begins; a FILL of one row is one store or a refusal. -/
theorem moverCommands : Obligations.MoverCommands := by
  intro s q d k c kind runs
  refine ⟨fun v ho h => ?bad, fun u ho h => ?pack, fun u h => ⟨⟨?_, ?_, ?_, ?_, ?_, ?_⟩, ?fill⟩⟩
  case bad => exact endsEngine_of_row exec_mvCopy (engineRow_bad ho rfl (mvKey_lt q) h rfl)
  case pack => exact endsEngine_of_row exec_pack (engineRow_run ho rfl h rfl)
  case fill =>
    intro row a r ho hr hm
    refine ⟨fun he hl hs => ?_, fun he => ?_⟩
    · have may : ¬ (u.engineMem a q c.dst c.len = false ∨ c.dstMax < c.len) :=
        not_or.mpr ⟨by simpa using he, Nat.not_lt.mpr hl⟩
      have stores : u.mvFill c = r.2.accessFail k r.1 d := (mvFill_one_row hr hm).trans (if_neg may)
      exact mvRow_begins exec_mvFill h (stores.trans (congrArg (r.2.accessFail k · d) hs)) ho
    · have refused : u.mvFill c = u.refuseDesc k 19 d := (mvFill_one_row hr hm).trans (if_pos he)
      exact mvRow_begins exec_mvFill h (refused.trans (if_pos (mvKey_lt q))) ho
  · exact mvRow_begins exec_mvCopy h rfl
  · exact mvRow_begins exec_mvConvert h rfl
  · exact mvRow_begins exec_mvFill h rfl
  · exact mvRow_begins exec_mvAtomic h rfl
  · exact mvRow_begins exec_mvHostrd h rfl
  · exact mvRow_begins exec_mvHostwr h rfl

end Sys2Proof.Machine
end

section
/-! The order of a step's parts (O49): what begins a step, and that each later part stays out of turn. -/

namespace Sys2Proof.Machine

/-! ### What begins a step (R292, R333) -/

/-- A read of the register just stored gives the word stored. -/
@[simp] theorem reg_setReg_same (s : State) (a : Nat) (w : Word) : (s.setReg a w).reg a = w :=
  mget_mset_same ..

theorem beginStep_part (s : State) (i : Nat) : ((s.beginStep i).stall i).part = 1 := by
  simp only [State.beginStep, State.stall_modStall]

/-- R292: the step counter advances by one. -/
theorem beginStep_stepCounter (s : State) (i : Nat) : (s.beginStep i).reg (stlR i 0xC0) = s.reg (stlR i 0xC0) + 1 :=
  reg_setReg_same ..

theorem idleDue_iff {s : State} {i : Nat} :
    s.idleDue i = true ↔ (s.stall i).idleAt + 1000 * s.fld (stlR i 0x104) 31 16 ≤ s.time := by
  simp [State.idleDue]

section
variable {s : State} {st : Stall}

theorem stepIntake_begins (l : List Sample) (h : s.mayStep st.val = true) :
    exec (.stepIntake st l) s = .next ((s.beginStep st.val).sampleStall st.val l) := by
  simp [execStepIntake, h]

theorem stepIntake_stays (l : List Sample) (h : s.mayStep st.val = false) : exec (.stepIntake st l) s = .next s := by
  simp [execStepIntake, h]

theorem idleSampleTimer_samples (l : List Sample) (hm : s.mayStep st.val = true) (hd : s.idleDue st.val = true) :
    exec (.idleSampleTimer st l) s = (let v := s.sampleStall st.val l
      .next (if (s.stall st.val).taken.length < (v.stall st.val).taken.length then v.beginStep st.val
        else v.modStall st.val (fun x => { x with idleAt := v.time }))) := by
  simp [execIdleSampleTimer, hm, hd]

theorem idleSampleTimer_stays (l : List Sample) (h : s.mayStep st.val = false ∨ ¬ s.idleDue st.val = true) :
    exec (.idleSampleTimer st l) s = .next s := by
  rcases h with h | h <;> simp [execIdleSampleTimer, h]

/-! ### Parts out of turn (R333) -/

theorem stepAdmission_stays (h : (s.stall st.val).part ≠ 1) : exec (.stepAdmission st) s = .next s := by
  simp [execStepAdmission, h]

theorem stepAllocate_stays (h : (s.stall st.val).part ≠ 2) : exec (.stepAllocate st) s = .next s := by
  simp [execStepAllocate, h]

theorem stepLayers_stays (rows : List RowOut) (h : (s.stall st.val).part ≠ 3) : exec (.stepLayers st rows) s = .next s := by
  simp [execStepLayers, h]

theorem layerCheck_stays {l : Byte}
    (h : (s.stall st.val).part ≠ 4 ∨ (s.stall st.val).layer ≠ l.toNat ∨ s.quantising st.val = true) :
    exec (.layerCheck st l) s = .next s := by
  rcases h with h | h | h <;> simp [execLayerCheck, h]

theorem stepVerify_stays
    (h : (s.stall st.val).part ≠ 4 ∨ (s.stall st.val).layer < s.layers st.val ∨ s.enginesBusy st.val = true) :
    exec (.stepVerify st) s = .next s := by
  rcases h with h | h | h <;> simp [execStepVerify, h]

theorem stepCommit_stays (h : (s.stall st.val).part ≠ 5) : exec (.stepCommit st) s = .next s := by
  simp [execStepCommit, h]

theorem stepEmit_stays (rooms : List RingRead) (h : s.mayEmit st.val = false) : exec (.stepEmit st rooms) s = .next s := by
  simp [execStepEmit, h]

theorem stepFree_stays (h : (s.stall st.val).part ≠ 7) : exec (.stepFree st) s = .next s := by
  simp [execStepFree, h]

/-- A boundary at which no step ends does what is due there. -/
theorem stepBoundary_idle (h : (s.stall st.val).part ≠ 8) : exec (.stepBoundary st) s = .next s.settleIdle := by
  simp [execStepBoundary, h]

/-! ### Histogram steps (R248) -/

theorem histogramStep_marks (hs : s.inStep st.val = true) (hh : s.histDue st.val = true) :
    exec (.histogramStep st) s = .next (s.modStall st.val (fun x => { x with hist := true })) := by
  simp [execHistogramStep, hs, hh]

theorem histogramStep_stays (h : s.inStep st.val = false ∨ s.histDue st.val = false) :
    exec (.histogramStep st) s = .next s := by
  rcases h with h | h <;> simp [execHistogramStep, h]

end

/-- Settles O49: intake and the idle sample by whether a step may begin, every other part by whether its turn has come. -/
theorem stepOrder : Obligations.StepOrder := by
  intro s st i part due
  have hdue : s.idleDue i = true ↔ due := idleDue_iff
  exact ⟨fun l h => ⟨stepIntake_begins l h, beginStep_part s i, beginStep_stepCounter s i⟩, fun l => stepIntake_stays l,
    fun l h => idleSampleTimer_stays l (h.imp_right (mt hdue.mp)),
    fun l hm hd => idleSampleTimer_samples l hm (hdue.mpr hd),
    stepAdmission_stays, stepAllocate_stays, fun rows => stepLayers_stays rows, fun l => layerCheck_stays, stepVerify_stays,
    stepCommit_stays, fun rooms => stepEmit_stays rooms, stepFree_stays, stepBoundary_idle, histogramStep_marks,
    histogramStep_stays⟩

end Sys2Proof.Machine
end

section
/-! The records of the intake rings (O51): a record command is `applyRecord` of the record with the command's TYPE, which the
record's header, fields and session divide. -/

namespace Sys2Proof.Machine

/-! ### The TYPE of a record (R299) -/

/-- Word 0 of a list of words is its first. -/
theorem dw_descOf_cons (w : Word) (ws : List Word) : dw (descOf (w :: ws)) 0 = w := by
  have hw := w.isLt
  apply BitVec.eq_of_toNat_eq
  simp only [dw, descOf, natOfWords, BitVec.toNat_ofNat, Nat.mul_zero, Nat.shiftRight_zero]
  omega

/-- The TYPE of a record stands in bits 31 to 24 of word 0. -/
theorem dfld_dput_type (d : BitVec 512) {type : Nat} (h : type < 256) : dfld (dput d 0 31 24 type) 0 31 24 = type := by
  have hd := (dw d 0).isLt
  have hw : dw (dput d 0 31 24 type) 0 = fset (dw d 0) 31 24 type := dw_descOf_cons ..
  rw [dfld, hw]
  simp only [fget, bitsOf, fset, BitVec.toNat_ofNat, Nat.shiftRight_eq_div_pow]
  omega

/-! ### A record taken (R301, R333) -/

/-- The record taken last is numbered among those of its stall, and kept for a step that is done again. -/
def State.numbers (s : State) (h : Taken) : State :=
  s.modStall (s.ringStall h.pair) (fun y => { y with ordNo := (s.stall (s.ringStall h.pair)).ordNo + 1, redo := y.redo ++ [h] })

/-- The record r of TYPE type at ring pair k, as a command takes it. -/
def State.commandRecord (s : State) (k type : Nat) (r : Desc) : Taken :=
  ⟨k, dfld (dput r 0 31 24 type) 0 15 0, dput r 0 31 24 type, s.time, 0⟩

/-- A record that no sample took is applied as the command takes it. -/
theorem recordCmd_of_untaken {s : State} {p : Port} {n : Pair} (h : (s.stall (s.ringStall (p.val * 4 + n.val))).taken = [])
    (type : Nat) (r : Desc) : s.recordCmd p n type r = s.applyRecord (s.commandRecord (p.val * 4 + n.val) type r) := by
  simp only [State.recordCmd, h, List.find?_nil]
  rfl

theorem applyRecord_headerError {s : State} (h : Taken) {code detail : Nat}
    (he : s.headerError h.pair h.r = some (code, detail)) :
    s.applyRecord h = s.answerError h.pair (d64 h.r 2) code h.idx detail := by
  simp only [State.applyRecord, he]

section
variable {s : State} (h : Taken) (he : s.headerError h.pair h.r = none)
include he

theorem applyRecord_open (ht : dfld h.r 0 31 24 = 1) :
    s.applyRecord h = (s.numbers h).applyOpen (s.ringStall h.pair) h (s.stall (s.ringStall h.pair)).ordNo := by
  simp only [State.applyRecord, he, ht]
  rfl

theorem applyRecord_expert (ht : dfld h.r 0 31 24 = 16) :
    s.applyRecord h = (s.numbers h).modStall (s.ringStall h.pair) (fun y => { y with experts := y.experts ++ [h] }) := by
  simp only [State.applyRecord, he, ht]
  rfl

theorem applyRecord_session (h1 : dfld h.r 0 31 24 ≠ 1) (h16 : dfld h.r 0 31 24 ≠ 16) :
    s.applyRecord h = (s.numbers h).applySession h (s.stall (s.ringStall h.pair)).ordNo := by
  simp only [State.applyRecord, he]
  rfl

end

/-! ### A record of a session (R326 to R329) -/

theorem applySession_badField {s : State} (h : Taken) {w : Nat} (hb : badField h.r = some w) (ord : Nat) :
    s.applySession h ord = s.answerError h.pair (d64 h.r 2) 0x103 h.idx w := by
  simp only [State.applySession, hb]

section
variable {s : State} (h : Taken) (hb : badField h.r = none) (ord : Nat)
include hb

theorem applySession_noSession (hf : s.findSes (dfld h.r 1 7 0) (dw h.r 4) = none) :
    s.applySession h ord = s.answerError h.pair (d64 h.r 2) 0x101 h.idx (dw h.r 4).toNat := by
  simp only [State.applySession, hb, hf]

variable {x : Ses} (hf : s.findSes (dfld h.r 1 7 0) (dw h.r 4) = some x) (hx : x.ending = none)
include hf hx

theorem applySession_held (hw : x.st = .wait) (ht : dfld h.r 0 31 24 ≠ 6) :
    s.applySession h ord = s.putSes { x with held := x.held ++ [{ h with ord := ord }] } := by
  simp [State.applySession, hb, hf, hx, hw, ht]

/-- A record that is not held acts on its session. -/
theorem applySession_acts (hw : x.st ≠ .wait ∨ dfld h.r 0 31 24 = 6) : s.applySession h ord = s.applyTo x h ord := by
  rcases hw with hw | hw <;> simp [State.applySession, hb, hf, hx, hw]

end

/-! ### What each TYPE does to its session -/

section
variable (s : State) {x : Ses} (h : Taken) (ord : Nat)

/-- R327: a SUBMIT or an APPEND joins the queue of a session that is not full while it holds fewer than four. -/
theorem applyTo_request (ht : dfld h.r 0 31 24 = 2 ∨ dfld h.r 0 31 24 = 3) (hf : x.full = false) (hq : x.queue.length < 4) :
    s.applyTo x h ord = s.putSes { x with queue := x.queue ++ [mkRq x h.r h.t ord] } := by
  rcases ht with ht | ht <;> simp [State.applyTo, State.applyRequest, ht, hf, Nat.not_le.mpr hq]

/-- R348. -/
theorem applyTo_draft (ht : dfld h.r 0 31 24 = 4) : s.applyTo x h ord = s.putSes { x with
    draft := some (dfld h.r 5 18 0, (List.range (dfld h.r 5 31 29)).map (fun i => dw h.r (6 + i))) } := by
  simp only [State.applyTo, ht, State.applyDraft]

/-- R344, R346: a CANCEL of the active request. -/
theorem applyTo_cancel_active (ht : dfld h.r 0 31 24 = 5) {q : Rq} (ha : x.act = some q) (hc : x.cancel = none) :
    s.applyTo x h ord = (s.putSes { x with
      cancel := some (1, 5)
      trunc := if dbit h.r 5 31 then some (max (dfld h.r 5 18 0) q.len0) else none
      drop := true }).bump (stlR x.stall 0x26C) 1 := by
  simp only [State.applyTo, ht, State.applyCancel, ha, hc]

/-- R344: a CANCEL that finds no request. -/
theorem applyTo_cancel_idle (ht : dfld h.r 0 31 24 = 5) (ha : x.act = none) (hq : x.queue = []) :
    s.applyTo x h ord = s.answerError h.pair (d64 h.r 2) 0x102 h.idx x.sid.toNat := by
  simp only [State.applyTo, ht, State.applyCancel, ha, hq]

/-- R347. -/
theorem applyTo_close (ht : dfld h.r 0 31 24 = 6) : s.applyTo x h ord = s.applyClose x := by
  simp only [State.applyTo, ht]

end

/-- The command of each TYPE takes its record. -/
theorem exec_recordCmd {p : Port} {n : Pair} {r : Desc} {type : Nat} {cmd : Instr}
    (h : (type = 1 ∧ cmd = .openSession p n r) ∨ (type = 2 ∧ cmd = .submit p n r) ∨ (type = 3 ∧ cmd = .append p n r) ∨
      (type = 4 ∧ cmd = .draft p n r) ∨ (type = 5 ∧ cmd = .cancel p n r) ∨ (type = 6 ∧ cmd = .close p n r) ∨
      (type = 16 ∧ cmd = .expertList p n r)) (s : State) :
    exec cmd s = .next (s.recordCmd p n type r) ∧ type < 256 := by
  rcases h with ⟨rfl, rfl⟩ | ⟨rfl, rfl⟩ | ⟨rfl, rfl⟩ | ⟨rfl, rfl⟩ | ⟨rfl, rfl⟩ | ⟨rfl, rfl⟩ | ⟨rfl, rfl⟩ <;>
    exact ⟨rfl, by decide⟩

/-- Settles O51: header, fields and session of the record decide what answers it, and its TYPE what it does to a session. -/
theorem intakeRecords : Obligations.IntakeRecords := by
  intro s p n r type cmd hcmd k rec_ st idx ord h seen hun
  obtain ⟨hx, htype⟩ := exec_recordCmd hcmd s
  rw [recordCmd_of_untaken hun] at hx
  have ht : dfld rec_ 0 31 24 = type := dfld_dput_type r htype
  have leaves {v : State} (hv : s.applyRecord h = v) : exec cmd s = .next v := hx.trans (congrArg Host.Outcome.next hv)
  refine ⟨fun code detail he => leaves (applyRecord_headerError h he),
    fun he => ⟨fun h1 => ?_, fun h16 => ?_, fun h1 h16 => ?_⟩⟩
  · exact leaves (applyRecord_open h he (ht.trans h1))
  · exact leaves (applyRecord_expert h he (ht.trans h16))
  have session {v : State} (hv : seen.applySession h ord = v) : exec cmd s = .next v :=
    leaves ((applyRecord_session h he (ht ▸ h1) (ht ▸ h16)).trans hv)
  refine ⟨fun w hb => session (applySession_badField h hb ord),
    fun hb hf => session (applySession_noSession h hb ord hf), fun x hb hf hend => ?_⟩
  have acts {v : State} (hw : x.st ≠ .wait ∨ type = 6) (hv : seen.applyTo x h ord = v) : exec cmd s = .next v :=
    session ((applySession_acts h hb ord hf hend (hw.imp_right ht.trans)).trans hv)
  refine ⟨fun hw h6 => ?_, fun hw h6 => ?_, fun hw h4 => ?_, fun hw h23 hfull hq => ?_, fun q hw h5 ha hc => ?_,
    fun hw h6 => ?_, fun hw h5 ha hq => ?_⟩
  · exact session (applySession_held h hb ord hf hend hw (ht ▸ h6))
  · exact acts (.inr h6) ((applyTo_close _ h ord (ht.trans h6)).trans (if_pos hw))
  · exact acts (.inl hw) (applyTo_draft _ h ord (ht.trans h4))
  · exact acts (.inl hw) (applyTo_request _ h ord (h23.imp ht.trans ht.trans) hfull hq)
  · exact acts (.inl hw) (applyTo_cancel_active _ h ord (ht.trans h5) ha hc)
  · exact acts (.inl hw) ((applyTo_close _ h ord (ht.trans h6)).trans (if_neg hw))
  · exact acts (.inl hw) (applyTo_cancel_idle _ h ord (ht.trans h5) ha hq)

end Sys2Proof.Machine
end

section
/-! What the writes of DEV, STALL_CLAIM and STL registers share (O16, O19, O20): a register of class D stores its fields, an
action register acts, and RW fields beside an action are stored before it. -/

namespace Sys2Proof.Machine

open Sys2Proof.Safety

/-- The RW bits of a register whose RW fields are all of class D, from its row of the register tables. -/
theorem rwBits_of_dynamic {addr : Nat} {pg : Pg} {r : RegDef} {mask : Word} (hp : pageNo (addr / 4096) = some pg)
    (hr : pg.kind.regAt (addr % 4096) = some r) (ho : addr % 4096 ≠ 0x1C)
    (hd : ∀ x ∈ r.fields, x.acc = .rw → x.cls = .d) (hall : rwMask r (fun _ => true) = mask) (f : Cls → Bool) : rwBits addr f = if f .d then mask else 0 :=
  (rwBits_eq hp hr ho).trans (rwMask_of_dynamic f hd hall)

section
variable {s : State} {src : Src} {pg : Pg} {addr o : Nat} {val : Word} (hp : pageNo (addr / 4096) = some pg)
  (ho : addr % 4096 = o)
include hp ho

/-- A write that stores nothing is its action. -/
theorem regCmd_of_action (h : reaches s src addr val = true) (hs : ∀ u : State, u.writeRW src pg addr val = u) :
    s.regCmd src addr val = (s.act src pg o val).settleIdle := by
  rw [regCmd_of_reaches h hp, ho, hs, hs, ite_self]

variable {mask : Word} (hm : ∀ f, rwBits addr f = if f .d then mask else 0) (hne : mask ≠ 0)
  (h : takes s src addr val = true) (h10 : o ≠ 0x10) (h20 : o ≠ 0x20) (h80 : o ≠ 0x80)
include hm hne h h10 h20 h80

/-- R5: a write of fields of class D that requests no action stores them. -/
theorem regCmd_of_dynamic (hact : s.act src pg o val = s) (hc : takesCompanion pg o val = false) :
    s.regCmd src addr val = (s.applyRW src addr mask val).settleIdle := by
  obtain ⟨hreach, hx⟩ := takes_iff.mp h
  have hlast : ¬ (takesCompanion pg o val || o == 0x10) = true := by simp [hc, h10]
  rw [regCmd_of_reaches hreach hp, ho, if_neg hlast, hact,
    writeRW_of_dynamic hm hne hx (ho ▸ h10) (ho ▸ h20) (ho ▸ h80)]

/-- Fields of class D beside an action that takes them are stored before it acts. -/
theorem regCmd_of_companion (hc : takesCompanion pg o val = true) :
    s.regCmd src addr val = ((s.applyRW src addr mask val).act src pg o val).settleIdle := by
  obtain ⟨hreach, hx⟩ := takes_iff.mp h
  have hfirst : (takesCompanion pg o val || o == 0x10) = true := by simp [hc]
  rw [regCmd_of_reaches hreach hp, ho, if_pos hfirst,
    writeRW_of_dynamic hm hne hx (ho ▸ h10) (ho ▸ h20) (ho ▸ h80)]

end

/-- What a store elsewhere leaves of the present configuration (R304). -/
theorem stalls_setReg (s : State) {a : Nat} (w : Word) (h : devR 0xD0 ≠ a) : (s.setReg a w).stalls = s.stalls := by
  simp only [State.stalls, State.nstall, State.fld, reg_setReg_other s w h]

/-- What a store elsewhere leaves of the owners of a stall, in effect and pending (R306). -/
theorem pendingOwner_setReg (s : State) {a st : Nat} (w : Word) (h : stlR st 0x80 ≠ a) :
    (s.setReg a w).pendingOwner st = s.pendingOwner st := by
  simp only [State.pendingOwner, State.owner, State.fld, reg_setReg_other s w h]
  rfl

end Sys2Proof.Machine
end

section
/-! The DEV page (O16): SWRST is an action; STALL_CFG and ERR_SEL hold fields of class D with effects of their own. -/

namespace Sys2Proof.Machine

open Sys2Proof.Safety

theorem regCmd_swrst {s : State} {src : Src} (h : reaches s src 0xC0 1#32 = true) :
    s.regCmd src 0xC0 1#32 = (s.modRst (fun x => { x with swrst := true })).settleIdle :=
  calc s.regCmd src 0xC0 1#32
    _ = (s.act src .dev 0xC0 1#32).settleIdle :=
      regCmd_of_action (pg := .dev) (o := 0xC0) rfl rfl h (fun _ => writeRW_none (by decide))
    _ = _ := rfl

/-- The RW field of STALL_CFG is NSTALL. -/
theorem rwBits_stallCfg : ∀ f, rwBits 0xD0 f = if f .d then 3#32 else 0 :=
  rwBits_of_dynamic (pg := .dev) rfl rfl (by decide) (by decide) (by decide)

/-- The RW fields of ERR_SEL are PAGE and IDX. -/
theorem rwBits_errSel : ∀ f, rwBits 0x100 f = if f .d then 0xFFFC003F#32 else 0 :=
  rwBits_of_dynamic (pg := .dev) rfl rfl (by decide) (by decide) (by decide)

theorem regCmd_stallCfg {s : State} {src : Src} {v : Word} (h : takes s src 0xD0 v = true) :
    s.regCmd src 0xD0 v = (s.askPartition v).settleIdle :=
  calc s.regCmd src 0xD0 v
    _ = (s.applyRW src 0xD0 3#32 v).settleIdle := regCmd_of_dynamic (pg := .dev) (o := 0xD0) rfl rfl rwBits_stallCfg
      (by decide) h (by decide) (by decide) (by decide) rfl rfl
    _ = (s.askPartition v).settleIdle := rfl

theorem regCmd_errSel {s : State} {src : Src} {v : Word} (h : takes s src 0x100 v = true) :
    s.regCmd src 0x100 v = (s.selectErr (srcNum src) v).settleIdle :=
  calc s.regCmd src 0x100 v
    _ = (s.applyRW src 0x100 0xFFFC003F#32 v).settleIdle := regCmd_of_dynamic (pg := .dev) (o := 0x100) rfl rfl rwBits_errSel
      (by decide) h (by decide) (by decide) (by decide) rfl rfl
    _ = (s.selectErr (srcNum src) v).settleIdle := rfl

/-- R305: a partition change is asked for where none is under way and NSTALL differs. -/
theorem askPartition_eq (s : State) (v : Word) : s.askPartition v =
    if s.partn ≠ none ∨ v.toNat % 4 = s.nstall then s
    else { s.setFld 0xD0 5 4 0 with partn := some (v.toNat % 4, v.getLsbD 2) } := by
  have hn : fget v 1 0 = v.toNat % 4 := rfl
  simp only [State.askPartition, hn, fbit_eq_getLsbD, Bool.or_eq_true, Option.isSome_iff_ne_none, decide_eq_true_eq]
  rfl

/-- The error ring of the page that a number names; an empty one where it names none. -/
def State.ringOfPage (s : State) (page : Nat) : ErrRing :=
  match pageNo page with
  | some pg => mget ErrRing.reset s.rf.rings (pg.base / 4096)
  | none => ErrRing.reset

/-- R425: PROD of the page's ring and the words of its record are latched beside the selection. -/
theorem selectErr_eq (s : State) (n : Nat) {v : Word} {page idx : Nat} (hp : fget v 31 18 = page) (hi : fget v 5 0 = idx) :
    s.selectErr n v = (List.range 8).foldl
      (fun (s' : State) j => s'.setCopy n (5 + j) (((s.ringOfPage page).at_ idx).getD j 0))
      ((s.setCopy n 3 (v &&& 0xFFFC003F#32)).setCopy n 4 (BitVec.ofNat 32 (s.ringOfPage page).prod)) := by
  subst hp hi
  rfl

/-- PAGE takes the upper bits of ERR_SEL as a number. -/
theorem fget_errSel_page (v : Word) : fget v 31 18 = v.toNat / 2 ^ 18 := by
  have hv := v.isLt
  simp only [fget, bitsOf, Nat.shiftRight_eq_div_pow]
  omega

/-- Settles O16: each write is its register's, and R305 divides that of STALL_CFG. -/
theorem devWrites : Obligations.DevWrites := by
  intro s src v
  refine ⟨fun h => congrArg Host.Outcome.next (regCmd_swrst h), fun h => ?partition, fun h => ?select⟩
  case partition =>
    have hx : exec (.partitionChange src v) s = .next (s.askPartition v).settleIdle :=
      congrArg Host.Outcome.next (regCmd_stallCfg h)
    refine ⟨fun hn hd => hx.trans (next_settleIdle ?_), fun hno => hx.trans (next_settleIdle ?_)⟩
    · have hfree : ¬ (s.partn ≠ none ∨ v.toNat % 4 = s.nstall) := by simp [hn, hd]
      exact (askPartition_eq s v).trans (if_neg hfree)
    · exact (askPartition_eq s v).trans (if_pos hno)
  case select =>
    have hx : exec (.errSelWrite src v) s = .next (s.selectErr (srcNum src) v).settleIdle :=
      congrArg Host.Outcome.next (regCmd_errSel h)
    exact hx.trans (next_settleIdle (selectErr_eq s (srcNum src) (fget_errSel_page v) rfl))

end Sys2Proof.Machine
end

section
/-! Owners of stalls (O19): CLAIM and RELEASE store STALL and then ask for the change; OWNER_SET asks for it alone. -/

namespace Sys2Proof.Machine

open Sys2Proof.Safety

/-- The words that CLAIM and RELEASE of a stall write. -/
def claimWord (release : Bool) (st : Stall) : Word := w32 (2 ^ (if release then 30 else 31) + st.val)

theorem claimWord_fields : ∀ (release : Bool) (st : Stall), fbit (claimWord release st) 31 = !release ∧
    fbit (claimWord release st) 30 = release ∧ fget (claimWord release st) 1 0 = st.val ∧
    claimWord release st &&& 3#32 = BitVec.ofNat 32 st.val := by decide

/-- The word that OWNER_SET writes. -/
theorem ownerWord_fields :
    ∀ q : Fin 8, fbit (w32 (2 ^ 31 + q.val)) 31 = true ∧ fget (w32 (2 ^ 31 + q.val)) 2 0 = q.val := by decide

section
variable {p : Port}

theorem stallClaim_page : pageNo (prtR p.val 0x400 / 4096) = some (.prt p.val) := pageNo_prtR p.isLt (by decide)

theorem stallClaim_offset : prtR p.val 0x400 % 4096 = 0x400 := prtR_mod (by decide)

/-- The RW field of STALL_CLAIM is STALL. -/
theorem rwBits_stallClaim : ∀ f, rwBits (prtR p.val 0x400) f = if f .d then 3#32 else 0 :=
  rwBits_of_dynamic stallClaim_page ((congrArg _ stallClaim_offset).trans rfl) (by simp [stallClaim_offset]) (by decide)
    (by decide)

theorem applyRW_stallClaim (s : State) (src : Src) (mask val : Word) :
    let a := prtR p.val 0x400
    s.applyRW src a mask val = s.setReg a ((s.reg a &&& ~~~mask) ||| (val &&& mask)) := by
  simp [State.applyRW, State.storeBits, stallClaim_page, stallClaim_offset]

end

/-- R306: the pending owner must be none for a CLAIM, the port for a RELEASE. -/
theorem claimStall_eq (s : State) (p st : Nat) (release : Bool) : s.claimStall p st release =
    if st < s.stalls ∧ s.pendingOwner st = (if release then p else 7)
    then (s.setFld (prtR p 0x400) 3 2 1).pushOwner st (if release then 7 else p)
    else s.setFld (prtR p 0x400) 3 2 2 := by
  by_cases h : st < s.stalls ∧ s.pendingOwner st = (if release then p else 7)
  · simp [State.claimStall, h]
  · have hno : (decide (st < s.stalls) && s.pendingOwner st == (if release then p else 7)) = false := by
      simpa using h
    simp only [State.claimStall, hno, if_neg h, Bool.false_eq_true, if_false]

/-- R306: a CLAIM or RELEASE that takes effect stores STALL, and is then accepted or not. -/
theorem regCmd_stallClaim {s : State} {src : Src} {p : Port} {st : Stall} {release : Bool}
    (h : takes s src (prtR p.val 0x400) (claimWord release st) = true) :
    let a := prtR p.val 0x400
    let u := s.setReg a ((s.reg a &&& ~~~3#32) ||| BitVec.ofNat 32 st.val)
    s.regCmd src a (claimWord release st) =
      (if st.val < s.stalls ∧ s.pendingOwner st.val = (if release then p.val else 7)
        then (u.setFld a 3 2 1).pushOwner st.val (if release then 7 else p.val)
        else u.setFld a 3 2 2).settleIdle := by
  intro a u
  obtain ⟨h31, h30, hst, hlow⟩ := claimWord_fields release st
  have hc : takesCompanion (.prt p.val) 0x400 (claimWord release st) = true := by simp [takesCompanion, h31, h30]
  have hdev : devR 0xD0 ≠ a := by simp only [devR, a, prtR, Pg.base]; omega
  have hstl : stlR st.val 0x80 ≠ a := by simp only [a, stlR, prtR, Pg.base]; omega
  calc s.regCmd src a (claimWord release st)
    _ = (u.act src (.prt p.val) 0x400 (claimWord release st)).settleIdle := by
      rw [regCmd_of_companion stallClaim_page stallClaim_offset rwBits_stallClaim (by decide) h (by decide) (by decide)
        (by decide) hc, applyRW_stallClaim, hlow]
    _ = (u.claimStall p.val st.val release).settleIdle := by
      cases release <;> simp [State.act, h31, h30, hst]
    _ = _ := by rw [claimStall_eq, stalls_setReg _ _ hdev, pendingOwner_setReg _ _ hstl]

theorem act_ownerSet (s : State) (src : Src) (st : Nat) {q : Nat} {val : Word} (hset : fbit val 31 = true)
    (hport : fget val 2 0 = q) : s.act src (.stl st) 0x80 val = if st < s.stalls then s.pushOwner st q else s := by
  simp [State.act, hset, hport]

/-- R306: OWNER_SET queues the owner it names for a stall of the present configuration. -/
theorem regCmd_ownerSet {s : State} {src : Src} {st : Stall} {q : Fin 8}
    (h : reaches s src (stlR st.val 0x80) (w32 (2 ^ 31 + q.val)) = true) :
    s.regCmd src (stlR st.val 0x80) (w32 (2 ^ 31 + q.val)) =
      (if st.val < s.stalls then s.pushOwner st.val q.val else s).settleIdle := by
  obtain ⟨hset, hport⟩ := ownerWord_fields q
  have ho : stlR st.val 0x80 % 4096 = 0x80 := stlR_mod (by decide)
  have hnone (u : State) : u.writeRW src (.stl st.val) (stlR st.val 0x80) (w32 (2 ^ 31 + q.val)) = u := by
    simp [State.writeRW, ho, Pg.kind]
  rw [regCmd_of_action (pageNo_stlR st.isLt (by decide)) ho h hnone, act_ownerSet _ _ _ hset hport]

/-- A command that writes a claim word is accepted for a stall of the present configuration whose pending owner R306 asks
for, and refused for any other. -/
theorem stallClaim_ends {cmd : Instr} {s : State} {src : Src} {p : Port} {st : Stall} {release : Bool}
    (hx : exec cmd s = .next (s.regCmd src (prtR p.val 0x400) (claimWord release st)))
    (h : takes s src (prtR p.val 0x400) (claimWord release st) = true) :
    let a := prtR p.val 0x400
    let u := s.setReg a ((s.reg a &&& ~~~3#32) ||| BitVec.ofNat 32 st.val)
    let asked := if release then p.val else 7
    (st.val < s.stalls → s.pendingOwner st.val = asked →
      exec cmd s = .next ((u.setFld a 3 2 1).pushOwner st.val (if release then 7 else p.val)).settleIdle) ∧
    (s.stalls ≤ st.val ∨ s.pendingOwner st.val ≠ asked → exec cmd s = .next (u.setFld a 3 2 2).settleIdle) := by
  intro a u asked
  rw [hx, regCmd_stallClaim h]
  refine ⟨fun hst ho => next_settleIdle (if_pos ⟨hst, ho⟩), fun hno => next_settleIdle (if_neg ?_)⟩
  exact fun ⟨hst, ho⟩ => hno.elim (Nat.not_le.mpr hst) (· ho)

/-- Settles O19: the stall's pending owner and the present configuration divide CLAIM and RELEASE, the latter alone
OWNER_SET. -/
theorem stallOwnership : Obligations.StallOwnership := by
  intro s src p st a h
  refine ⟨stallClaim_ends (release := false) rfl, stallClaim_ends (release := true) rfl, fun q hw => ?_⟩
  have hx : exec (.ownerSet src st q) s = .next _ := congrArg Host.Outcome.next (regCmd_ownerSet hw)
  exact ⟨fun hst => hx.trans (next_settleIdle (if_pos hst)),
    fun hno => hx.trans (next_settleIdle (if_neg (Nat.not_lt.mpr hno)))⟩

end Sys2Proof.Machine
end

section
/-! The commands of an STL page (O20): RECONF and INTEG are actions; CTX_CFG holds fields of class D, whose write opens or
closes its context. -/

namespace Sys2Proof.Machine

open Sys2Proof.Safety

/-! ### RECONF and INTEG (R307, R432) -/

/-- The word that RECONF_GO writes. -/
def reconfWord (force : Bool) : Word := w32 (2 ^ 31 + b2n force * 2 ^ 30)

theorem reconfWord_fields : ∀ force : Bool, fbit (reconfWord force) 31 = true ∧ fbit (reconfWord force) 30 = force := by
  decide

theorem reconfWord_eq (force : Bool) : reconfWord force = BitVec.ofNat 32 (2 ^ 31 + (if force then 2 ^ 30 else 0)) := by
  cases force <;> rfl

/-- A register of an STL page without RW bits holds nothing of a write. -/
theorem writeRW_stl_none {o : Nat} {r : RegDef} (ho : o < 4096) (hien : o ≠ 0x1C) (hr : PKind.stl.regAt o = some r)
    (hall : rwMask r (fun _ => true) = 0) (st : Stall) (u : State) (src : Src) (val : Word) :
    u.writeRW src (.stl st.val) (stlR st.val o) val = u := by
  have hmod : stlR st.val o % 4096 = o := stlR_mod ho
  have hr' : (Pg.stl st.val).kind.regAt (stlR st.val o % 4096) = some r := (congrArg _ hmod).trans hr
  exact writeRW_none ((rwBits_eq (pageNo_stlR st.isLt ho) hr' (by omega)).trans hall)

theorem act_reconf (s : State) (src : Src) {st : Nat} {val : Word} (hst : st < s.stalls) (hgo : fbit val 31 = true) :
    s.act src (.stl st) 0x84 val = s.modStall st (fun x => { x with reconf := some (fbit val 30) }) := by
  simp [State.act, hst, hgo]

/-- R307: RECONF_GO asks a stall of the present configuration for a reconfiguration. -/
theorem regCmd_reconfGo {s : State} {src : Src} {st : Stall} {force : Bool}
    (h : reaches s src (stlR st.val 0x84) (reconfWord force) = true) (hst : st.val < s.stalls) :
    s.regCmd src (stlR st.val 0x84) (reconfWord force) =
      (s.modStall st.val (fun x => { x with reconf := some force })).settleIdle := by
  obtain ⟨hgo, hforce⟩ := reconfWord_fields force
  rw [regCmd_of_action (pageNo_stlR st.isLt (by decide)) (stlR_mod (by decide)) h
    (fun u => writeRW_stl_none (by decide) (by decide) rfl (by decide) st u src _), act_reconf s src hst hgo, hforce]

/-- R432: RESUME begins the check of an integrity stop. -/
theorem regCmd_resume {s : State} {src : Src} {st : Stall} (h : reaches s src (stlR st.val 0x280) 0x80000000#32 = true) :
    s.regCmd src (stlR st.val 0x280) 0x80000000#32 = (s.integCheck st.val).settleIdle := by
  rw [regCmd_of_action (pageNo_stlR st.isLt (by decide)) (stlR_mod (by decide)) h
    (fun u => writeRW_stl_none (by decide) (by decide) rfl (by decide) st u src _)]
  rfl

/-! ### A write of CTX_CFG (R309, R310) -/

/-- The 64 CTX_CFG of an STL page are one row of the table. -/
theorem regAt_ctxCfg : ∀ k : Fin 64, PKind.stl.regAt (0x400 + 8 * k.val) = PKind.stl.regAt 0x400 := by decide

section
variable {st : Stall} {k : Fin 64}

theorem ctxCfg_page : pageNo (ctxCfg st.val k.val / 4096) = some (.stl st.val) := pageNo_stlR st.isLt (by omega)

theorem ctxCfg_offset : ctxCfg st.val k.val % 4096 = 0x400 + 8 * k.val := stlR_mod (by omega)

/-- Every field of CTX_CFG is RW. -/
theorem rwBits_ctxCfg : ∀ f, rwBits (ctxCfg st.val k.val) f = if f .d then 0xE0F0FFFF#32 else 0 :=
  rwBits_of_dynamic ctxCfg_page ((congrArg _ ctxCfg_offset).trans ((regAt_ctxCfg k).trans rfl))
    (by rw [ctxCfg_offset]; omega) (by decide) (by decide)

theorem applyRW_ctxCfg (s : State) (src : Src) (mask val : Word) :
    let a := ctxCfg st.val k.val
    s.applyRW src a mask val = s.writeCtxCfg st.val k.val ((s.reg a &&& ~~~mask) ||| (val &&& mask)) := by
  have h8 : (0x400 + 8 * k.val) % 8 = 0 := by omega
  simp [State.applyRW, ctxCfg_page, ctxCfg_offset, h8]

/-- A write of CTX_CFG that takes effect is that of R309 and R310. -/
theorem regCmd_ctxCfg {s : State} {src : Src} {v : Word} (h : takes s src (ctxCfg st.val k.val) v = true) :
    let a := ctxCfg st.val k.val
    s.regCmd src a v =
      (s.writeCtxCfg st.val k.val ((s.reg a &&& ~~~0xE0F0FFFF#32) ||| (v &&& 0xE0F0FFFF#32))).settleIdle := by
  have hact : s.act src (.stl st.val) (0x400 + 8 * k.val) v = s := by
    have h10 : ¬ 0x400 + 8 * k.val = 0x10 := by omega
    have h18 : ¬ 0x400 + 8 * k.val = 0x18 := by omega
    have h20 : ¬ 0x400 + 8 * k.val = 0x20 := by omega
    have h80 : ¬ 0x400 + 8 * k.val = 0x80 := by omega
    have h84 : ¬ 0x400 + 8 * k.val = 0x84 := by omega
    have h280 : ¬ 0x400 + 8 * k.val = 0x280 := by omega
    simp only [State.act, h10, h18, h20, h80, h84, h280, if_false]
  exact (regCmd_of_dynamic ctxCfg_page ctxCfg_offset rwBits_ctxCfg (by decide) h (by omega) (by omega) (by omega) hact
    rfl).trans (by rw [applyRW_ctxCfg])

end

/-- Semaphores are of the towers: zeroing them leaves what is drawn. -/
theorem zeroSem_free (s : State) (st : Nat) (f : Nat → Bool) : (s.zeroSem st f).free = s.free :=
  List.foldlRecOn (motive := fun u : State => u.free = s.free) (s.towersOf st) _ rfl (fun _ h _ _ => h)

theorem zeroSem_sec (s : State) (st : Nat) (f : Nat → Bool) : (s.zeroSem st f).sec = s.sec :=
  List.foldlRecOn (motive := fun u : State => u.sec = s.sec) (s.towersOf st) _ rfl (fun _ h _ _ => h)

/-- R309, R383: context k of a stall opens: its semaphores are zero, it has a fresh key, its fields and state OPEN. -/
def State.contextOpened (s : State) (st k : Nat) (w : Word) : State :=
  (({ s.zeroSem st (fun slot => slot == k) with
    free := s.free + 1
    sec := { s.sec with
      drbg := s.sec.drbg + 1
      ctxKey := mset 0 s.sec.ctxKey (ctxNo st k) (Config.freeKey s.free) } } : State).setReg (ctxCfg st k) w).setFld
    (ctxStat st k) 31 28 1

section
variable {s : State} {st k : Nat} {val w : Word} (hw : val &&& 0xE0F0FFFF#32 = w)
include hw

/-- R309: a write with EN to a closed context opens it, is refused, or exceeds the shares of its stall. -/
theorem writeCtxCfg_of_closed (hc : s.ctxState st k = 0 ∨ s.ctxState st k = 3) (hen : fbit w 31 = true) :
    s.writeCtxCfg st k val =
      if s.mayOpen st w = false then s.setReg (ctxCfg st k) (w &&& 0x7FFFFFFF#32)
      else if 256 < s.shareSum st + fget w 15 8 then
        (s.setReg (ctxCfg st k) (w &&& 0x7FFFFFFF#32)).flagErr (.stl st) 31 0 0 none 0 0
      else s.contextOpened st k w := by
  have hc' : (decide (s.ctxState st k = 0) || s.ctxState st k == 3) = true := by simpa using hc
  simp only [State.writeCtxCfg, State.drawKey, State.contextOpened, hw, hc', hen, zeroSem_free, zeroSem_sec, Bool.not_true,
    Bool.not_eq_true', Bool.false_eq_true, if_true, if_false]

/-- R310: a write without EN to an open context whose other fields stand puts it in DRAIN. -/
theorem writeCtxCfg_closes (ho : s.ctxState st k = 1) (hen : fbit w 31 = false)
    (hrest : cfgRest w = cfgRest (s.reg (ctxCfg st k))) :
    s.writeCtxCfg st k val = ((s.setBit (ctxCfg st k) 31 false).setFld (ctxStat st k) 31 28 2).modStall st
      (fun x => { x with drains := x.drains ++ [(k, 0)] }) := by
  simp [State.writeCtxCfg, hw, ho, hen, hrest]

end

/-! ### The words of CONTEXT_OPEN and CONTEXT_CLOSE -/

/-- CONTEXT_OPEN sets EN. -/
theorem fbit_openWord (v : Word) : fbit ((v ||| 0x80000000#32) &&& 0xE0F0FFFF#32) 31 = true := by
  simp [fbit_eq_getLsbD]

/-- CONTEXT_OPEN writes MIN_SHARE as it is given. -/
theorem fget_openWord_minShare (v : Word) :
    fget ((v ||| 0x80000000#32) &&& 0xE0F0FFFF#32) 15 8 = (v.extractLsb' 8 8).toNat := by
  have hs : ((v ||| 0x80000000#32) &&& 0xE0F0FFFF#32).extractLsb' 8 8 = v.extractLsb' 8 8 := by
    rw [BitVec.extractLsb'_and, BitVec.extractLsb'_or]
    exact (congrArg (· &&& BitVec.allOnes 8) BitVec.or_zero).trans BitVec.and_allOnes
  rw [← hs, BitVec.extractLsb'_toNat]
  rfl

/-- A register that is 0 where CTX_CFG has no field holds all of its lower bits in fields. -/
theorem closeWord_eq {cur : Word} (h : cur &&& 0x1F0F0000#32 = 0) :
    cur &&& 0x7FFFFFFF#32 &&& 0xE0F0FFFF#32 = cur &&& 0x7FFFFFFF#32 := by
  calc cur &&& 0x7FFFFFFF#32 &&& 0xE0F0FFFF#32
    _ = (cur &&& 0x60F0FFFF#32) ||| (cur &&& 0x1F0F0000#32) := by rw [h, BitVec.and_assoc]; simp
    _ = cur &&& 0x7FFFFFFF#32 := by rw [← BitVec.and_or_distrib_left]; rfl

theorem cfgRest_eq_and (w : Word) : cfgRest w = (w &&& 0x7FFFFFFF#32).toNat := by
  rw [BitVec.toNat_and, show (0x7FFFFFFF#32).toNat = 2 ^ 31 - 1 from rfl, Nat.and_two_pow_sub_one_eq_mod]
  rfl

/-- CONTEXT_CLOSE clears EN and leaves the fields below it. -/
theorem closeWord_fields (cur : Word) :
    fbit (cur &&& 0x7FFFFFFF#32) 31 = false ∧ cfgRest (cur &&& 0x7FFFFFFF#32) = cfgRest cur := by
  refine ⟨by simp [fbit_eq_getLsbD], ?_⟩
  rw [cfgRest_eq_and, cfgRest_eq_and, BitVec.and_assoc, BitVec.and_self]

/-- Settles O20: RECONF_GO and RESUME are actions; R309 divides an opening, and a close changes EN alone. -/
theorem stallCommands : Obligations.StallCommands := by
  intro s src st k v a stat w z
  refine ⟨fun force h hst => ?reconf, fun h hc => ?opening, fun h hrsv ho => ?closing, fun h => ?resume⟩
  case reconf =>
    rw [← reconfWord_eq] at h
    exact congrArg Host.Outcome.next (regCmd_reconfGo h hst)
  case opening =>
    have hx : exec (.contextOpen src st k v) s = .next _ := congrArg Host.Outcome.next (regCmd_ctxCfg h)
    have hcases := writeCtxCfg_of_closed (and_merge_of_and_eq (s.reg a) (v ||| 0x80000000#32) BitVec.and_self) hc
      (fbit_openWord v)
    rw [fget_openWord_minShare] at hcases
    refine ⟨fun hno => ?_, fun hmay hfit => ?_, fun hmay hover => ?_⟩
    · exact hx.trans (next_settleIdle (hcases.trans (if_pos hno)))
    · have hmay' : ¬ s.mayOpen st.val w = false := by simp [hmay]
      exact hx.trans (next_settleIdle (hcases.trans ((if_neg hmay').trans (if_neg (Nat.not_lt.mpr hfit)))))
    · have hmay' : ¬ s.mayOpen st.val w = false := by simp [hmay]
      exact hx.trans (next_settleIdle (hcases.trans ((if_neg hmay').trans (if_pos hover))))
  case closing =>
    have hx : exec (.contextClose src st k) s = .next _ := congrArg Host.Outcome.next (regCmd_ctxCfg h)
    have hw := (and_merge_of_and_eq (s.reg a) (s.reg a &&& 0x7FFFFFFF#32) BitVec.and_self).trans (closeWord_eq hrsv)
    obtain ⟨hen, hrest⟩ := closeWord_fields (s.reg a)
    exact hx.trans (next_settleIdle (writeCtxCfg_closes hw ho hen hrest))
  case resume => exact congrArg Host.Outcome.next (regCmd_resume h)

end Sys2Proof.Machine
end

section
/-! Events that move sessions and stalls on (O52): timers of admission and parking, and the ends of stall resets,
reconfigurations and integrity checks. -/

namespace Sys2Proof.Machine

/-! ### Timers of admission and parking (R337, R339, R340) -/

theorem admissionTimeout_eq {s : State} {ctx : Byte} {sid : Word} {y : Ses} (st : Stall)
    (hf : s.findSes ctx.toNat sid = some y) : exec (.admissionTimeout st ctx sid) s =
      .next (if y.stall = st.val ∧ y.st = .wait ∧ y.ending = none ∧ 16 * s.fld (stlR st.val 0x240) 23 16 ≤ y.waited
        then s.endSes y 3 9 else s) := by
  simp only [exec_admissionTimeout, execAdmissionTimeout, hf, Bool.and_eq_true, decide_eq_true_eq, beq_iff_eq,
    Option.isNone_iff_eq_none, and_assoc]
  split <;> rfl

section
variable {s : State} {st : Stall}

/-- R339: the oldest waiting LC session that is still short after LC_PARK steps takes frames from BE sessions. -/
theorem lcParkExpiry_evicts {y : Ses} {t : Nat} (ho : s.oldestLc st.val = some y) (hs : s.squeezed st.val = some t)
    (hd : s.fld (stlR st.val 0x244) 31 24 ≤ y.waited) (hh : s.halted st.val = false) (hn : s.homeFor y = none)
    (hp : (s.stall st.val).part ≤ 2) : exec (.lcParkExpiry st) s =
      .next (State.evictFor s.ses.length s t (s.layers st.val * plistS y.pcap) y.ctx) := by
  simp [execLcParkExpiry, ho, hs, hh, hn, Nat.not_lt.mpr hd, Nat.not_lt.mpr hp]

theorem lcParkExpiry_stays (ho : s.oldestLc st.val = none) : exec (.lcParkExpiry st) s = .next s := by
  simp only [exec_lcParkExpiry, execLcParkExpiry, ho]

end

/-- R340: the active BE sessions of a tower, parked or not. -/
def State.beOf (s : State) (t : Nat) : List Ses :=
  s.ses.filter (fun y => y.home == t && y.be && (y.st == .active || y.st == .parked) && y.ending.isNone)

/-- R340: every active BE session of a tower has been parked for PARK_MAX steps, and its stall may still evict. -/
def State.parkMaxDue (s : State) (t : Nat) : Bool :=
  decide ((s.stall (s.stallOf t)).part ≤ 2) &&
    (s.beOf t).all (fun y => y.st == .parked && decide (s.fld (stlR (s.stallOf t) 0x244) 23 16 ≤ y.parkedFor))

theorem parkMaxDue_iff {s : State} {t : Nat} : s.parkMaxDue t = true ↔ (s.stall (s.stallOf t)).part ≤ 2 ∧
    ∀ y ∈ s.beOf t, y.st = .parked ∧ s.fld (stlR (s.stallOf t) 0x244) 23 16 ≤ y.parkedFor := by
  simp [State.parkMaxDue]

/-- R295: the sessions that may be evicted for room in tower t: their pairs hold no results. -/
def State.evictable (s : State) (t : Nat) : List Ses := (s.beOf t).filter (fun y => !s.blocked y)

theorem parkMaxExpiry_eq (s : State) (t : Tower) : exec (.parkMaxExpiry t) s = .next (if s.parkMaxDue t.val
    then ((newestFirst (s.evictable t.val)).head?.map s.evict).getD s else s) := by
  have htest : (decide (2 < (s.stall (s.stallOf t.val)).part) || !(s.beOf t.val).all (fun y =>
      y.st == .parked && decide (s.fld (stlR (s.stallOf t.val) 0x244) 23 16 ≤ y.parkedFor))) = !s.parkMaxDue t.val := by
    rw [State.parkMaxDue, Bool.not_and, ← decide_not]
    simp only [Nat.not_le]
  unfold State.beOf at htest
  simp only [exec_parkMaxExpiry, execParkMaxExpiry, htest, State.evictable, State.beOf]
  cases s.parkMaxDue t.val with
  | false => rfl
  | true =>
    cases newestFirst _ <;> rfl

section
variable {s : State} {t : Tower}

theorem parkMaxExpiry_evicts {y : Ses} (hd : s.parkMaxDue t.val = true)
    (hy : (newestFirst (s.evictable t.val)).head? = some y) : exec (.parkMaxExpiry t) s = .next (s.evict y) := by
  rw [parkMaxExpiry_eq, if_pos hd, hy]
  rfl

theorem parkMaxExpiry_stays (h : ¬ s.parkMaxDue t.val = true ∨ s.evictable t.val = []) :
    exec (.parkMaxExpiry t) s = .next s := by
  rw [parkMaxExpiry_eq]
  rcases h with h | h
  · rw [if_neg h]
  · rw [h]
    exact congrArg Host.Outcome.next (ite_self s)

end

/-! ### Stall resets (R323, R324) -/

section
variable {s : State} {st : Stall}

/-- A register holds nothing of a stall's record. -/
theorem stall_setFld (s : State) (a hi lo v i : Nat) : (s.setFld a hi lo v).stall i = s.stall i := rfl

/-- The page of a stall leaves its reset. -/
def State.leavesReset (s : State) (i : Nat) : State :=
  { s.modStall i (fun y => { y with resetOn := false }) with rf := { s.rf with brst := sdel s.rf.brst (0x10 + i) } }

theorem leavesReset_integ (s : State) (i : Nat) : ((s.leavesReset i).stall i).integ = (s.stall i).integ := by
  have hstl : (s.leavesReset i).stall i = (s.modStall i (fun y => { y with resetOn := false })).stall i := rfl
  rw [hstl, State.stall_modStall]

/-- R323, R324: a stall reset ends in service or, after SRST_MAX of them, out of service. -/
def State.resetEnds (s : State) (i : Nat) : State :=
  if (s.leavesReset i).fld (stlR i 0x88) 10 8 ≤ (s.stall i).resets then (s.leavesReset i).stopServing i
  else (s.leavesReset i).setFld (stlR i 0x14) 31 28 2

theorem stallResetDone_stays (h : (s.stall st.val).resetOn = false) : exec (.stallResetDone st) s = .next s := by
  simp [execStallResetDone, h]

theorem stallResetDone_ends (h : (s.stall st.val).resetOn = true)
    (hi : ((s.resetEnds st.val).stall st.val).integ = false) :
    exec (.stallResetDone st) s = .next (s.resetEnds st.val).settleIdle := by
  have hdue : exec (.stallResetDone st) s = .next (if ((s.resetEnds st.val).stall st.val).integ
      then (s.resetEnds st.val).haltStall st.val else s.resetEnds st.val).settleIdle := if_neg (by simp [h])
  rw [hdue, if_neg (Bool.eq_false_iff.mp hi)]

/-! ### Reconfigurations (R307, R308) -/

theorem reconfiguration_begins (h : s.atBoundary st.val = true) : exec (.reconfiguration st) s = .next s.settleIdle := by
  simp only [exec_reconfiguration, execReconfiguration, h, if_true]

theorem reconfiguration_stays (h : s.atBoundary st.val = false) : exec (.reconfiguration st) s = .next s := by
  simp only [exec_reconfiguration, execReconfiguration, h, Bool.false_eq_true, if_false]

/-- The request for a reconfiguration is no work of the stall (R307). -/
theorem workLeft_of_reconf (s : State) (i : Nat) (r : Option Bool) :
    (s.modStall i (fun y => { y with reconf := r })).workLeft i = s.workLeft i := by
  simp only [State.workLeft, State.stall_modStall, State.modStall_ses, State.modStall_subs]

/-- R307: work that is left and not forced out refuses a reconfiguration; otherwise phases 1 to 5 are performed. -/
theorem beginReconf_eq {i : Nat} {force : Bool} (hr : (s.stall i).reconf = some force)
    (ht : s.retraining i = false) (hb : s.bar2Held i = false) :
    let u := s.modStall i (fun y => { y with reconf := none })
    s.beginReconf i =
      if s.workLeft i = true ∧ force = false then (u.setFld (stlR i 0x84) 25 24 2).flagErr (.stl i) 30 0 0 none 0 0
      else (((((u.forceOut i).setFld (stlR i 0x14) 31 28 1).modStall i (fun y =>
        { y with reconfOn := true, again := 0 })).reconfPhase12 i).clearAcw i).reconfPhase45 i := by
  simp only [State.beginReconf, hr, ht, hb, workLeft_of_reconf, Bool.or_false, Bool.false_eq_true, if_false, Bool.and_eq_true,
    Bool.not_eq_true']
  rfl

theorem reconfigurationDone_stays (h : (s.stall st.val).reconfOn = false) :
    exec (.reconfigurationDone st) s = .next s := by
  simp [execReconfigurationDone, h]

/-- R308 phase 6: the stall is in service. -/
def State.reconfEnds (s : State) (i : Nat) : State :=
  ((s.setFld (stlR i 0x14) 31 28 2).modStall i (fun y => { y with reconfOn := false })).setFld (stlR i 0x84) 25 24 1

theorem reconfEnds_integ (s : State) (i : Nat) : ((s.reconfEnds i).stall i).integ = (s.stall i).integ := by
  rw [State.reconfEnds, stall_setFld, State.stall_modStall, stall_setFld]

/-- Without an integrity stop that waits for it, phase 6 is all that ends a reconfiguration. -/
theorem reconfDone_eq {i : Nat} (hi : (s.stall i).integ = false) : s.reconfDone i = s.reconfEnds i :=
  if_neg (Bool.eq_false_iff.mp ((reconfEnds_integ s i).trans hi))

theorem reconfigurationDone_ends (h : (s.stall st.val).reconfOn = true) (hi : (s.stall st.val).integ = false)
    (hp : s.partnOn = false) : exec (.reconfigurationDone st) s = .next (s.reconfEnds st.val).settleIdle := by
  have hp' : (s.reconfEnds st.val).partnOn = false := by
    rw [State.reconfEnds, State.setFld_partnOn, State.modStall_partnOn, State.setFld_partnOn, hp]
  simp only [exec_reconfigurationDone, execReconfigurationDone, h, reconfDone_eq hi, hp', Bool.not_true, Bool.false_and,
    Bool.false_eq_true, if_false]

/-! ### Integrity checks (R432) -/

theorem integrityCheckDone_stays (h : (s.stall st.val).checking = false) :
    exec (.integrityCheckDone st) s = .next s := by
  simp [execIntegrityCheckDone, h]

/-- A check that has no block to read finds every unit clean. -/
theorem integrityCheckDone_clean (h : (s.stall st.val).checking = true) (hs : s.checkSet st.val = []) :
    exec (.integrityCheckDone st) s =
      .next ((s.modStall st.val (fun y => { y with checking := false, integ := false, clean := true })).setFld
        (stlR st.val 0x280) 27 26 1).settleIdle := by
  rw [exec_integrityCheckDone, execIntegrityCheckDone, h, hs]
  exact if_neg Bool.false_ne_true

end

/-- Settles O52: each event by whether it is due. -/
theorem servingEvents : Obligations.ServingEvents := by
  intro s st i x
  refine ⟨fun ctx sid y hf => ?admission, fun y t => lcParkExpiry_evicts,
    lcParkExpiry_stays, fun t => ?parking, fun h hi => ?reset, stallResetDone_stays, reconfiguration_begins,
    reconfiguration_stays, fun force hr ht hb => ?reconf, reconfigurationDone_ends, reconfigurationDone_stays,
    integrityCheckDone_clean, integrityCheckDone_stays⟩
  case admission =>
    have hx := admissionTimeout_eq st hf
    exact ⟨fun hdue => hx.trans (congrArg Host.Outcome.next (if_pos hdue)),
      fun hno => hx.trans (congrArg Host.Outcome.next (if_neg hno))⟩
  case parking =>
    exact ⟨fun hdue y hy => parkMaxExpiry_evicts (parkMaxDue_iff.mpr hdue) hy,
      fun hno => parkMaxExpiry_stays (hno.imp_left (mt parkMaxDue_iff.mp))⟩
  case reset =>
    intro u
    have hu : (u.stall i).integ = false := (leavesReset_integ s i).trans hi
    refine ⟨fun hr => ?_, fun hr hstl => ?_⟩
    · have hv : s.resetEnds i = u.setFld (stlR i 0x14) 31 28 2 := if_neg (Nat.not_le.mpr hr)
      exact (stallResetDone_ends h (by rw [hv, stall_setFld]; exact hu)).trans (next_settleIdle hv)
    · have hv : s.resetEnds i = u.stopServing i := if_pos hr
      exact (stallResetDone_ends h (by rw [hv, hstl]; exact hu)).trans (next_settleIdle hv)
  case reconf =>
    have hx := beginReconf_eq hr ht hb
    refine ⟨fun hw hf => hx.trans (if_pos ⟨hw, hf⟩), fun hno => hx.trans (if_neg ?_)⟩
    rcases hno with h | h <;> simp [h]

end Sys2Proof.Machine
end
